-- ==== Sys2Proof/Word.lean ====
section
/-! DEFINITION. The plainest types and numbers of the model (R4): bytes, words, and the moduli of the manual's counters. -/

namespace Sys2Proof

/-- One byte of a host access, a frame or a store. -/
abbrev Byte := BitVec 8
/-- One 32-bit register word. -/
abbrev Word := BitVec 32
/-- One 64-byte descriptor as it stands in a submission ring (R42): byte 0 is the low byte. -/
abbrev Desc := BitVec 512

/-- Axis positions wrap modulo 2^40 (R77). -/
def pos40 : Nat := 2 ^ 40

end Sys2Proof
end

