-- ==== Sys2Proof/Syntax.lean ====
section
/-! DEFINITION. The commands: one constructor of `Instr` per row of spec/opcode_table.json, with the operands the row's rule
gives it. Names of units are numbers as the chapters number them; a command whose number names no unit does nothing. -/

namespace Sys2Proof

/-- An event record without its PHASE bit (R45). -/
structure Rec where
  typ : Nat
  status : Nat
  src : Nat
  tag : Nat
  crx : Nat
  dseq : Nat
  stamp : Nat
  degraded : Bool
  data : Nat
deriving DecidableEq, Repr

/-- Where a register access comes from: the two functions and the ferryman's register port (R30, R66, R75). -/
inductive Port where
  | pf0 | pf1 | ferryman
deriving DecidableEq, Repr

/-- How a host read that the device issued ended (R34, R346). -/
inductive ReadEnd where
  | timeout | ur | ca | poisoned
deriving DecidableEq, Repr

/-- What a host read returned. -/
inductive ReadRes where
  | ok (data : List Byte)
  | fail (how : ReadEnd)
deriving DecidableEq, Repr

/-- What a drive's pin reference may read (R214): codes of the ADC inputs, and of each GPIO input the device times of its last three
edges: a rising one, the falling one after it, the rising one after that. -/
structure PinInputs where
  adc : List Nat
  gpio : List (Nat × Nat × Nat)
deriving DecidableEq, Repr

/-- What the inputs of loops see at a base-period edge (R267): latest conversions of the 48 ADC inputs, the last bits of the 48 sigma-delta
bitstreams, oldest first, and of each GPIO input the device times of its last three edges as in `PinInputs`. -/
structure Readings where
  adc : List Nat
  sd : List (List Bool)
  gpio : List (Nat × Nat × Nat)
deriving DecidableEq, Repr

/-- The commands of the LV6240. -/
inductive Instr where
  /-- POWER_ON_RESET (R352): VDD_AON rises from below its operating range and resets the whole device, including FLT_GRAVE. -/
  | powerOnReset
  /-- FUNDAMENTAL_RESET (R352): RST_N held low for at least 1 µs resets everything except FLT_GRAVE and the latch bits it covers, and releases every output. -/
  | fundamentalReset
  /-- RST_N_RISE (R353): The rising edge of RST_N samples CLKSEL and the bank levels, and starts the boot ROM sequence. -/
  | rstNRise (clksel : Bool) (banks : Nat)
  /-- BOOT_IMAGE_VERIFIED (R355): The boot ROM finishes reading and verifying an image slot and records its result code. -/
  | bootImageVerified (slot : Nat) (answers : Bool)
  /-- REF_LOSS (R17): No reference edge arrives for 1 µs: the clocks move to the RC oscillator, exposure stops and every boarded or cast-off crossing is abandoned. -/
  | refLoss
  /-- PLL_RELOCK (R17): The harbour or channel PLL completes relocking on the RC oscillator and its LOCK bit reads 1. -/
  | pllRelock (harbour : Bool)
  /-- REGISTER_WRITE (R61): A BAR0 write to a field without a row of its own is applied according to its access kind, ownership and lock state. -/
  | registerWrite (src : Port) (bar : Nat) (write : Bool) (off size val : Nat)
  /-- GANGWAY_CLOSE (R75): Boot code writes GEN_GANGWAY.CLOSED, locking protection set-up until a fundamental reset. -/
  | gangwayClose (src : Port)
  /-- POST_WRITE_APPLY (R62): A posted write leaves the posting stage applied and BUSY falls. -/
  | postWriteApply (block : Nat)
  /-- DOORBELL (R37): A 4-byte BAR2 write posts descriptors to a submission ring, or halts the ring for a bad tail. -/
  | doorbell (src : Port) (off size val : Nat)
  /-- SQ_ENABLE (R36): SQ_CTL.EN going from 0 to 1 resets the head, the tail and SEQ_NEXT, and clears HALT. -/
  | sqEnable (src : Port) (n : Nat)
  /-- SQ_DISABLE (R40): SQ_CTL.EN written 0 stops fetching and discards posted descriptors not yet accepted. -/
  | sqDisable (src : Port) (n : Nat)
  /-- SQ_RESTART (R41): Writing SQ_CTL.RESTART clears HALT and resumes fetching at SQ_HEAD. -/
  | sqRestart (src : Port) (n : Nat)
  /-- DESCRIPTOR_FETCH (R38): A read of up to eight descriptor slots completes and its descriptors are header-checked and accepted. -/
  | descriptorFetch (n : Nat) (ds : List Desc)
  /-- FETCH_FAIL (R34): A descriptor fetch ends in a timeout, UR, CA or poisoned completion and halts its ring. -/
  | fetchFail (n : Nat) (how : ReadEnd)
  /-- CHAIN_TIMEOUT (R38): The rest of a chain is not posted within DESC_FETCH_MS and the ring halts with TIMEOUT. -/
  | chainTimeout (n : Nat)
  /-- NOP (R43): A NOP descriptor completes OK and has no other effect. -/
  | nop (n : Nat)
  /-- EQ_ENABLE (R56): Enabling an event ring resets head, tail and pass, then delivers the loss record, the holdover records and the staged records in that order. -/
  | eqEnable (src : Port) (n : Nat)
  /-- EQ_DISABLE (R14): EQ_CTL.EN written 0 makes records for the ring wait in its share of the staging buffer. -/
  | eqDisable (src : Port) (n : Nat)
  /-- EQ_HEAD_WRITE (R47): Host software advances EQ_HEAD; a write past the tail is ignored and sets HEAD_ERR. -/
  | eqHeadWrite (src : Port) (n val : Nat)
  /-- EVENT_RECORD_PRODUCE (R14): A unit hands a record to its ring's share of the staging buffer, or it is discarded and counted as lost. -/
  | eventRecordProduce (n : Nat) (r : Rec)
  /-- EVENT_RECORD_DELIVER (R48): The RING block writes the next waiting record into an event ring that has room, as one 32-byte write. -/
  | eventRecordDeliver (n : Nat)
  /-- IMOD_TIMER_EXPIRE (R50): IMOD_TIME µs after the first unsignalled record, the ring signals its vector. -/
  | imodTimerExpire (n : Nat)
  /-- MSIX_UNMASK (R31): Host software unmasks a vector whose pending bit is set, and the held message is sent. -/
  | msixUnmask (pf vec : Nat)
  /-- CHART_ENABLE (R52): CHART_CTL.EN going from 0 to 1 restarts the sequence and writes SEQ = 0 to the control page. -/
  | chartEnable (src : Port)
  /-- CHART_WRITE (R53): At each whole millisecond, or after a crossing state change, the chart is captured at one edge and written, its SEQ last. -/
  | chartWrite
  /-- LINK_CHANGE (R33): A change of link rate, width, MPS or up/down state recomputes HOSTIF_BUDGET_CAP and produces a LINK record. -/
  | linkChange (rate width mps : Nat)
  /-- FLR_REQUEST (R56): A function-level reset of PF0 is requested, so no new fetches or transfers start and running transfers drain. -/
  | flrRequest
  /-- FLR_RESET_EDGE (R56): After the drain, the reset edge resets PF0's configuration, rings and chart registers, moves records to holdover, and returns boarding crossings to drafted. -/
  | flrResetEdge
  /-- FLR_PF1 (R57): A function-level reset of PF1 resets PF1's configuration and rings, with holdover. -/
  | flrPf1
  /-- HOT_RESET (R58): A hot reset, or the link going down, acts as a function-level reset of both functions. -/
  | hotReset
  /-- BUS_MASTER_ENABLE_WRITE (R391): Writing Bus Master Enable stops or resumes the memory transactions that the controller initiates for that function. -/
  | busMasterEnableWrite (pf : Nat) (bme msixEn : Bool)
  /-- QUAY_COMMIT (R70): A commit descriptor is checked against a snapshot of the named units' quay sets and becomes pending. -/
  | quayCommit (n : Nat)
  /-- COMMIT_BOUNDARY (R72): A pending commit reaches its boundary edge, is checked again, and applies, stays pending or completes with MISMATCH. -/
  | commitBoundary (k : Nat)
  /-- COMMIT_TIMEOUT (R73): A pending commit's TIMEOUT_MS expires and it completes with TIMEOUT, applying nothing. -/
  | commitTimeout (k : Nat)
  /-- QUAY_DISCARD (R74): Copies the named units' live sets back into their quay sets and clears DIRTY. -/
  | quayDiscard (n : Nat)
  /-- QUAY_STAGE (R74): Writes up to six QS register values from a ring after three passes of checks. -/
  | quayStage (n : Nat)
  /-- TIDE_INSERT (R89): Writes one or two tide entries at one edge, reporting NEAR and BEHIND entries. -/
  | tideInsert (n : Nat)
  /-- TIDE_REMOVE (R90): Removes up to eight tide entries at one edge, unless one belongs to a boarded or cast-off crossing. -/
  | tideRemove (n : Nat)
  /-- AXIS_REZERO (R90): Sets P and S of an axis in AX40–AX63 to a new position, acting as the REZERO action. -/
  | axisRezero (n : Nat)
  /-- AXIS_CONVERT (R82): Converts a device time to a position on an axis through its history lane. -/
  | axisConvert (n : Nat)
  /-- AXIS_UPDATE (R78): At each channel edge, an axis's scheduling position follows, holds against, or rewinds to its reported position. -/
  | axisUpdate (ax : Nat)
  /-- AXIS_HISTORY_SAMPLE (R80): Every 50,000 ns each enabled history lane stores the P of its axis with a discontinuity bit. -/
  | axisHistorySample
  /-- TIDE_ENTRY_DUE (R86): Entries that become due, or are found behind, at an edge are decided in (CRX, index) order and queued for issue. -/
  | tideEntryDue
  /-- TIDE_ACTION_ISSUE (R93): A decided action is issued when the issue rate and the 1,000 ns window allow. -/
  | tideActionIssue
  /-- TIDE_NOP (R84): Tide action 0x00 has no effect. -/
  | tideNop
  /-- PIN (R84): Tide action that drives an IO output low, high, toggled or released. -/
  | pin
  /-- PULSE (R84): Tide action that starts a high or low pulse of a given width on an IO output. -/
  | pulse
  /-- PULSE_END (R84): The pulse width expires and the output returns to its level before the pulse. -/
  | pulseEnd (out : Nat)
  /-- CAPTURE (R84): Tide action that latches an axis's S and the device time into a capture slot, with an optional record. -/
  | capture
  /-- EVENT (R84): Tide action that delivers a raise-event record carrying its ARG. -/
  | event
  /-- COMMIT (R84): Tide action that applies the pending TIDE commit carrying its TAG. -/
  | commit
  /-- REZERO (R84): Tide action that sets P and S of an axis in AX40–AX63 to a new position. -/
  | rezero
  /-- CAST_OFF (R110): Tide action that casts a boarded crossing off; from then on no descriptor can withdraw it. -/
  | castOff
  /-- EXPOSE_START (R131): Tide action that sets a station's first slot c0 and begins exposure of a crossing. -/
  | exposeStart
  /-- EXPOSE_END (R111): Tide action that ends exposure, recording lines not yet emitted as TRUNCATED. -/
  | exposeEnd
  /-- WINDOW_OPEN (R117): Tide action that opens a sheet-sensor window. -/
  | windowOpen
  /-- WINDOW_CLOSE (R117): Tide action that closes a sheet-sensor window; an unsatisfied window is a jam. -/
  | windowClose
  /-- LAND (R116): Tide action that ends a crossing as landed, or as spoiled if it has details. -/
  | land
  /-- MARK_WINDOW (R139): Tide action that opens a registration mark window on a mark sensor. -/
  | markWindow
  /-- HV_STEP (R287): Tide action that sets an HV channel's target level and ramp. -/
  | hvStep
  /-- HTR_STEP (R294): Tide action that sets a heater's set-point or holds it off. -/
  | htrStep
  /-- MOTION_START (R230): Tide action that starts a profile on a motion axis at a given segment. -/
  | motionStart
  /-- TIDE_MOTION_STOP (R232): Tide action that stops a motion axis along its stop ramp. -/
  | tideMotionStop
  /-- LAW_PARAM (R274): Tide action that writes one parameter of a capstan loop. -/
  | lawParam
  /-- EMU_GATE (R260): Tide action that sets or clears an emulation output's GATE. -/
  | emuGate
  /-- MANIFEST_HEAD (R106): Opens a manifest chain; the chain is checked and, if it passes, the crossing enters boarding. -/
  | manifestHead (n : Nat)
  /-- MANIFEST_STATION (R102): Describes one station's raster for the crossing within its manifest. -/
  | manifestStation (n : Nat)
  /-- MANIFEST_PATH (R104): Describes the paper-path segments, stop axes and HV rest channels of the crossing. -/
  | manifestPath (n : Nat)
  /-- MANIFEST_WINDOW (R104): Carries up to three sheet-sensor windows of the crossing. -/
  | manifestWindow (n : Nat)
  /-- MANIFEST_TIDE (R104): Carries up to two of the crossing's own tide entries. -/
  | manifestTide (n : Nat)
  /-- BOARDED (R109): The fill condition is met on every named station: entries are armed, the boarded record is produced and the chain completes OK. -/
  | boarded (crx : Nat)
  /-- BOARDING_TIMEOUT (R108): BOARD_TIMEOUT_MS expires before the fill condition is met and the crossing returns to drafted with TIMEOUT. -/
  | boardingTimeout (crx : Nat)
  /-- CROSSING_ABANDON (R123): Host command that returns a boarding crossing to drafted or locally abandons a boarded one. -/
  | crossingAbandon (n : Nat)
  /-- PATH_CLEAR (R119): Clears the segments jammed by the named crossing's jam. -/
  | pathClear (n : Nat)
  /-- SHEET_EDGE (R117): A filtered, debounced sheet-sensor edge satisfies a window, is ignored, or finds a jam or stray sheet. -/
  | sheetEdge (sensor : Nat) (level : Bool) (ns : Nat)
  /-- ABANDON_COMPLETE (R120): After the last station stop, budget and reservations are released and the abandoned record is produced. -/
  | abandonComplete (crx : Nat)
  /-- ENGINE_ABANDON (R121): On Ebb, a class A or B fault, or REF_LOSS, every station stops exposure at its next line boundary. -/
  | engineAbandon
  /-- ENGINE_ABANDON_LASER_CUT (R121): 1 ms after E, a station not yet at a line boundary has its laser enable cut. -/
  | engineAbandonLaserCut
  /-- ENGINE_ABANDON_SHUTDOWN (R121): Once every station has stopped, HV ramps to 0, motion decelerates, heaters go off and crossings are abandoned in CRX order. -/
  | engineAbandonShutdown
  /-- SOS_EDGE (R125): A start-of-scan edge is accepted inside its window and stamped to the tick. -/
  | sosEdge (stn tick pulse : Nat)
  /-- SOS_WINDOW_EXPIRE (R125): No SOS is accepted inside the window, so the sweep is flown at the predicted time and FLOWN increments. -/
  | sosWindowExpire (stn : Nat)
  /-- SWEEP_START (R134): At each sweep start the station computes its lag, skips, re-bases or writes a group, and decides its lines. -/
  | sweepStart (stn : Nat)
  /-- EOS_EDGE (R154): An accepted end-of-scan updates CM and FC and may step the scan PLL's N. -/
  | eosEdge (stn tick pulse : Nat)
  /-- FACET_LEARN_END (R126): Facet learning completes: facet 0 is chosen, durations are stored and FC is initialised. -/
  | facetLearnEnd (stn : Nat)
  /-- MARK_EDGE (R140): The first mark edge in a window is converted to a position, and the station's registration offset is updated. -/
  | markEdge (sensor : Nat) (falling : Bool) (time : Nat)
  /-- MARK_WINDOW_CLOSE (R140): A mark window closes without an edge and FAIL increments. -/
  | markWindowClose
  /-- BAND_SEARCH_TRIAL (R145): One band-search trial ends with a count of feedback edges, narrowing the search or choosing the band. -/
  | bandSearchTrial (stn count : Nat)
  /-- LOCK_WINDOW_END (R148): A 1,024-cycle lock window ends, so the PLL declares or loses lock, or falls back from a hop. -/
  | lockWindowEnd (stn count : Nat) (vtWarn : Bool)
  /-- PLL_LOCK_TIMEOUT (R149): The PLL has not locked within LOCK_TIMEOUT, so NO_LOCK is set and the PLL retries every 10 ms. -/
  | pllLockTimeout (stn : Nat)
  /-- SCAN_RAMP_LOAD (R153): Writes one ramp bank from host memory and computes RAMP_MIN and RAMP_MAX. -/
  | scanRampLoad (n : Nat) (data : ReadRes)
  /-- DOT_SET_LOAD (R175): Loads a station's mapping and waveform tables, through the head on a Beam Link station. -/
  | dotSetLoad (n : Nat) (data : ReadRes)
  /-- RASTER_ROW_FETCH (R166): A raster lighter issues reads for the next row once the share has free words for it. -/
  | rasterRowFetch (lt : Nat)
  /-- RASTER_READ_COMPLETE (R344): A raster read completes and writes its row into the Hold, or fails and marks the line absent. -/
  | rasterReadComplete (lt : Nat) (data : ReadRes)
  /-- SCRUB_READ (R22): A scrubber reads its next word when it is due and unclaimed, correcting or poisoning it. -/
  | scrubRead (store : Nat) (upset : List Nat)
  /-- ECC_INJECT_ARM (R22): Writing DIAG_ECC_INJ.ARM corrupts the next write to the chosen store. -/
  | eccInjectArm (src : Port)
  /-- HPD_CHANGE (R188): A head is plugged in and debounced for 100 ms, or unplugged, so the link starts identity read or goes OFF. -/
  | hpdChange (stn : Nat) (low : Bool)
  /-- IDENTITY_READ_DONE (R194): The head identity memory read completes, is compared with the host's description and produces ATTACH. -/
  | identityReadDone (stn : Nat) (data : Option (List Byte))
  /-- LINK_TRAIN_PROGRESS (R188): A head report advances the link through CLOCK, LANE, DESKEW and SYNC to UP. -/
  | linkTrainProgress (stn report : Nat)
  /-- LINK_TRAIN_TIMEOUT (R188): TRAIN_TIMEOUT expires, so training retries or, after three attempts, fails and retries after 1 s. -/
  | linkTrainTimeout (stn : Nat)
  /-- LINK_RETRAIN (R188): Sync-header errors, a lane lock loss, PLL unlock or a silent sideband drop the link from UP to CLOCK. -/
  | linkRetrain (stn : Nat)
  /-- SIDEBAND_REPLY (R189): A head reply packet to a station request is received and handled. -/
  | sidebandReply (stn cmd tid : Nat) (payload : List Byte) (crc : Nat)
  /-- SIDEBAND_TIMEOUT (R189): No reply within 100 µs, so the request is retried or the sideband counts as silent. -/
  | sidebandTimeout (stn : Nat)
  /-- HEAD_STATUS_POLL (R190): Every 1 ms while UP, the station polls head status and lane error counts. -/
  | headStatusPoll (stn : Nat)
  /-- GSTAT (R187): The head's frame report arrives; a failed frame records BEAM_LINK details. -/
  | gstat (stn sweep : Nat) (whole crcFail : Bool)
  /-- GSTAT_MISSING (R187): No GSTAT for 100 µs, so the frame is treated as failed. -/
  | gstatMissing (stn : Nat)
  /-- EMITTER_FAULT (R197): A head's in-line emitter fault report marks the emitter failed and blanks its row from the next sweep. -/
  | emitterFault (stn emitter cause : Nat)
  /-- RELIEF (R198): At the first idle edge, failed rows are remapped to sited relief emitters, or RELIEF_EXHAUSTED is reported. -/
  | relief (stn : Nat)
  /-- WEAR_WRITE (R195): The ferryman writes a wear copy to the head identity memory page by page in gaps. -/
  | wearWrite (stn : Nat)
  /-- DRIVE_DECISION (R208): Every 6.25 µs a drive channel runs its flux and torque comparators and applies a vector from the switching table. -/
  | driveDecision (n : Nat) (a b v : List Bool) (adc : Nat)
  /-- DRIVE_SPEED_STEP (R213): Every 50 µs the set-point is limited and ramped, the speed PI runs and field weakening updates. -/
  | driveSpeedStep (n : Nat) (inp : PinInputs)
  /-- DRV_START (R217): DRV_CTL.START starts the channel through catch, search or run. -/
  | drvStart (src : Port) (n : Nat)
  /-- DRV_STOP (R217): DRV_CTL.STOP ramps the channel towards zero. -/
  | drvStop (src : Port) (n : Nat)
  /-- FIND_ANGLE (R219): DRV_CTL.FIND_ANGLE runs the rotor angle search while the channel is OFF. -/
  | findAngle (src : Port) (n : Nat)
  /-- CATCH_DONE (R218): The three winding-short pulses end and the catch moves the channel to RUN, SEARCH or SHORT. -/
  | catchDone (n : Nat) (pulses : List (Int × Int × Nat))
  /-- ANGLE_SEARCH_DONE (R219): The angle search finds the angle, or fails and repeats after 20 ms or gives DRV_ANGLE. -/
  | angleSearchDone (n : Nat) (rise : List Nat) (fwd rev : Nat)
  /-- DRV_OC (R224): A phase current crosses OC_LIMIT and the channel trips within 2 µs. -/
  | drvOc (n : Nat) (a b : List Bool)
  /-- DRV_GATE (R224): DFLTn_N is low for 1 µs and the channel trips. -/
  | drvGate (n : Nat)
  /-- DRV_STALL (R224): Speed stays low at near-full torque for STALL_MS and the channel stops. -/
  | drvStall (n : Nat)
  /-- DRV_PIN_LOST (R214): A pin reference shows no edge for PIN_TMO, so the set-point becomes 0. -/
  | drvPinLost (n : Nat) (inp : PinInputs)
  /-- BUS_GROUP_CHANGE (R223): A bus group crosses OV_LEVEL, OV_TRIP or UV_LEVEL, or its chopper faults, and the group reacts. -/
  | busGroupChange (g : Nat) (fault sense : Bool)
  /-- CHOP_SENSE_FAIL (R222): The chopper sense check fails for CHOP_CHK µs and SENSE_FAIL is set. -/
  | chopSenseFail (g : Nat)
  /-- MOTION_SAMPLE (R228): Every 6.25 µs each motion axis evaluates its segment, move, stop or limit. -/
  | motionSample (m : Nat)
  /-- MOTION_RUN (R230): Descriptor that starts a profile on a motion axis. -/
  | motionRun (n : Nat)
  /-- MOTION_MOVE (R231): Descriptor that drives an axis to a target along a trapezoid, or reverses or refuses a target behind. -/
  | motionMove (n : Nat)
  /-- MOTION_STOP (R232): Descriptor that stops the axes named in its mask. -/
  | motionStop (n : Nat)
  /-- MOTION_STOP_TIMEOUT (R232): The named axes are not idle after 10 s and MOTION_STOP completes with TIMEOUT. -/
  | motionStopTimeout (n : Nat)
  /-- MOTION_HOME (R235): Descriptor that runs the homing sequence on a motion axis. -/
  | motionHome (n : Nat) (level : Bool)
  /-- HOME_EDGE (R235): A switch edge during homing latches p1 or the home edge p2. -/
  | homeEdge (m : Nat) (rising : Bool)
  /-- HOME_TIMEOUT (R235): MAX_TRAVEL or TIMEOUT_MS is exceeded and homing ends with TIMEOUT. -/
  | homeTimeout (m : Nat)
  /-- INPOS_TIMEOUT (R230): A move is not in position within INPOS_MS of arrival and completes with TIMEOUT. -/
  | inposTimeout (m : Nat)
  /-- MOTION_SEG_LOAD (R229): Writes segment table entries from host memory at one edge. -/
  | motionSegLoad (n : Nat) (data : ReadRes)
  /-- MICROSTEP_LOAD (R241): Writes a microstep table set from host memory at one edge. -/
  | microstepLoad (n : Nat) (data : ReadRes)
  /-- CHOPPER_ON_END (R243): A coil's comparator reaches its reference after blanking and the coil enters OFF. -/
  | chopperOnEnd (k : Nat) (coilB : Bool)
  /-- CHOPPER_OFF_END (R243): A coil's fast or slow decay time expires and the coil moves to slow decay or ON. -/
  | chopperOffEnd (k : Nat) (coilB : Bool)
  /-- STEPPER_HOLD (R245): q is unchanged for HOLD_MS and the channel moves to I_HOLD. -/
  | stepperHold (k : Nat)
  /-- STP_SHORT (R245): 16 consecutive ON phases find the comparator already tripped, so the channel trips. -/
  | stpShort (k : Nat) (coilB : Bool)
  /-- STP_OPEN (R245): An ON phase lasts OPEN_MS without a trip and the axis stops. -/
  | stpOpen (k : Nat) (coilB : Bool)
  /-- STP_STALL (R245): Commanded and encoder positions differ by more than STALL_ERR and the axis stops. -/
  | stpStall (k : Nat)
  /-- ENCODER_COUNT (R247): An accepted change of A or B moves the port count, or is an illegal transition. -/
  | encoderCount (p : Nat) (a b : List Bool)
  /-- INDEX_EVENT (R252): A Z rising edge latches the count, sets IDX_REF and checks the line count. -/
  | indexEvent (p : Nat) (z : List Bool)
  /-- SSI_REQUEST (R248): Every POLL × 50 ns an absolute-word port requests and clocks a frame. -/
  | ssiRequest (p : Nat) (dataHigh : Bool)
  /-- SSI_FRAME_DONE (R249): A frame's last CRC bit is read, so the count is unwrapped or the frame is counted invalid. -/
  | ssiFrameDone (p : Nat) (bits : List Bool)
  /-- ENCODER_SPEED (R255): At each sample edge the port publishes SPEED in period or window mode. -/
  | encoderSpeed (p : Nat)
  /-- ENC_SIGNAL (R257): The receiver reports an open or shorted pair for 10 µs, so SIG_OK falls and the count holds. -/
  | encSignal (p : Nat)
  /-- EMU_EDGE (R258): An emulation output emits one quadrature edge from its backlog after MIN_GAP. -/
  | emuEdge (e : Nat)
  /-- EMU_OVERRUN (R259): The backlog would exceed 32,767, so the emulator stops and OVERRUN is set. -/
  | emuOverrun (e : Nat)
  /-- RESYNC (R259): EMU_STAT.RESYNC sets E to its target, clears the backlog and resumes. -/
  | resync (src : Port) (e : Nat)
  /-- CAPSTAN_PERIOD (R263): At each base-period edge, outputs are published, loops are released with snapshots, and beats and deadlines are judged. -/
  | capstanPeriod (beats : Nat) (r : Readings)
  /-- LOOP_SAMPLE_COMPLETE (R263): A loop's blocks finish and its signals, state and outputs are written to the loop store. -/
  | loopSampleComplete (l : Nat)
  /-- STALE (R281): A write tagged with a retired tally is discarded and reported STALE. -/
  | stale (c : Nat)
  /-- LAW_LOAD (R275): Writes law program blocks from host memory at one edge. -/
  | lawLoad (n : Nat) (data : ReadRes)
  /-- LAW_PARAM_SET (R276): Writes a loop's parameters, optionally clearing its signals and state. -/
  | lawParamSet (n : Nat) (data : ReadRes)
  /-- FF_TABLE_LOAD (R277): Writes a feed-forward table from host memory at one edge. -/
  | ffTableLoad (n : Nat) (data : ReadRes)
  /-- HV_PWM_PERIOD (R286): At each PWM period start an HV channel clamps its duty and drives HVPWM. -/
  | hvPwmPeriod (h : Nat)
  /-- HV_OVER (R288): Feedback beyond V_TRIP trips the HV channel. -/
  | hvOver (h code : Nat)
  /-- HV_ARC (R289): An arc edge blanks the output, counts the arc, and booms the channel past ARC_MAX. -/
  | hvArc (h : Nat)
  /-- ARC_BLANK_END (R289): ARC_BLANK periods pass without an arc and the channel returns softly to RUN. -/
  | arcBlankEnd (h : Nat)
  /-- HV_REARM (R290): HV_CTL.REARM moves the channel from DOWN to RUN. -/
  | hvRearm (src : Port) (h : Nat)
  /-- HEATER_HALF_CYCLE (R295): At each half-cycle boundary the heater forms its demand and fires by burst or phase, or counts a NOSYNC half-cycle. -/
  | heaterHalfCycle (k : Nat)
  /-- HEATER_GATE_END (R295): A heater gate pulse of GATE_US, or its level-on period, ends. -/
  | heaterGateEnd (k : Nat)
  /-- HTR_REARM (R296): HTR_CTL.REARM moves the heater from DOWN to RUN. -/
  | htrRearm (src : Port) (k : Nat)
  /-- ZCROSS_EDGE (R292): An accepted mains zero crossing tracks the period and counts towards lock, or relocks AX38 with a forward jump. -/
  | zcrossEdge
  /-- MAINS_LOST (R292): Two cycles pass without an in-window crossing, so AX38 holds and MAINS_LOST is raised. -/
  | mainsLost
  /-- SENSOR_READ (R301): Every 1 ms the sensors are read, broken sensors are flagged, and throttle factors are applied. -/
  | sensorRead (die : List Int) (adc : List Nat)
  /-- DIE_TRIP (R302): A die comparator at 125 °C makes every power output inactive within 1 µs and trips every channel. -/
  | dieTrip (sensor : Nat)
  /-- DIE_HOLD_RELEASE (R302): Every die sensor reads below 110 °C and DIE_HOLD falls. -/
  | dieHoldRelease
  /-- HTR_HWTRIP (R303): A fuser comparator reading leaves its window and forces its heaters off at the pin. -/
  | htrHwtrip (cmp code us : Nat)
  /-- FUSER_CMP_RELEASE (R303): The reading stays inside the narrowed window for 1 s and the heater pins are released. -/
  | fuserCmpRelease (cmp code : Nat)
  /-- CORE_DROOP (R304): VDD_CORE falls below DROOP_MV and the harbour clock drops to DROOP_SIXT. -/
  | coreDroop (mv : Nat)
  /-- DROOP_RECOVER (R304): After DROOP_HOLD µs above the threshold, the harbour clock climbs back one sixteenth per µs. -/
  | droopRecover
  /-- SEQ_GO (R307): SEQ_CTL.GO starts power-up from stage 0. -/
  | seqGo (src : Port)
  /-- SEQ_DOWN (R307): SEQ_CTL.DOWN declares Ebb with cause HOST. -/
  | seqDown (src : Port)
  /-- SEQBELL_STAGE_ADVANCE (R306): SEQBELL has been high for 3.5 µs, so the stage ends and the sequencer advances after 4.0 µs. -/
  | seqbellStageAdvance (high : Nat)
  /-- RAIL_GOOD (R305): A rail reaches GOOD_MV during power-up, or falls below OFF_MV during power-down. -/
  | railGood (rail code : Nat)
  /-- STAGE_DWELL_END (R305): The stage dwell of DWELL × 100 µs ends and the sequencer releases SEQBELL. -/
  | stageDwellEnd
  /-- RAIL_UP_TIMEOUT (R307): A rail is not good within T_UP, so UP_FAIL is set and Ebb is declared. -/
  | railUpTimeout (rail : Nat)
  /-- RAIL_DOWN_TIMEOUT (R305): A rail is still up at T_DOWN, so DOWN_TMO is set and the sequence continues. -/
  | railDownTimeout (rail : Nat)
  /-- RAIL_RUN_FAULT (R307): A monitored rail stays outside its window for FLT_US, so RUN_FAULT is set and Ebb is declared. -/
  | railRunFault (rail code us : Nat)
  /-- INPUT_FAILURE (R308): VINSNS stays below PFAIL_MV for PFAIL_US and Ebb is declared with cause INPUT. -/
  | inputFailure (mv us : Nat)
  /-- EXTERNAL_EBB (R308): EBB_N is held low by another participant for 2 µs and Ebb is declared with cause EXTERNAL. -/
  | externalEbb (ns : Nat)
  /-- T_SHUT_EXPIRE (R307): T_SHUT ends and power-down starts at stage 63. -/
  | tShutExpire
  /-- T_OFF_MIN_EXPIRE (R307): In OFF_WAIT, T_OFF_MIN passes with the input good, so EBB_N is released and power-up restarts. -/
  | tOffMinExpire
  /-- PWR_REQ (R310): A power mode request is taken, held under R9, or kept until the present change ends. -/
  | pwrReq (src : Port) (mode : Nat)
  /-- SLACK_DECLARED (R310): The last PLL parks after entry to Slack, or every enabled PLL locks after leaving it, and the mode is declared. -/
  | slackDeclared
  /-- MOORED_ENTRY (R311): Axes stop, channels go OFF, the capstans and the Hold are gated, rails drop, the link slows and Moored is declared. -/
  | mooredEntry
  /-- MOORED_STOP_TIMEOUT (R311): Axes are not stopped within 10 s of Moored entry and entry continues with COAST. -/
  | mooredStopTimeout
  /-- WAKE (R312): A doorbell, WAKE_N, Fenlink wake point or host request wakes the device from Moored. -/
  | wake (by_ us : Nat)
  /-- MOORED_EXIT (R311): Rails return, clocks restart, the Hold is zeroed, the link retrains and Fenlink resumes. -/
  | mooredExit
  /-- FENLINK_CYCLE (R317): At each CYCLE_US boundary a Fenlink-2 port sends SYNC and OUTPUT and opens its slots. -/
  | fenlinkCycle (port : Nat)
  /-- FENLINK_POLL (R318): A Fenlink-1 port sends the next POLL, CALL or ADMIT of its round. -/
  | fenlinkPoll (port : Nat)
  /-- REPLY (R316): A node REPLY arrives and updates inputs, converts stamps and produces POINT records. -/
  | reply (port : Nat) (frame : List Byte)
  /-- REPLY_MISSED (R324): A scheduled reply or poll does not arrive valid; at three in a row the node is boomed. -/
  | replyMissed (port node : Nat)
  /-- HELLO (R323): A node answers ADMIT or CALL, so it is admitted, rejected as a mismatch, or reported as a stranger. -/
  | hello (port : Nat) (frame : List Byte)
  /-- NODE_LIST_LOAD (R322): Writes a port's node list entries from host memory at one edge. -/
  | nodeListLoad (n : Nat) (data : ReadRes)
  /-- FAULT_RAISE (R331): A fault source is raised, latched, recorded and given its class's reaction. -/
  | faultRaise (src unit inst info : Nat) (live : Bool)
  /-- FAULT_LATCH_CLEAR (R334): A write of 0 to FLT_LATCH clears latch bits as their class allows, or sets CLR_REFUSED. -/
  | faultLatchClear (src : Port) (mask : Nat)
  /-- FAULT_PAIR_CHANGE (R336): An external fault pair enters or leaves fault or broken after its filter. -/
  | faultPairChange (pair : Nat) (a b : Bool) (us : Nat)
  /-- INTERLOCK_CHANGE (R342): An interlock input opens within 100 ns or recloses after 10 ms, cutting or releasing its routed outputs. -/
  | interlockChange (input : Nat) (level : Bool) (ns : Nat)
  /-- LANTERN_TOGGLE (R337): Every 500 µs of always-on time LANTERN toggles while its conditions hold. -/
  | lanternToggle
  /-- FERRY_WD (R26): The ferryman watchdog lapses, LANTERN stops and the ferryman is reset. -/
  | ferryWd
  /-- FERRYMAN_RE_ARM (R26): The ferryman re-arms its watchdog, and LANTERN resumes after a restart. -/
  | ferrymanReArm
  /-- LIGHTER_COPY (R346): Starts a host transfer on a general lighter with CRC and optional append. -/
  | lighterCopy (n : Nat)
  /-- LIGHTER_TRANSFER_COMPLETE (R348): The last Hold response or the flush read returns, and the transfer completes with its record and interrupt. -/
  | lighterTransferComplete (lt : Nat)
  /-- LIGHTER_READ_FAIL (R346): A general lighter read fails and the transfer stops with TIMEOUT or ECC. -/
  | lighterReadFail (lt : Nat) (how : ReadEnd)
  /-- DRAIN_TIMEOUT (R351): DRAIN_US expires before a transfer completes, so it completes with DOMAIN_DOWN. -/
  | drainTimeout (lt : Nat)
  /-- IMAGE_STAGE (R359): Reads and verifies a new ferryman image into the idle bank. -/
  | imageStage (n : Nat) (data : ReadRes)
  /-- IMAGE_SWITCH (R360): Requests the handover to the staged image once the device is quiet. -/
  | imageSwitch (n : Nat)
  /-- IMAGE_HANDOVER (R360): At the first quiet edge the banks exchange roles and the new image starts with the watchdog held armed. -/
  | imageHandover
  /-- IMAGE_SWITCH_TIMEOUT (R360): TIMEOUT_MS expires before the handover edge and nothing changes. -/
  | imageSwitchTimeout
  /-- HANDOVER_ARM_TIMEOUT (R361): The new image does not arm the watchdog within 5 ms, so the previous bank returns and the ferryman restarts. -/
  | handoverArmTimeout
  /-- FLASH_WRITE (R361): Writes the staged image into a flash slot and reads it back. -/
  | flashWrite (n : Nat) (inTime : Bool)
  /-- UNIT_LAYUP (R363): Requests lay-up of a unit, pending until no live crossing uses it, or at once with FORCE. -/
  | unitLayup (n : Nat)
  /-- LAYUP_APPLY (R364): The lay-up applies and the unit stops taking actions. -/
  | layupApply (k : Nat)
  /-- LAID_UP (R364): The unit comes to rest, the lay-up completes and a unit report is produced. -/
  | laidUp (k : Nat)
  /-- LAYUP_TIMEOUT (R363): The pending lay-up's TIMEOUT_MS expires and it completes with TIMEOUT. -/
  | layupTimeout (k : Nat)
  /-- UNIT_READMIT (R365): Ends a unit's lay-up and boom and returns it to service. -/
  | unitReadmit (n : Nat)
  /-- LOGBOOK_WRITE (R370): Writes host data word by word into the log book host area. -/
  | logbookWrite (n : Nat) (data : ReadRes)
  /-- CROSSING_COUNTER_WRITE (R368): After a crossing ends, the ferryman writes the crossing counter and subtracts the written amount from PENDING. -/
  | crossingCounterWrite
  /-- JOURNAL_ENTRY_WRITE (R369): The ferryman writes a journal entry, SEQ word last. -/
  | journalEntryWrite (kind data : Nat)
  /-- LB_ADDR_WRITE (R370): A write of GEN_LB_ADDR loads the log book word into GEN_LB_DATA. -/
  | lbAddrWrite (src : Port) (word : Nat)
  /-- INPUT_GOOD (R308): VINSNS rises above PFAIL_MV + 50 mV and the input is good again. -/
  | inputGood (mv : Nat)
  /-- EBB_N_RELEASE (R308): The shared EBB_N line rises once every participant has released it, and boarding is no longer refused for it. -/
  | ebbNRelease
  /-- SEQBELL_GLITCH (R306): SEQBELL is pulled low again before it has been high for 3.5 µs; the high is ignored and BELL_GLITCH increments. -/
  | seqbellGlitch
  /-- BEAM_LINK_TRAIN_RETRY (R188): 1 s after a training failure the station leaves OFF and tries training again. -/
  | beamLinkTrainRetry (stn : Nat)
  /-- SCAN_PLL_RETRY (R149): Every 10 ms after NO_LOCK the scan PLL starts a new full band search. -/
  | scanPllRetry (stn : Nat)
  /-- ANGLE_SEARCH_RETRY (R219): 20 ms after a failed first angle search, the search runs again. -/
  | angleSearchRetry (n : Nat)
  /-- ENC_SIGNAL_RESTORED (R257): The receiver fail-safe stops reporting an open or shorted pair, so SIG_OK rises and the count resumes. -/
  | encSignalRestored (p : Nat)
  /-- DFLT_RELEASE (R224): A drive channel's DFLTn_N input returns high and the DRV_GATE cause ends. -/
  | dfltRelease (n : Nat)
  /-- BUS_REACTION_END (R223): 10 ms after its condition ends, the forced winding short or the overvoltage short of a bus group ends and RUN resumes ramping. -/
  | busReactionEnd (g : Nat)
  /-- LIGHTER_READ_COMPLETE (R346): A host read of a general lighter transfer returns its data, which is written to the destination while the CRC advances and the next request is issued. -/
  | lighterReadComplete (lt : Nat) (data : List Byte)
deriving DecidableEq, Repr

end Sys2Proof
end

