-- ==== Sys2Proof/Decode.lean ====
section
/-! DEFINITION. Commands by table bits: the table of the commands gives no row any bits, so no word spells a command. -/

namespace Sys2Proof

/-- The command that a word of `nbits` bits spells by the command table; the table gives no row bits, so none does (log 14). -/
def decodeTableWord (_nbits _w : Nat) : Option Instr := none

end Sys2Proof
end

