-- ==== Sys2Proof/Machine/Table.lean ====
section
/-! DEFINITION. Sparse tables: the one form in which registers, stores and tables are held. A table is a list of (key, value)
pairs; a key it does not list reads as the default, and a write of the default removes the entry, so a table in canonical
form (keys strictly rising, no entry equal to the default) is equal to another exactly when they read alike. Also the
saturating and signed readings of field values (R61, R66). -/

namespace Sys2Proof

/-- A sparse table from Nat keys. -/
abbrev Tbl (α : Type) := List (Nat × α)

/-- The value at key `i`; `d` where the table lists none. -/
def tget {α : Type} (d : α) : Tbl α → Nat → α
  | [], _ => d
  | (k, v) :: t, i => if k = i then v else tget d t i

/-- Remove key `i`. -/
def tdel {α : Type} (t : Tbl α) (i : Nat) : Tbl α :=
  t.filter fun e => e.1 ≠ i

/-- Insert a pair before the first greater key. -/
def tins {α : Type} : Tbl α → Nat → α → Tbl α
  | [], i, v => [(i, v)]
  | (k, w) :: t, i, v => if i < k then (i, v) :: (k, w) :: t else (k, w) :: tins t i v

/-- Write `v` at key `i`; writing the default removes the entry. -/
def tput {α : Type} [DecidableEq α] (d : α) (t : Tbl α) (i : Nat) (v : α) : Tbl α :=
  if v = d then tdel t i else tins (tdel t i) i v

/-- Write a list of values at consecutive keys. -/
def tputs {α : Type} [DecidableEq α] (d : α) (t : Tbl α) (i : Nat) : List α → Tbl α
  | [] => t
  | v :: vs => tputs d (tput d t i v) (i + 1) vs

/-- The values at `n` consecutive keys. -/
def tgets {α : Type} (d : α) (t : Tbl α) (i : Nat) : Nat → List α
  | 0 => []
  | n + 1 => tget d t i :: tgets d t (i + 1) n

/-- Keys strictly rising. -/
def trising {α : Type} : Tbl α → Bool
  | [] => true
  | [_] => true
  | (k, _) :: (l, w) :: t => decide (k < l) && trising ((l, w) :: t)

/-- The canonical form of a table with default `d`. -/
def Tbl.wf {α : Type} [DecidableEq α] (d : α) (t : Tbl α) : Bool :=
  trising t && t.all fun e => decide (e.2 ≠ d)

/-- Read a `w`-bit value as two's complement. -/
def signed (w v : Nat) : Int :=
  if v < 2 ^ (w - 1) then (v : Int) else (v : Int) - (2 ^ w : Nat)

/-- Write an integer as a `w`-bit two's complement value. -/
def unsigned (w : Nat) (v : Int) : Nat := (v % (2 ^ w : Nat)).toNat

/-- Add to a counter that saturates at its field's width. -/
def satAdd (w v n : Nat) : Nat := min (2 ^ w - 1) (v + n)

/-- Bit `i` of a mask. -/
def bitOf (m i : Nat) : Bool := m.testBit i

/-- Set or clear bit `i` of a mask. -/
def setBit (m i : Nat) (b : Bool) : Nat :=
  if m.testBit i then (if b then m else m - 2 ^ i) else (if b then m + 2 ^ i else m)

/-- The set bits of `m` below `n`, ascending. -/
def bitsOf (m n : Nat) : List Nat := (List.range n).filter m.testBit

/-- Number of set bits of `m` below `n`. -/
def popcount (m n : Nat) : Nat := (bitsOf m n).length

/-- Bits [lo + w − 1 : lo] of `v`. -/
def field (v lo w : Nat) : Nat := v / 2 ^ lo % 2 ^ w

/-! The quarter wave of the reset microstep tables (R240): round(2,047 × sin(2πi/1,024)) for i = 0–256, computed from that
formula. -/
def sineQuarter : List Nat :=
  [0, 13, 25, 38, 50, 63, 75, 88, 100, 113, 126, 138, 151, 163, 176, 188] ++
  [201, 213, 226, 238, 251, 263, 275, 288, 300, 313, 325, 338, 350, 362, 375, 387] ++
  [399, 412, 424, 436, 449, 461, 473, 485, 497, 510, 522, 534, 546, 558, 570, 582] ++
  [594, 606, 618, 630, 642, 654, 666, 678, 690, 701, 713, 725, 737, 748, 760, 772] ++
  [783, 795, 807, 818, 830, 841, 852, 864, 875, 887, 898, 909, 920, 932, 943, 954] ++
  [965, 976, 987, 998, 1009, 1020, 1031, 1042, 1052, 1063, 1074, 1085, 1095, 1106, 1116, 1127] ++
  [1137, 1148, 1158, 1168, 1179, 1189, 1199, 1209, 1219, 1229, 1239, 1249, 1259, 1269, 1279, 1289] ++
  [1299, 1308, 1318, 1328, 1337, 1347, 1356, 1365, 1375, 1384, 1393, 1402, 1411, 1421, 1430, 1439] ++
  [1447, 1456, 1465, 1474, 1483, 1491, 1500, 1508, 1517, 1525, 1533, 1542, 1550, 1558, 1566, 1574] ++
  [1582, 1590, 1598, 1606, 1614, 1621, 1629, 1637, 1644, 1652, 1659, 1666, 1674, 1681, 1688, 1695] ++
  [1702, 1709, 1716, 1723, 1729, 1736, 1743, 1749, 1756, 1762, 1769, 1775, 1781, 1787, 1793, 1799] ++
  [1805, 1811, 1817, 1823, 1828, 1834, 1840, 1845, 1850, 1856, 1861, 1866, 1871, 1876, 1881, 1886] ++
  [1891, 1896, 1901, 1905, 1910, 1914, 1919, 1923, 1927, 1932, 1936, 1940, 1944, 1948, 1951, 1955] ++
  [1959, 1962, 1966, 1969, 1973, 1976, 1979, 1983, 1986, 1989, 1992, 1994, 1997, 2000, 2003, 2005] ++
  [2008, 2010, 2012, 2015, 2017, 2019, 2021, 2023, 2025, 2027, 2028, 2030, 2032, 2033, 2035, 2036] ++
  [2037, 2038, 2039, 2040, 2041, 2042, 2043, 2044, 2045, 2045, 2046, 2046, 2046, 2047, 2047, 2047] ++
  [2047]

/-- Entry i of a reset microstep table, sign-magnitude in 12 bits (R240). -/
def Machine.Reg.sine (i : Nat) : Nat :=
  let m := i % 512
  sineQuarter.getD (if m ≤ 256 then m else 512 - m) 0 + (if 512 < i then 2048 else 0)

end Sys2Proof
end

