-- ==== Sys2Proof/Machine/Crc.lean ====
section
/-! DEFINITION. The cyclic redundancy codes of the manual: CRC-32C (R347) and CRC-16/CCITT-FALSE (R316). -/

namespace Sys2Proof

/-- One bit of the reflected CRC-32C. -/
def crc32cBit (c : Nat) : Nat := if c % 2 = 1 then (c / 2) ^^^ 0x82F63B78 else c / 2

/-- One byte of the reflected CRC-32C, without initial or final inversion. -/
def crc32cByte (c : Nat) (b : Byte) : Nat :=
  let x := c ^^^ b.toNat
  crc32cBit (crc32cBit (crc32cBit (crc32cBit (crc32cBit (crc32cBit (crc32cBit (crc32cBit x)))))))

/-- Run the register over bytes. -/
def crc32cRun (c : Nat) (bs : List Byte) : Nat := bs.foldl crc32cByte c

/-- CRC-32C of a byte list (R347). -/
def crc32c (bs : List Byte) : Nat := crc32cRun 0xFFFFFFFF bs ^^^ 0xFFFFFFFF

/-- One bit of the CRC of R316. -/
def crc16Bit (c : Nat) : Nat := if 2 ^ 15 ≤ c then (2 * c % 2 ^ 16) ^^^ 0x1021 else 2 * c % 2 ^ 16

/-- One byte of the CRC of R316. -/
def crc16Byte (c : Nat) (b : Byte) : Nat :=
  let x := c ^^^ (b.toNat * 256)
  crc16Bit (crc16Bit (crc16Bit (crc16Bit (crc16Bit (crc16Bit (crc16Bit (crc16Bit x)))))))

/-- CRC-16 of a byte list (R316). -/
def crc16 (bs : List Byte) : Nat := bs.foldl crc16Byte 0xFFFF

end Sys2Proof
end

