-- ==== Sys2Proof/Config.lean ====
section
/-! DEFINITION. What the manual leaves open or to other documents: constants without a body, so that no proof can see their
values. Each is named in the assumption log. -/

namespace Sys2Proof.Config

/-- The `n`-th free value: a value the manual does not fix, fresh at each use (log 3). The user reduces it to the width it needs. -/
opaque free : Nat → Nat

/-- Whether an inexact quotient is rounded up where the manual states the quotient and not its rounding, and what stands for a
quotient by 0 (log 10). -/
opaque rndUp : Int → Int → Bool
opaque quotientBy0 : Int → Int

/-- A quotient rounded to an integer: exact where it is exact, else the integer below or above it (log 10). -/
def rnd (num den : Int) : Int :=
  if den = 0 then quotientBy0 num
  else if num % den = 0 then num / den
  else num.fdiv den + (if rndUp num den then 1 else 0)

/-- The output for a loop of a sigma-delta bitstream that no drive channel selects, whose decimation the manual does not give (R267,
log 141). -/
opaque sdUnselected : List Bool → Int

/-- The reading of a source of an INPUT or FOLLOW block at an index it does not have, by source and index (R267, log 157). -/
opaque noReading : Nat → Nat → Int

/-- How the dither LFSR gives the dither of an edge (R151, log 106). -/
opaque dither : Nat → Int

/-- SHA-256 (R354–R357): the manual names the function and does not define it (log 11). -/
opaque sha256 : List Byte → List Byte

/-- ECDSA P-256 verification of a signature (R354, R355): key, digest, signature (log 11). -/
opaque ecdsaVerify : List Byte → List Byte → List Byte → Bool

/-- What a flash slot holds after a write that did not finish (R361, log 40), by the number of free values used. -/
opaque flashTorn : Nat → List Byte

/-- The tracked mains period in ns from the last one and the time between accepted crossings (R292, log 18). -/
opaque mainsPeriod : Nat → Nat → Nat

end Sys2Proof.Config
end

