-- ==== Sys2Proof/Machine/Regs.lean ====
section
/-! DEFINITION. The BAR0 register fields of the chapters' register tables (R59–R61): one `Fld` per field, with its byte
offset, lowest bit, width, instance strides, access kind and reset value. A field that the tables split over two 32-bit
words (`_LO`, `_HI`) is one `Fld` of its full width. Fields that only show other state (`TIDE_OCC` and the like) are
answered by `Machine/BarRead.lean`. -/

namespace Sys2Proof.Machine

/-- Access kinds of R61. `sticky` and `counter` are the RW fields R66 judges by their own type; `prot` is protection set-up
(R75); `own` is a field whose write is a command row of its own. -/
inductive Acc where
  | rw | sticky | counter | ro | rl | wo | w1s | post | postSticky | qs | wl | prot | own
deriving DecidableEq, Repr

/-- A register field: byte offset `base` of instance (0, 0), lowest bit `lo`, `width`, byte strides `s1`, `s2` of the two
instance indices, instance counts `n1`, `n2`, bit stride `b2` of the second index, access kind, reset value. -/
structure Fld where
  base : Nat
  lo : Nat
  width : Nat
  s1 : Nat
  n1 : Nat
  s2 : Nat
  n2 : Nat
  b2 : Nat
  acc : Acc
  rst : Nat → Nat → Nat

/-- Byte offset of instance (i, j). -/
def Fld.addr (f : Fld) (i j : Nat) : Nat := f.base + f.s1 * i + f.s2 * j
/-- Lowest bit of instance (i, j) in its word. -/
def Fld.bit (f : Fld) (j : Nat) : Nat := f.lo + f.b2 * j
/-- The key under which instance (i, j) is held: its one home (R59). -/
def Fld.key (f : Fld) (i j : Nat) : Nat := f.addr i j * 64 + f.bit j

/-- Class encodings of R330: 0 = D, 1 = C, 2 = B, 3 = A; the reset classes of R328 by source number. -/
def classResets : List Nat :=
  [3, 0, 0, 0, 0, 0, 0, 1, 1, 0, 0, 1, 0, 0, 1, 1, 1, 2, 2, 0, 1, 1, 0, 0, 1, 1, 1, 0, 1, 1, 0, 0,
   0, 1, 2, 0, 1, 0, 2, 1, 0, 0, 2, 0, 2, 2, 0, 2, 0, 1, 0, 0, 0, 2, 2, 2] ++ [2, 2, 2, 2, 2, 2, 2, 2]
def classReset (n : Nat) : Nat := classResets.getD n 0

namespace Reg

/-! ### GEN -/

def GEN_CLK_STAT_HB_SIXTEENTHS : Fld := ⟨0x40, 0, 5, 0x0, 1, 0x0, 1, 0, .ro, fun _ _ => 16⟩
def GEN_CLK_STAT_REF_SRC : Fld := ⟨0x40, 5, 1, 0x0, 1, 0x0, 1, 0, .ro, fun _ _ => 0⟩
def GEN_CLK_STAT_REF_LOST : Fld := ⟨0x40, 6, 1, 0x0, 1, 0x0, 1, 0, .ro, fun _ _ => 0⟩
def GEN_CLK_STAT_DROOP : Fld := ⟨0x40, 7, 1, 0x0, 1, 0x0, 1, 0, .rl, fun _ _ => 0⟩
def GEN_CLK_STAT_THROTTLE : Fld := ⟨0x40, 8, 1, 0x0, 1, 0x0, 1, 0, .rl, fun _ _ => 0⟩
def GEN_CLK_STAT_CH_LOCK : Fld := ⟨0x40, 9, 1, 0x0, 1, 0x0, 1, 0, .rl, fun _ _ => 0⟩
def GEN_CLK_STAT_HB_LOCK : Fld := ⟨0x40, 10, 1, 0x0, 1, 0x0, 1, 0, .rl, fun _ _ => 0⟩
def GEN_QUAY_SLOTS_PENDING : Fld := ⟨0x100, 0, 4, 0x0, 1, 0x0, 1, 0, .ro, fun _ _ => 0⟩
def GEN_QUAY_STAT_DIRTY : Fld := ⟨0x200, 0, 1, 0x4, 122, 0x0, 1, 0, .ro, fun _ _ => 0⟩
def GEN_QUAY_STAT_PENDING : Fld := ⟨0x200, 1, 1, 0x4, 122, 0x0, 1, 0, .ro, fun _ _ => 0⟩
def GEN_QUAY_STAT_LAST_STATUS : Fld := ⟨0x200, 8, 8, 0x4, 122, 0x0, 1, 0, .ro, fun _ _ => 0⟩
def GEN_QUAY_STAT_GENERATION : Fld := ⟨0x200, 16, 16, 0x4, 122, 0x0, 1, 0, .ro, fun _ _ => 0⟩
def GEN_ID_VENDOR : Fld := ⟨0x0, 0, 16, 0x0, 1, 0x0, 1, 0, .ro, fun _ _ => 8167⟩
def GEN_ID_DEVICE : Fld := ⟨0x0, 16, 16, 0x0, 1, 0x0, 1, 0, .ro, fun _ _ => 25152⟩
def GEN_REV_STEP_NUM : Fld := ⟨0x4, 0, 4, 0x0, 1, 0x0, 1, 0, .ro, fun _ _ => 1⟩
def GEN_REV_STEP_LETTER : Fld := ⟨0x4, 4, 4, 0x0, 1, 0x0, 1, 0, .ro, fun _ _ => 10⟩
def GEN_GANGWAY_CLOSED : Fld := ⟨0x10, 0, 1, 0x0, 1, 0x0, 1, 0, .own, fun _ _ => 0⟩
def GEN_LOCK_VIOL_OFFSET : Fld := ⟨0x14, 0, 20, 0x0, 1, 0x0, 1, 0, .ro, fun _ _ => 0⟩
def GEN_LOCK_VIOL_SRC : Fld := ⟨0x14, 20, 2, 0x0, 1, 0x0, 1, 0, .ro, fun _ _ => 0⟩
def GEN_LOCK_VIOL_COUNT : Fld := ⟨0x14, 22, 8, 0x0, 1, 0x0, 1, 0, .counter, fun _ _ => 0⟩
def GEN_LOCK_VIOL_VALID : Fld := ⟨0x14, 31, 1, 0x0, 1, 0x0, 1, 0, .sticky, fun _ _ => 0⟩
def GEN_BOOT_STAT_STAGE : Fld := ⟨0x20, 0, 3, 0x0, 1, 0x0, 1, 0, .ro, fun _ _ => 0⟩
def GEN_BOOT_STAT_BACKUP : Fld := ⟨0x20, 3, 1, 0x0, 1, 0x0, 1, 0, .ro, fun _ _ => 0⟩
def GEN_BOOT_STAT_RESULT_PRI : Fld := ⟨0x20, 4, 8, 0x0, 1, 0x0, 1, 0, .ro, fun _ _ => 1⟩
def GEN_BOOT_STAT_RESULT_BAK : Fld := ⟨0x20, 12, 8, 0x0, 1, 0x0, 1, 0, .ro, fun _ _ => 1⟩
def GEN_BOOT_STAT_BANK : Fld := ⟨0x20, 20, 1, 0x0, 1, 0x0, 1, 0, .ro, fun _ _ => 0⟩
def GEN_BOOT_STAT_STAGED : Fld := ⟨0x20, 21, 1, 0x0, 1, 0x0, 1, 0, .ro, fun _ _ => 0⟩
def GEN_RESET_CAUSE_CAUSE : Fld := ⟨0x24, 0, 6, 0x0, 1, 0x0, 1, 0, .sticky, fun _ _ => 1⟩
def GEN_IMAGE_VERSION : Fld := ⟨0x28, 0, 32, 0x0, 1, 0x0, 1, 0, .ro, fun _ _ => 0⟩
def GEN_IMAGE_STAGED_VERSION : Fld := ⟨0x2C, 0, 32, 0x0, 1, 0x0, 1, 0, .ro, fun _ _ => 0⟩
def GEN_OTP_EPOCH : Fld := ⟨0x30, 0, 5, 0x0, 1, 0x0, 1, 0, .ro, fun _ _ => 0⟩
def GEN_OTP_KEYS : Fld := ⟨0x30, 5, 4, 0x0, 1, 0x0, 1, 0, .ro, fun _ _ => 0⟩
def GEN_OTP_REVOKED : Fld := ⟨0x30, 9, 4, 0x0, 1, 0x0, 1, 0, .ro, fun _ _ => 0⟩
def GEN_LB_ADDR_WORD : Fld := ⟨0x800, 0, 16, 0x0, 1, 0x0, 1, 0, .own, fun _ _ => 0⟩
def GEN_LB_DATA : Fld := ⟨0x804, 0, 64, 0x0, 1, 0x0, 1, 0, .ro, fun _ _ => 0⟩
def GEN_LB_STAT_PENDING : Fld := ⟨0x80C, 0, 16, 0x0, 1, 0x0, 1, 0, .ro, fun _ _ => 0⟩
def GEN_LB_STAT_SAT : Fld := ⟨0x80C, 16, 1, 0x0, 1, 0x0, 1, 0, .sticky, fun _ _ => 0⟩
def GEN_LB_CROSSINGS : Fld := ⟨0x810, 0, 48, 0x0, 1, 0x0, 1, 0, .ro, fun _ _ => 0⟩
def GEN_IO_STAT_BANK_GOOD : Fld := ⟨0x50, 0, 6, 0x0, 1, 0x0, 1, 0, .rl, fun _ _ => 0⟩
def GEN_IO_STAT_BANK_3V3 : Fld := ⟨0x50, 8, 6, 0x0, 1, 0x0, 1, 0, .ro, fun _ _ => 0⟩
def GEN_IO_STAT_CLKSEL : Fld := ⟨0x50, 16, 1, 0x0, 1, 0x0, 1, 0, .ro, fun _ _ => 0⟩
def GEN_POST_STAT_BUSY : Fld := ⟨0xFFC, 0, 1, 0x0, 1, 0x0, 1, 0, .ro, fun _ _ => 0⟩
def GEN_POST_STAT_DROP : Fld := ⟨0xFFC, 1, 1, 0x0, 1, 0x0, 1, 0, .sticky, fun _ _ => 0⟩
/-- Every field of the GEN block. -/
def block_GEN : List Fld :=
  [GEN_CLK_STAT_HB_SIXTEENTHS, GEN_CLK_STAT_REF_SRC, GEN_CLK_STAT_REF_LOST, GEN_CLK_STAT_DROOP, GEN_CLK_STAT_THROTTLE, GEN_CLK_STAT_CH_LOCK, GEN_CLK_STAT_HB_LOCK, GEN_QUAY_SLOTS_PENDING, 
   GEN_QUAY_STAT_DIRTY, GEN_QUAY_STAT_PENDING, GEN_QUAY_STAT_LAST_STATUS, GEN_QUAY_STAT_GENERATION, GEN_ID_VENDOR, GEN_ID_DEVICE, GEN_REV_STEP_NUM, GEN_REV_STEP_LETTER, 
   GEN_GANGWAY_CLOSED, GEN_LOCK_VIOL_OFFSET, GEN_LOCK_VIOL_SRC, GEN_LOCK_VIOL_COUNT, GEN_LOCK_VIOL_VALID, GEN_BOOT_STAT_STAGE, GEN_BOOT_STAT_BACKUP, GEN_BOOT_STAT_RESULT_PRI, 
   GEN_BOOT_STAT_RESULT_BAK, GEN_BOOT_STAT_BANK, GEN_BOOT_STAT_STAGED, GEN_RESET_CAUSE_CAUSE, GEN_IMAGE_VERSION, GEN_IMAGE_STAGED_VERSION, GEN_OTP_EPOCH, GEN_OTP_KEYS, 
   GEN_OTP_REVOKED, GEN_LB_ADDR_WORD, GEN_LB_DATA, GEN_LB_STAT_PENDING, GEN_LB_STAT_SAT, GEN_LB_CROSSINGS, GEN_IO_STAT_BANK_GOOD, GEN_IO_STAT_BANK_3V3] ++
  [GEN_IO_STAT_CLKSEL, GEN_POST_STAT_BUSY, GEN_POST_STAT_DROP]

/-! ### DIAG -/

def DIAG_ECC_CE_CE_COUNT : Fld := ⟨0xF0100, 0, 32, 0x10, 5, 0x0, 1, 0, .counter, fun _ _ => 0⟩
def DIAG_ECC_UE_UE_COUNT : Fld := ⟨0xF0104, 0, 16, 0x10, 5, 0x0, 1, 0, .counter, fun _ _ => 0⟩
def DIAG_ECC_ADDR_UE_WORD : Fld := ⟨0xF0108, 0, 32, 0x10, 5, 0x0, 1, 0, .ro, fun _ _ => 0⟩
def DIAG_ECC_SCRUB_SCRUB_INTERVAL : Fld := ⟨0xF010C, 0, 16, 0x10, 5, 0x0, 1, 0, .rw, fun _ _ => 2048⟩
def DIAG_ECC_SCRUB_SCRUB_EN : Fld := ⟨0xF010C, 31, 1, 0x10, 5, 0x0, 1, 0, .rw, fun _ _ => 1⟩
def DIAG_ECC_INJ_STORE : Fld := ⟨0xF0180, 0, 3, 0x0, 1, 0x0, 1, 0, .rw, fun _ _ => 0⟩
def DIAG_ECC_INJ_MODE : Fld := ⟨0xF0180, 3, 2, 0x0, 1, 0x0, 1, 0, .rw, fun _ _ => 0⟩
def DIAG_ECC_INJ_BIT : Fld := ⟨0xF0180, 8, 9, 0x0, 1, 0x0, 1, 0, .rw, fun _ _ => 0⟩
def DIAG_ECC_INJ_ARM : Fld := ⟨0xF0180, 31, 1, 0x0, 1, 0x0, 1, 0, .own, fun _ _ => 0⟩
/-- Every field of the DIAG block. -/
def block_DIAG : List Fld :=
  [DIAG_ECC_CE_CE_COUNT, DIAG_ECC_UE_UE_COUNT, DIAG_ECC_ADDR_UE_WORD, DIAG_ECC_SCRUB_SCRUB_INTERVAL, DIAG_ECC_SCRUB_SCRUB_EN, DIAG_ECC_INJ_STORE, DIAG_ECC_INJ_MODE, DIAG_ECC_INJ_BIT, 
   DIAG_ECC_INJ_ARM]

/-! ### RING -/

def SQ_BASE_LO_BASE_LO : Fld := ⟨0x4000, 6, 26, 0x40, 64, 0x0, 1, 0, .rw, fun _ _ => 0⟩
def SQ_BASE_HI_BASE_HI : Fld := ⟨0x4004, 0, 32, 0x40, 64, 0x0, 1, 0, .rw, fun _ _ => 0⟩
def SQ_CFG_LOG2SIZE : Fld := ⟨0x4008, 0, 5, 0x40, 64, 0x0, 1, 0, .rw, fun _ _ => 4⟩
def SQ_CFG_EQ : Fld := ⟨0x4008, 8, 4, 0x40, 64, 0x0, 1, 0, .rw, fun _ _ => 0⟩
def SQ_CFG_PRIO : Fld := ⟨0x4008, 12, 2, 0x40, 64, 0x0, 1, 0, .rw, fun _ _ => 0⟩
def SQ_CFG_SEQ_CHK : Fld := ⟨0x4008, 14, 1, 0x40, 64, 0x0, 1, 0, .rw, fun _ _ => 0⟩
def SQ_CTL_EN : Fld := ⟨0x400C, 0, 1, 0x40, 64, 0x0, 1, 0, .own, fun _ _ => 0⟩
def SQ_CTL_RESTART : Fld := ⟨0x400C, 1, 1, 0x40, 64, 0x0, 1, 0, .own, fun _ _ => 0⟩
def SQ_HEAD_HEAD : Fld := ⟨0x4010, 0, 16, 0x40, 64, 0x0, 1, 0, .ro, fun _ _ => 0⟩
def SQ_TAIL_TAIL : Fld := ⟨0x4014, 0, 16, 0x40, 64, 0x0, 1, 0, .ro, fun _ _ => 0⟩
def SQ_STAT_HALT : Fld := ⟨0x4018, 0, 1, 0x40, 64, 0x0, 1, 0, .ro, fun _ _ => 0⟩
def SQ_STAT_ACTIVE : Fld := ⟨0x4018, 1, 1, 0x40, 64, 0x0, 1, 0, .rl, fun _ _ => 0⟩
def SQ_STAT_HALT_CODE : Fld := ⟨0x4018, 8, 8, 0x40, 64, 0x0, 1, 0, .ro, fun _ _ => 0⟩
def SQ_STAT_HALT_SLOT : Fld := ⟨0x4018, 16, 16, 0x40, 64, 0x0, 1, 0, .ro, fun _ _ => 0⟩
def SQ_SEQ_SEQ_INIT : Fld := ⟨0x401C, 0, 16, 0x40, 64, 0x0, 1, 0, .rw, fun _ _ => 0⟩
def SQ_SEQ_SEQ_NEXT : Fld := ⟨0x401C, 16, 16, 0x40, 64, 0x0, 1, 0, .ro, fun _ _ => 0⟩
def EQ_BASE_LO_BASE_LO : Fld := ⟨0x5000, 6, 26, 0x40, 16, 0x0, 1, 0, .rw, fun _ _ => 0⟩
def EQ_BASE_HI_BASE_HI : Fld := ⟨0x5004, 0, 32, 0x40, 16, 0x0, 1, 0, .rw, fun _ _ => 0⟩
def EQ_CFG_LOG2SIZE : Fld := ⟨0x5008, 0, 5, 0x40, 16, 0x0, 1, 0, .rw, fun _ _ => 4⟩
def EQ_CFG_IMOD_COUNT : Fld := ⟨0x5008, 8, 8, 0x40, 16, 0x0, 1, 0, .rw, fun _ _ => 1⟩
def EQ_CFG_IMOD_TIME : Fld := ⟨0x5008, 16, 16, 0x40, 16, 0x0, 1, 0, .rw, fun _ _ => 0⟩
def EQ_CTL_EN : Fld := ⟨0x500C, 0, 1, 0x40, 16, 0x0, 1, 0, .own, fun _ _ => 0⟩
def EQ_HEAD_HEAD : Fld := ⟨0x5010, 0, 16, 0x40, 16, 0x0, 1, 0, .own, fun _ _ => 0⟩
def EQ_TAIL_TAIL : Fld := ⟨0x5014, 0, 16, 0x40, 16, 0x0, 1, 0, .ro, fun _ _ => 0⟩
def EQ_TAIL_PHASE : Fld := ⟨0x5014, 16, 1, 0x40, 16, 0x0, 1, 0, .ro, fun _ _ => 1⟩
def EQ_STAT_FULL : Fld := ⟨0x5018, 0, 1, 0x40, 16, 0x0, 1, 0, .rl, fun _ _ => 0⟩
def EQ_STAT_HEAD_ERR : Fld := ⟨0x5018, 1, 1, 0x40, 16, 0x0, 1, 0, .sticky, fun _ _ => 0⟩
def EQ_STAT_LOST : Fld := ⟨0x5018, 16, 16, 0x40, 16, 0x0, 1, 0, .counter, fun _ _ => 0⟩
def RING_EVT_ROUTE_FAULT : Fld := ⟨0x5A00, 0, 4, 0x0, 1, 0x0, 1, 0, .rw, fun _ _ => 0⟩
def RING_EVT_ROUTE_UNIT : Fld := ⟨0x5A00, 4, 4, 0x0, 1, 0x0, 1, 0, .rw, fun _ _ => 0⟩
def RING_EVT_ROUTE_LINK : Fld := ⟨0x5A00, 8, 4, 0x0, 1, 0x0, 1, 0, .rw, fun _ _ => 0⟩
def RING_EVT_ROUTE_FENLINK : Fld := ⟨0x5A00, 12, 4, 0x0, 1, 0x0, 1, 0, .rw, fun _ _ => 0⟩
def RING_EVT_ROUTE_POWER : Fld := ⟨0x5A00, 16, 4, 0x0, 1, 0x0, 1, 0, .rw, fun _ _ => 0⟩
def RING_HOLDOVER_COUNT : Fld := ⟨0x5900, 0, 9, 0x0, 1, 0x0, 1, 0, .ro, fun _ _ => 0⟩
def RING_HOLDOVER_LOST : Fld := ⟨0x5900, 16, 16, 0x0, 1, 0x0, 1, 0, .counter, fun _ _ => 0⟩
def CHART_BASE_LO_BASE_LO : Fld := ⟨0x5800, 12, 20, 0x0, 1, 0x0, 1, 0, .rw, fun _ _ => 0⟩
def CHART_BASE_HI_BASE_HI : Fld := ⟨0x5804, 0, 32, 0x0, 1, 0x0, 1, 0, .rw, fun _ _ => 0⟩
def CHART_CTL_EN : Fld := ⟨0x5808, 0, 1, 0x0, 1, 0x0, 1, 0, .own, fun _ _ => 0⟩
def CHART_CTL_ON_CHANGE : Fld := ⟨0x5808, 1, 1, 0x0, 1, 0x0, 1, 0, .rw, fun _ _ => 1⟩
def CHART_STAT_SEQ_LO : Fld := ⟨0x580C, 0, 32, 0x0, 1, 0x0, 1, 0, .ro, fun _ _ => 0⟩
/-- Every field of the RING block. -/
def block_RING : List Fld :=
  [SQ_BASE_LO_BASE_LO, SQ_BASE_HI_BASE_HI, SQ_CFG_LOG2SIZE, SQ_CFG_EQ, SQ_CFG_PRIO, SQ_CFG_SEQ_CHK, SQ_CTL_EN, SQ_CTL_RESTART, 
   SQ_HEAD_HEAD, SQ_TAIL_TAIL, SQ_STAT_HALT, SQ_STAT_ACTIVE, SQ_STAT_HALT_CODE, SQ_STAT_HALT_SLOT, SQ_SEQ_SEQ_INIT, SQ_SEQ_SEQ_NEXT, 
   EQ_BASE_LO_BASE_LO, EQ_BASE_HI_BASE_HI, EQ_CFG_LOG2SIZE, EQ_CFG_IMOD_COUNT, EQ_CFG_IMOD_TIME, EQ_CTL_EN, EQ_HEAD_HEAD, EQ_TAIL_TAIL, 
   EQ_TAIL_PHASE, EQ_STAT_FULL, EQ_STAT_HEAD_ERR, EQ_STAT_LOST, RING_EVT_ROUTE_FAULT, RING_EVT_ROUTE_UNIT, RING_EVT_ROUTE_LINK, RING_EVT_ROUTE_FENLINK, 
   RING_EVT_ROUTE_POWER, RING_HOLDOVER_COUNT, RING_HOLDOVER_LOST, CHART_BASE_LO_BASE_LO, CHART_BASE_HI_BASE_HI, CHART_CTL_EN, CHART_CTL_ON_CHANGE, CHART_STAT_SEQ_LO]

/-! ### HOSTIF -/

def HOSTIF_LINK_RATE : Fld := ⟨0x1000, 0, 3, 0x0, 1, 0x0, 1, 0, .ro, fun _ _ => 0⟩
def HOSTIF_LINK_WIDTH : Fld := ⟨0x1000, 4, 3, 0x0, 1, 0x0, 1, 0, .ro, fun _ _ => 0⟩
def HOSTIF_LINK_MPS : Fld := ⟨0x1000, 8, 2, 0x0, 1, 0x0, 1, 0, .ro, fun _ _ => 0⟩
def HOSTIF_LINK_L1_BLOCK : Fld := ⟨0x1000, 16, 1, 0x0, 1, 0x0, 1, 0, .rl, fun _ _ => 0⟩
def HOSTIF_BUDGET_CAP_CAP : Fld := ⟨0x1004, 0, 32, 0x0, 1, 0x0, 1, 0, .ro, fun _ _ => 0⟩
def HOSTIF_BUDGET_USED_USED : Fld := ⟨0x1008, 0, 32, 0x0, 1, 0x0, 1, 0, .ro, fun _ _ => 0⟩
def HOSTIF_VIOL_OFFSET : Fld := ⟨0x100C, 0, 20, 0x0, 1, 0x0, 1, 0, .ro, fun _ _ => 0⟩
def HOSTIF_VIOL_BAR : Fld := ⟨0x100C, 20, 2, 0x0, 1, 0x0, 1, 0, .ro, fun _ _ => 0⟩
def HOSTIF_VIOL_PF : Fld := ⟨0x100C, 22, 1, 0x0, 1, 0x0, 1, 0, .ro, fun _ _ => 0⟩
def HOSTIF_VIOL_WRITE : Fld := ⟨0x100C, 23, 1, 0x0, 1, 0x0, 1, 0, .ro, fun _ _ => 0⟩
def HOSTIF_VIOL_VALID : Fld := ⟨0x100C, 31, 1, 0x0, 1, 0x0, 1, 0, .sticky, fun _ _ => 0⟩
def HOSTIF_OWN_BLK_BLK : Fld := ⟨0x1100, 0, 27, 0x0, 1, 0x0, 1, 0, .prot, fun _ _ => 0⟩
def HOSTIF_OWN_SQ_LO_SQ_LO : Fld := ⟨0x1104, 0, 32, 0x0, 1, 0x0, 1, 0, .prot, fun _ _ => 0⟩
def HOSTIF_OWN_SQ_HI_SQ_HI : Fld := ⟨0x1108, 0, 32, 0x0, 1, 0x0, 1, 0, .prot, fun _ _ => 0⟩
def HOSTIF_OWN_EQ_EQ0 : Fld := ⟨0x110C, 0, 1, 0x0, 1, 0x0, 1, 0, .ro, fun _ _ => 0⟩
def HOSTIF_OWN_EQ_EQ : Fld := ⟨0x110C, 1, 15, 0x0, 1, 0x0, 1, 0, .prot, fun _ _ => 0⟩
/-- Every field of the HOSTIF block. -/
def block_HOSTIF : List Fld :=
  [HOSTIF_LINK_RATE, HOSTIF_LINK_WIDTH, HOSTIF_LINK_MPS, HOSTIF_LINK_L1_BLOCK, HOSTIF_BUDGET_CAP_CAP, HOSTIF_BUDGET_USED_USED, HOSTIF_VIOL_OFFSET, HOSTIF_VIOL_BAR, 
   HOSTIF_VIOL_PF, HOSTIF_VIOL_WRITE, HOSTIF_VIOL_VALID, HOSTIF_OWN_BLK_BLK, HOSTIF_OWN_SQ_LO_SQ_LO, HOSTIF_OWN_SQ_HI_SQ_HI, HOSTIF_OWN_EQ_EQ0, HOSTIF_OWN_EQ_EQ]

/-! ### AXIS -/

def AXIS_CFG_EN : Fld := ⟨0x18000, 0, 1, 0x40, 64, 0x0, 1, 0, .qs, fun i _ => if i = 39 then 1 else 0⟩
def AXIS_CFG_PORT : Fld := ⟨0x18000, 1, 5, 0x40, 64, 0x0, 1, 0, .qs, fun _ _ => 0⟩
def AXIS_CFG_INVERT : Fld := ⟨0x18000, 6, 1, 0x40, 64, 0x0, 1, 0, .qs, fun _ _ => 0⟩
def AXIS_CFG_HOLD_MAX : Fld := ⟨0x18000, 8, 16, 0x40, 64, 0x0, 1, 0, .qs, fun _ _ => 16⟩
def AXIS_GUARD_GUARD : Fld := ⟨0x18004, 0, 32, 0x40, 64, 0x0, 1, 0, .qs, fun _ _ => 10000⟩
def AXIS_SCALE_SCALE_PM : Fld := ⟨0x18008, 0, 32, 0x40, 64, 0x0, 1, 0, .rw, fun _ _ => 0⟩
def AXIS_LATE_LIMIT_LATE_LIMIT : Fld := ⟨0x1800C, 0, 32, 0x40, 64, 0x0, 1, 0, .qs, fun _ _ => 0⟩
def AXIS_POS : Fld := ⟨0x18010, 0, 40, 0x40, 64, 0x0, 1, 0, .ro, fun _ _ => 0⟩
def AXIS_SCHED : Fld := ⟨0x18018, 0, 40, 0x40, 64, 0x0, 1, 0, .ro, fun _ _ => 0⟩
def AXIS_STAT_HOLDING : Fld := ⟨0x18020, 0, 1, 0x40, 64, 0x0, 1, 0, .rl, fun _ _ => 0⟩
def AXIS_STAT_SRC_OK : Fld := ⟨0x18020, 1, 1, 0x40, 64, 0x0, 1, 0, .rl, fun _ _ => 0⟩
def AXIS_STAT_REWIND : Fld := ⟨0x18020, 16, 16, 0x40, 64, 0x0, 1, 0, .counter, fun _ _ => 0⟩
def AXIS_ENTRIES_COUNT : Fld := ⟨0x18024, 0, 14, 0x40, 64, 0x0, 1, 0, .ro, fun _ _ => 0⟩
def AXIS_HIST_SEL_AXIS : Fld := ⟨0x19000, 0, 6, 0x4, 4, 0x0, 4, 8, .rw, fun _ _ => 0⟩
def AXIS_HIST_SEL_EN : Fld := ⟨0x19000, 7, 1, 0x4, 4, 0x0, 4, 8, .rw, fun _ _ => 0⟩
/-- Every field of the AXIS block. -/
def block_AXIS : List Fld :=
  [AXIS_CFG_EN, AXIS_CFG_PORT, AXIS_CFG_INVERT, AXIS_CFG_HOLD_MAX, AXIS_GUARD_GUARD, AXIS_SCALE_SCALE_PM, AXIS_LATE_LIMIT_LATE_LIMIT, AXIS_POS, 
   AXIS_SCHED, AXIS_STAT_HOLDING, AXIS_STAT_SRC_OK, AXIS_STAT_REWIND, AXIS_ENTRIES_COUNT, AXIS_HIST_SEL_AXIS, AXIS_HIST_SEL_EN]

/-! ### TIDE -/

def TIDE_CFG_ERR_EQ : Fld := ⟨0x10000, 0, 4, 0x0, 1, 0x0, 1, 0, .qs, fun _ _ => 0⟩
def TIDE_STAT_OCCUPIED : Fld := ⟨0x10004, 0, 14, 0x0, 1, 0x0, 1, 0, .ro, fun _ _ => 0⟩
def TIDE_WAIT_MAX_WAIT_NS : Fld := ⟨0x10008, 0, 16, 0x0, 1, 0x0, 1, 0, .counter, fun _ _ => 0⟩
def TIDE_LATE_COUNT : Fld := ⟨0x1000C, 0, 32, 0x0, 1, 0x0, 1, 0, .counter, fun _ _ => 0⟩
def TIDE_MISSED_COUNT : Fld := ⟨0x10010, 0, 32, 0x0, 1, 0x0, 1, 0, .counter, fun _ _ => 0⟩
def TIDE_CAP_POS : Fld := ⟨0x10100, 0, 40, 0x10, 32, 0x0, 1, 0, .ro, fun _ _ => 0⟩
def TIDE_CAP_AXIS : Fld := ⟨0x10104, 8, 6, 0x10, 32, 0x0, 1, 0, .ro, fun _ _ => 0⟩
def TIDE_CAP_VALID : Fld := ⟨0x10104, 31, 1, 0x10, 32, 0x0, 1, 0, .sticky, fun _ _ => 0⟩
def TIDE_CAP_TIME : Fld := ⟨0x10108, 0, 40, 0x10, 32, 0x0, 1, 0, .ro, fun _ _ => 0⟩
def TIDE_OCC_OCC : Fld := ⟨0x10400, 0, 32, 0x4, 256, 0x0, 1, 0, .ro, fun _ _ => 0⟩
/-- Every field of the TIDE block. -/
def block_TIDE : List Fld :=
  [TIDE_CFG_ERR_EQ, TIDE_STAT_OCCUPIED, TIDE_WAIT_MAX_WAIT_NS, TIDE_LATE_COUNT, TIDE_MISSED_COUNT, TIDE_CAP_POS, TIDE_CAP_AXIS, TIDE_CAP_VALID, 
   TIDE_CAP_TIME, TIDE_OCC_OCC]

/-! ### STN -/

def STN_SCAN_CFG_LPI : Fld := ⟨0x20000, 0, 2, 0x4000, 6, 0x0, 1, 0, .qs, fun _ _ => 0⟩
def STN_SCAN_CFG_FACETS : Fld := ⟨0x20000, 2, 4, 0x4000, 6, 0x0, 1, 0, .qs, fun _ _ => 8⟩
def STN_SCAN_CFG_ROWS : Fld := ⟨0x20000, 6, 6, 0x4000, 6, 0x0, 1, 0, .qs, fun _ _ => 32⟩
def STN_SCAN_CFG_PITCH : Fld := ⟨0x20000, 12, 3, 0x4000, 6, 0x0, 1, 0, .qs, fun _ _ => 1⟩
def STN_POLY_POLY_DRV : Fld := ⟨0x20004, 0, 4, 0x4000, 6, 0x0, 1, 0, .qs, fun _ _ => 0⟩
def STN_POLY_PAIR_SHARE : Fld := ⟨0x20004, 4, 1, 0x4000, 6, 0x0, 1, 0, .qs, fun _ _ => 0⟩
def STN_POLY_DIR : Fld := ⟨0x20004, 5, 1, 0x4000, 6, 0x0, 1, 0, .qs, fun _ _ => 0⟩
def STN_POLY_MIRROR : Fld := ⟨0x20004, 6, 1, 0x4000, 6, 0x0, 1, 0, .qs, fun _ _ => 0⟩
def STN_POLY_DRUM_AXIS : Fld := ⟨0x20004, 7, 6, 0x4000, 6, 0x0, 1, 0, .qs, fun _ _ => 0⟩
def STN_LINE_RATIO_LO_RATIO_LO : Fld := ⟨0x20008, 0, 32, 0x4000, 6, 0x0, 1, 0, .qs, fun _ _ => 0⟩
def STN_LINE_RATIO_HI_RATIO_HI : Fld := ⟨0x2000C, 0, 4, 0x4000, 6, 0x0, 1, 0, .qs, fun _ _ => 0⟩
def STN_LEAD_LINE_LEAD : Fld := ⟨0x20010, 0, 12, 0x4000, 6, 0x0, 1, 0, .qs, fun _ _ => 64⟩
def STN_NOM_SPEED_NOM_SPEED : Fld := ⟨0x20014, 0, 32, 0x4000, 6, 0x0, 1, 0, .qs, fun _ _ => 1000000⟩
def STN_SOS_DELAY_SOS_DELAY : Fld := ⟨0x20018, 0, 20, 0x4000, 6, 0x0, 1, 0, .qs, fun _ _ => 0⟩
def STN_DET_WIN : Fld := ⟨0x2001C, 0, 8, 0x4000, 6, 0x0, 1, 0, .qs, fun _ _ => 16⟩
def STN_DET_FLY_MAX : Fld := ⟨0x2001C, 8, 4, 0x4000, 6, 0x0, 1, 0, .qs, fun _ _ => 2⟩
def STN_DET_MIN_PULSE : Fld := ⟨0x2001C, 12, 4, 0x4000, 6, 0x0, 1, 0, .qs, fun _ _ => 2⟩
def STN_DET_FACET_TOL : Fld := ⟨0x2001C, 16, 8, 0x4000, 6, 0x0, 1, 0, .qs, fun _ _ => 4⟩
def STN_DET_LEARN : Fld := ⟨0x2001C, 24, 3, 0x4000, 6, 0x0, 1, 0, .qs, fun _ _ => 2⟩
def STN_PHASE_PHASE_OFS : Fld := ⟨0x20020, 0, 16, 0x4000, 6, 0x0, 1, 0, .qs, fun _ _ => 0⟩
def STN_PHASE_READY_TOL : Fld := ⟨0x20020, 16, 8, 0x4000, 6, 0x0, 1, 0, .qs, fun _ _ => 8⟩
def STN_PHASE_KP_SHIFT : Fld := ⟨0x20020, 24, 4, 0x4000, 6, 0x0, 1, 0, .qs, fun _ _ => 4⟩
def STN_PHASE_KI_SHIFT : Fld := ⟨0x20020, 28, 4, 0x4000, 6, 0x0, 1, 0, .qs, fun _ _ => 10⟩
def STN_REG_CFG_REG_EN : Fld := ⟨0x20024, 0, 1, 0x4000, 6, 0x0, 1, 0, .rw, fun _ _ => 0⟩
def STN_REG_CFG_GAIN : Fld := ⟨0x20024, 1, 5, 0x4000, 6, 0x0, 1, 0, .rw, fun _ _ => 4⟩
def STN_REG_CFG_SLEW : Fld := ⟨0x20024, 8, 8, 0x4000, 6, 0x0, 1, 0, .rw, fun _ _ => 1⟩
def STN_REG_CFG_REG_LIMIT : Fld := ⟨0x20024, 16, 15, 0x4000, 6, 0x0, 1, 0, .rw, fun _ _ => 512⟩
def STN_REG_SCALE_SCALE : Fld := ⟨0x20028, 0, 24, 0x4000, 6, 0x0, 1, 0, .rw, fun _ _ => 0⟩
def STN_REG_TRIM_TRIM_LOOP : Fld := ⟨0x2002C, 0, 7, 0x4000, 6, 0x0, 1, 0, .qs, fun _ _ => 0⟩
def STN_REG_TRIM_TRIM_EN : Fld := ⟨0x2002C, 7, 1, 0x4000, 6, 0x0, 1, 0, .qs, fun _ _ => 0⟩
def STN_REG_OFS_R : Fld := ⟨0x20030, 0, 16, 0x4000, 6, 0x0, 1, 0, .rw, fun _ _ => 0⟩
def STN_REG_STAT_APPLIED : Fld := ⟨0x20034, 0, 16, 0x4000, 6, 0x0, 1, 0, .ro, fun _ _ => 0⟩
def STN_REG_STAT_LAST_ERR : Fld := ⟨0x20034, 16, 16, 0x4000, 6, 0x0, 1, 0, .ro, fun _ _ => 0⟩
def STN_MARK_CNT_OK : Fld := ⟨0x20038, 0, 16, 0x4000, 6, 0x0, 1, 0, .counter, fun _ _ => 0⟩
def STN_MARK_CNT_FAIL : Fld := ⟨0x20038, 16, 16, 0x4000, 6, 0x0, 1, 0, .counter, fun _ _ => 0⟩
def STN_SCAN_STAT_FACET_LOCK : Fld := ⟨0x2003C, 0, 1, 0x4000, 6, 0x0, 1, 0, .rl, fun _ _ => 0⟩
def STN_SCAN_STAT_PHASE_OK : Fld := ⟨0x2003C, 1, 1, 0x4000, 6, 0x0, 1, 0, .rl, fun _ _ => 0⟩
def STN_SCAN_STAT_READY : Fld := ⟨0x2003C, 2, 1, 0x4000, 6, 0x0, 1, 0, .rl, fun _ _ => 0⟩
def STN_SCAN_STAT_LEARNING : Fld := ⟨0x2003C, 3, 1, 0x4000, 6, 0x0, 1, 0, .rl, fun _ _ => 0⟩
def STN_SCAN_STAT_FACET_AMBIG : Fld := ⟨0x2003C, 4, 1, 0x4000, 6, 0x0, 1, 0, .ro, fun _ _ => 0⟩
def STN_SCAN_STAT_FACET : Fld := ⟨0x2003C, 8, 4, 0x4000, 6, 0x0, 1, 0, .ro, fun _ _ => 0⟩
def STN_OVS_CNT_DROPS : Fld := ⟨0x20040, 0, 16, 0x4000, 6, 0x0, 1, 0, .counter, fun _ _ => 0⟩
def STN_OVS_CNT_SKIPS : Fld := ⟨0x20040, 16, 16, 0x4000, 6, 0x0, 1, 0, .counter, fun _ _ => 0⟩
def STN_DET_CNT_FLOWN : Fld := ⟨0x20044, 0, 16, 0x4000, 6, 0x0, 1, 0, .counter, fun _ _ => 0⟩
def STN_DET_CNT_FACET_LOSS : Fld := ⟨0x20044, 16, 16, 0x4000, 6, 0x0, 1, 0, .counter, fun _ _ => 0⟩
def STN_LAG_LAG : Fld := ⟨0x20048, 0, 16, 0x4000, 6, 0x0, 1, 0, .ro, fun _ _ => 0⟩
def STN_LAG_LAG_MAX : Fld := ⟨0x20048, 16, 16, 0x4000, 6, 0x0, 1, 0, .rw, fun _ _ => 0⟩
def STN_FACET_DUR_DUR : Fld := ⟨0x20050, 0, 24, 0x4000, 6, 0x4, 12, 0, .ro, fun _ _ => 0⟩
def STN_ROW_MAP_EMITTER : Fld := ⟨0x20100, 0, 6, 0x4000, 6, 0x4, 32, 0, .qs, fun _ j => j⟩
def STN_HOLD_CFG_HOLD_BASE : Fld := ⟨0x20200, 0, 10, 0x4000, 6, 0x0, 1, 0, .qs, fun i _ => 128 * i⟩
def STN_HOLD_CFG_HOLD_SIZE : Fld := ⟨0x20200, 10, 10, 0x4000, 6, 0x0, 1, 0, .qs, fun _ _ => 128⟩
def STN_HOLD_STAT_FILL : Fld := ⟨0x20204, 0, 16, 0x4000, 6, 0x0, 1, 0, .ro, fun _ _ => 0⟩
def STN_HOLD_STAT_FILL_MIN : Fld := ⟨0x20204, 16, 16, 0x4000, 6, 0x0, 1, 0, .rw, fun _ _ => 65535⟩
def STN_HOLD_FREE_FREE : Fld := ⟨0x20208, 0, 22, 0x4000, 6, 0x0, 1, 0, .ro, fun _ _ => 0⟩
def STN_HOLD_ECC_LINES_HIT : Fld := ⟨0x2020C, 0, 16, 0x4000, 6, 0x0, 1, 0, .counter, fun _ _ => 0⟩
def STN_STAGGER_STEP : Fld := ⟨0x20210, 0, 1, 0x4000, 6, 0x0, 1, 0, .qs, fun _ _ => 1⟩
def STN_DOT_STAT_SET_BAD : Fld := ⟨0x20214, 0, 4, 0x4000, 6, 0x0, 1, 0, .ro, fun _ _ => 0⟩
def STN_BEAM_OFS_TICKS : Fld := ⟨0x20300, 0, 6, 0x4000, 6, 0x4, 40, 0, .qs, fun _ _ => 0⟩
def STN_BEAM_OFS_PIXELS : Fld := ⟨0x20300, 6, 12, 0x4000, 6, 0x4, 40, 0, .qs, fun _ _ => 0⟩
def STN_DOT_MAP_MAP_LO : Fld := ⟨0x20400, 0, 32, 0x4000, 6, 0x8, 4, 0, .ro, fun _ _ => 0⟩
def STN_DOT_MAP_MAP_HI : Fld := ⟨0x20404, 0, 32, 0x4000, 6, 0x8, 4, 0, .ro, fun _ _ => 0⟩
def STN_WAVE_SUB01 : Fld := ⟨0x20800, 0, 32, 0x4000, 6, 0x8, 64, 0, .ro, fun _ _ => 0⟩
def STN_WAVE_SUB23 : Fld := ⟨0x20804, 0, 32, 0x4000, 6, 0x8, 64, 0, .ro, fun _ _ => 0⟩
/-- Every field of the STN block. -/
def block_STN : List Fld :=
  [STN_SCAN_CFG_LPI, STN_SCAN_CFG_FACETS, STN_SCAN_CFG_ROWS, STN_SCAN_CFG_PITCH, STN_POLY_POLY_DRV, STN_POLY_PAIR_SHARE, STN_POLY_DIR, STN_POLY_MIRROR, 
   STN_POLY_DRUM_AXIS, STN_LINE_RATIO_LO_RATIO_LO, STN_LINE_RATIO_HI_RATIO_HI, STN_LEAD_LINE_LEAD, STN_NOM_SPEED_NOM_SPEED, STN_SOS_DELAY_SOS_DELAY, STN_DET_WIN, STN_DET_FLY_MAX, 
   STN_DET_MIN_PULSE, STN_DET_FACET_TOL, STN_DET_LEARN, STN_PHASE_PHASE_OFS, STN_PHASE_READY_TOL, STN_PHASE_KP_SHIFT, STN_PHASE_KI_SHIFT, STN_REG_CFG_REG_EN, 
   STN_REG_CFG_GAIN, STN_REG_CFG_SLEW, STN_REG_CFG_REG_LIMIT, STN_REG_SCALE_SCALE, STN_REG_TRIM_TRIM_LOOP, STN_REG_TRIM_TRIM_EN, STN_REG_OFS_R, STN_REG_STAT_APPLIED, 
   STN_REG_STAT_LAST_ERR, STN_MARK_CNT_OK, STN_MARK_CNT_FAIL, STN_SCAN_STAT_FACET_LOCK, STN_SCAN_STAT_PHASE_OK, STN_SCAN_STAT_READY, STN_SCAN_STAT_LEARNING, STN_SCAN_STAT_FACET_AMBIG] ++
  [STN_SCAN_STAT_FACET, STN_OVS_CNT_DROPS, STN_OVS_CNT_SKIPS, STN_DET_CNT_FLOWN, STN_DET_CNT_FACET_LOSS, STN_LAG_LAG, STN_LAG_LAG_MAX, STN_FACET_DUR_DUR, 
   STN_ROW_MAP_EMITTER, STN_HOLD_CFG_HOLD_BASE, STN_HOLD_CFG_HOLD_SIZE, STN_HOLD_STAT_FILL, STN_HOLD_STAT_FILL_MIN, STN_HOLD_FREE_FREE, STN_HOLD_ECC_LINES_HIT, STN_STAGGER_STEP, 
   STN_DOT_STAT_SET_BAD, STN_BEAM_OFS_TICKS, STN_BEAM_OFS_PIXELS, STN_DOT_MAP_MAP_LO, STN_DOT_MAP_MAP_HI, STN_WAVE_SUB01, STN_WAVE_SUB23]

/-! ### IO -/

def MARK_SRC_SRC : Fld := ⟨0xA0400, 0, 1, 0x4, 16, 0x0, 1, 0, .rw, fun _ _ => 0⟩
def MARK_SRC_PORT : Fld := ⟨0xA0400, 1, 2, 0x4, 16, 0x0, 1, 0, .rw, fun _ _ => 0⟩
def MARK_SRC_NODE : Fld := ⟨0xA0400, 3, 8, 0x4, 16, 0x0, 1, 0, .rw, fun _ _ => 0⟩
def MARK_SRC_POINT : Fld := ⟨0xA0400, 11, 3, 0x4, 16, 0x0, 1, 0, .rw, fun _ _ => 0⟩
def MARK_SRC_FILTER : Fld := ⟨0xA0400, 16, 8, 0x4, 16, 0x0, 1, 0, .rw, fun _ _ => 2⟩
def MARK_SRC_EN : Fld := ⟨0xA0400, 31, 1, 0x4, 16, 0x0, 1, 0, .rw, fun _ _ => 0⟩
def IO_GPIO_CFG_OUT : Fld := ⟨0xA0000, 0, 1, 0x4, 64, 0x0, 1, 0, .qs, fun _ _ => 0⟩
def IO_GPIO_CFG_OD : Fld := ⟨0xA0000, 1, 1, 0x4, 64, 0x0, 1, 0, .qs, fun _ _ => 0⟩
def IO_GPIO_CFG_FILT : Fld := ⟨0xA0000, 2, 8, 0x4, 64, 0x0, 1, 0, .qs, fun _ _ => 2⟩
def IO_PTMAP_PORT : Fld := ⟨0xA0100, 0, 2, 0x4, 64, 0x0, 1, 0, .qs, fun _ _ => 0⟩
def IO_PTMAP_NODE : Fld := ⟨0xA0100, 2, 8, 0x4, 64, 0x0, 1, 0, .qs, fun _ _ => 0⟩
def IO_PTMAP_POINT : Fld := ⟨0xA0100, 10, 3, 0x4, 64, 0x0, 1, 0, .qs, fun _ _ => 0⟩
def IO_PTMAP_EN : Fld := ⟨0xA0100, 31, 1, 0x4, 64, 0x0, 1, 0, .qs, fun _ _ => 0⟩
def IO_SHEET_INPUT : Fld := ⟨0xA0200, 0, 7, 0x4, 32, 0x0, 1, 0, .qs, fun _ _ => 0⟩
def IO_SHEET_COVER_LVL : Fld := ⟨0xA0200, 7, 1, 0x4, 32, 0x0, 1, 0, .qs, fun _ _ => 0⟩
def IO_SHEET_DEBOUNCE : Fld := ⟨0xA0200, 8, 8, 0x4, 32, 0x0, 1, 0, .qs, fun _ _ => 50⟩
def IO_SHEET_EN : Fld := ⟨0xA0200, 31, 1, 0x4, 32, 0x0, 1, 0, .qs, fun _ _ => 0⟩
def IO_INTLK_ROUTE_STN : Fld := ⟨0xA0300, 0, 6, 0x4, 8, 0x0, 1, 0, .prot, fun _ _ => 0⟩
def IO_INTLK_ROUTE_HTR : Fld := ⟨0xA0300, 6, 4, 0x4, 8, 0x0, 1, 0, .prot, fun _ _ => 0⟩
def IO_INTLK_ROUTE_HV_ALL : Fld := ⟨0xA0300, 10, 1, 0x4, 8, 0x0, 1, 0, .prot, fun _ _ => 0⟩
def IO_INTLK_ROUTE_DRV_ALL : Fld := ⟨0xA0300, 11, 1, 0x4, 8, 0x0, 1, 0, .prot, fun _ _ => 0⟩
def IO_INTLK_ROUTE_STP_ALL : Fld := ⟨0xA0300, 12, 1, 0x4, 8, 0x0, 1, 0, .prot, fun _ _ => 0⟩
def IO_INTLK_ROUTE_CLOSED_LVL : Fld := ⟨0xA0300, 13, 1, 0x4, 8, 0x0, 1, 0, .prot, fun _ _ => 1⟩
def IO_INTLK_STAT_OPEN : Fld := ⟨0xA0320, 0, 8, 0x0, 1, 0x0, 1, 0, .rl, fun _ _ => 255⟩
def IO_INTLK_STAT_LEVEL : Fld := ⟨0xA0320, 8, 8, 0x0, 1, 0x0, 1, 0, .rl, fun _ _ => 0⟩
/-- Every field of the IO block. -/
def block_IO : List Fld :=
  [MARK_SRC_SRC, MARK_SRC_PORT, MARK_SRC_NODE, MARK_SRC_POINT, MARK_SRC_FILTER, MARK_SRC_EN, IO_GPIO_CFG_OUT, IO_GPIO_CFG_OD, 
   IO_GPIO_CFG_FILT, IO_PTMAP_PORT, IO_PTMAP_NODE, IO_PTMAP_POINT, IO_PTMAP_EN, IO_SHEET_INPUT, IO_SHEET_COVER_LVL, IO_SHEET_DEBOUNCE, 
   IO_SHEET_EN, IO_INTLK_ROUTE_STN, IO_INTLK_ROUTE_HTR, IO_INTLK_ROUTE_HV_ALL, IO_INTLK_ROUTE_DRV_ALL, IO_INTLK_ROUTE_STP_ALL, IO_INTLK_ROUTE_CLOSED_LVL, IO_INTLK_STAT_OPEN, 
   IO_INTLK_STAT_LEVEL]

/-! ### SCANPLL -/

def SPLL_CFG_N_NOM : Fld := ⟨0x38000, 0, 9, 0x800, 6, 0x0, 1, 0, .qs, fun _ _ => 181⟩
def SPLL_CFG_POST : Fld := ⟨0x38000, 9, 2, 0x800, 6, 0x0, 1, 0, .qs, fun _ _ => 1⟩
def SPLL_CFG_N_SPAN : Fld := ⟨0x38000, 11, 3, 0x800, 6, 0x0, 1, 0, .qs, fun _ _ => 5⟩
def SPLL_CFG_BAND_SLOT : Fld := ⟨0x38000, 14, 3, 0x800, 6, 0x0, 1, 0, .qs, fun _ _ => 0⟩
def SPLL_CFG_AUTO_STORE : Fld := ⟨0x38000, 17, 1, 0x800, 6, 0x0, 1, 0, .qs, fun _ _ => 1⟩
def SPLL_CFG_EN : Fld := ⟨0x38000, 18, 1, 0x800, 6, 0x0, 1, 0, .qs, fun _ _ => 0⟩
def SPLL_FILT_ICP : Fld := ⟨0x38004, 0, 4, 0x800, 6, 0x0, 1, 0, .qs, fun _ _ => 3⟩
def SPLL_FILT_RSEL : Fld := ⟨0x38004, 4, 4, 0x800, 6, 0x0, 1, 0, .qs, fun _ _ => 3⟩
def SPLL_FILT_C1SEL : Fld := ⟨0x38004, 8, 4, 0x800, 6, 0x0, 1, 0, .qs, fun _ _ => 15⟩
def SPLL_FILT_C2SEL : Fld := ⟨0x38004, 12, 4, 0x800, 6, 0x0, 1, 0, .qs, fun _ _ => 15⟩
def SPLL_FILT_EXT_FILT : Fld := ⟨0x38004, 16, 1, 0x800, 6, 0x0, 1, 0, .qs, fun _ _ => 0⟩
def SPLL_LOCK_CFG_LOCK_TOL : Fld := ⟨0x38008, 0, 8, 0x800, 6, 0x0, 1, 0, .qs, fun _ _ => 1⟩
def SPLL_LOCK_CFG_LOCK_K : Fld := ⟨0x38008, 8, 4, 0x800, 6, 0x0, 1, 0, .qs, fun _ _ => 4⟩
def SPLL_LOCK_CFG_UNLOCK_K : Fld := ⟨0x38008, 12, 4, 0x800, 6, 0x0, 1, 0, .qs, fun _ _ => 2⟩
def SPLL_LOCK_CFG_LOCK_TIMEOUT : Fld := ⟨0x38008, 16, 16, 0x800, 6, 0x0, 1, 0, .qs, fun _ _ => 20⟩
def SPLL_BASE_INC_BASE_INC : Fld := ⟨0x3800C, 0, 32, 0x800, 6, 0x0, 1, 0, .qs, fun _ _ => 1073741824⟩
def SPLL_TARGET_TARGET_DUR : Fld := ⟨0x38010, 0, 24, 0x800, 6, 0x0, 1, 0, .qs, fun _ _ => 0⟩
def SPLL_GAIN_CM_K : Fld := ⟨0x38014, 0, 16, 0x800, 6, 0x0, 1, 0, .qs, fun _ _ => 0⟩
def SPLL_GAIN_FC_K : Fld := ⟨0x38014, 16, 16, 0x800, 6, 0x0, 1, 0, .qs, fun _ _ => 0⟩
def SPLL_SD_SEED : Fld := ⟨0x38018, 0, 23, 0x800, 6, 0x0, 1, 0, .qs, fun _ _ => 1⟩
def SPLL_SD_SD_ORDER : Fld := ⟨0x38018, 23, 2, 0x800, 6, 0x0, 1, 0, .qs, fun _ _ => 2⟩
def SPLL_SD_DITHER : Fld := ⟨0x38018, 25, 2, 0x800, 6, 0x0, 1, 0, .qs, fun _ _ => 1⟩
def SPLL_SD_RAMP_BANK : Fld := ⟨0x38018, 27, 1, 0x800, 6, 0x0, 1, 0, .qs, fun _ _ => 0⟩
def SPLL_STAT_LOCKED : Fld := ⟨0x38020, 0, 1, 0x800, 6, 0x0, 1, 0, .rl, fun _ _ => 0⟩
def SPLL_STAT_SEARCHING : Fld := ⟨0x38020, 1, 1, 0x800, 6, 0x0, 1, 0, .rl, fun _ _ => 0⟩
def SPLL_STAT_HOPPING : Fld := ⟨0x38020, 2, 1, 0x800, 6, 0x0, 1, 0, .rl, fun _ _ => 0⟩
def SPLL_STAT_PARKED : Fld := ⟨0x38020, 3, 1, 0x800, 6, 0x0, 1, 0, .rl, fun _ _ => 0⟩
def SPLL_STAT_VT_WARN : Fld := ⟨0x38020, 4, 1, 0x800, 6, 0x0, 1, 0, .rl, fun _ _ => 0⟩
def SPLL_STAT_NO_LOCK : Fld := ⟨0x38020, 5, 1, 0x800, 6, 0x0, 1, 0, .sticky, fun _ _ => 0⟩
def SPLL_STAT_RANGE_SAT : Fld := ⟨0x38020, 6, 1, 0x800, 6, 0x0, 1, 0, .sticky, fun _ _ => 0⟩
def SPLL_STAT_NO_BAND : Fld := ⟨0x38020, 7, 1, 0x800, 6, 0x0, 1, 0, .sticky, fun _ _ => 0⟩
def SPLL_STAT_BAND : Fld := ⟨0x38020, 8, 6, 0x800, 6, 0x0, 1, 0, .ro, fun _ _ => 0⟩
def SPLL_STAT_N : Fld := ⟨0x38020, 14, 9, 0x800, 6, 0x0, 1, 0, .ro, fun _ _ => 0⟩
def SPLL_STAT_RAMP0_VALID : Fld := ⟨0x38020, 23, 1, 0x800, 6, 0x0, 1, 0, .ro, fun _ _ => 0⟩
def SPLL_STAT_RAMP1_VALID : Fld := ⟨0x38020, 24, 1, 0x800, 6, 0x0, 1, 0, .ro, fun _ _ => 0⟩
def SPLL_CM_CM : Fld := ⟨0x38024, 0, 32, 0x800, 6, 0x0, 1, 0, .ro, fun _ _ => 0⟩
def SPLL_CNT_N_STEPS : Fld := ⟨0x38028, 0, 16, 0x800, 6, 0x0, 1, 0, .counter, fun _ _ => 0⟩
def SPLL_CNT_UNLOCKS : Fld := ⟨0x38028, 16, 16, 0x800, 6, 0x0, 1, 0, .counter, fun _ _ => 0⟩
def SPLL_LAST_D_D : Fld := ⟨0x3802C, 0, 24, 0x800, 6, 0x0, 1, 0, .ro, fun _ _ => 0⟩
def SPLL_RAMP_MIN_RAMP_MIN : Fld := ⟨0x38030, 0, 32, 0x800, 6, 0x8, 2, 0, .ro, fun _ _ => 0⟩
def SPLL_RAMP_MAX_RAMP_MAX : Fld := ⟨0x38034, 0, 32, 0x800, 6, 0x8, 2, 0, .ro, fun _ _ => 0⟩
def SPLL_FC_FC : Fld := ⟨0x38040, 0, 32, 0x800, 6, 0x4, 12, 0, .ro, fun _ _ => 0⟩
def SPLL_BANDMEM_BAND : Fld := ⟨0x38080, 0, 6, 0x800, 6, 0x4, 8, 0, .rw, fun _ _ => 0⟩
def SPLL_BANDMEM_VALID : Fld := ⟨0x38080, 6, 1, 0x800, 6, 0x4, 8, 0, .rw, fun _ _ => 0⟩
def SPLL_BANDMEM_N : Fld := ⟨0x38080, 8, 9, 0x800, 6, 0x4, 8, 0, .rw, fun _ _ => 0⟩
def SPLL_BANDMEM_POST : Fld := ⟨0x38080, 17, 2, 0x800, 6, 0x4, 8, 0, .rw, fun _ _ => 0⟩
def SPLL_BANDMEM_TJ : Fld := ⟨0x38080, 24, 8, 0x800, 6, 0x4, 8, 0, .ro, fun _ _ => 0⟩
/-- Every field of the SCANPLL block. -/
def block_SCANPLL : List Fld :=
  [SPLL_CFG_N_NOM, SPLL_CFG_POST, SPLL_CFG_N_SPAN, SPLL_CFG_BAND_SLOT, SPLL_CFG_AUTO_STORE, SPLL_CFG_EN, SPLL_FILT_ICP, SPLL_FILT_RSEL, 
   SPLL_FILT_C1SEL, SPLL_FILT_C2SEL, SPLL_FILT_EXT_FILT, SPLL_LOCK_CFG_LOCK_TOL, SPLL_LOCK_CFG_LOCK_K, SPLL_LOCK_CFG_UNLOCK_K, SPLL_LOCK_CFG_LOCK_TIMEOUT, SPLL_BASE_INC_BASE_INC, 
   SPLL_TARGET_TARGET_DUR, SPLL_GAIN_CM_K, SPLL_GAIN_FC_K, SPLL_SD_SEED, SPLL_SD_SD_ORDER, SPLL_SD_DITHER, SPLL_SD_RAMP_BANK, SPLL_STAT_LOCKED, 
   SPLL_STAT_SEARCHING, SPLL_STAT_HOPPING, SPLL_STAT_PARKED, SPLL_STAT_VT_WARN, SPLL_STAT_NO_LOCK, SPLL_STAT_RANGE_SAT, SPLL_STAT_NO_BAND, SPLL_STAT_BAND, 
   SPLL_STAT_N, SPLL_STAT_RAMP0_VALID, SPLL_STAT_RAMP1_VALID, SPLL_CM_CM, SPLL_CNT_N_STEPS, SPLL_CNT_UNLOCKS, SPLL_LAST_D_D, SPLL_RAMP_MIN_RAMP_MIN] ++
  [SPLL_RAMP_MAX_RAMP_MAX, SPLL_FC_FC, SPLL_BANDMEM_BAND, SPLL_BANDMEM_VALID, SPLL_BANDMEM_N, SPLL_BANDMEM_POST, SPLL_BANDMEM_TJ]

/-! ### BEAMLINK -/

def BL_CFG_PORT : Fld := ⟨0x40000, 0, 2, 0x1000, 6, 0x0, 1, 0, .qs, fun _ _ => 0⟩
def BL_CFG_LANES : Fld := ⟨0x40000, 2, 2, 0x1000, 6, 0x0, 1, 0, .qs, fun _ _ => 2⟩
def BL_CFG_RATE : Fld := ⟨0x40000, 4, 2, 0x1000, 6, 0x0, 1, 0, .qs, fun _ _ => 3⟩
def BL_CFG_DBEAMS : Fld := ⟨0x40000, 6, 2, 0x1000, 6, 0x0, 1, 0, .qs, fun _ _ => 0⟩
def BL_CFG_WEAR_PERIOD : Fld := ⟨0x40000, 8, 8, 0x1000, 6, 0x0, 1, 0, .qs, fun _ _ => 10⟩
def BL_HEAD_EXP_LO_UNIT_ID_LO : Fld := ⟨0x40004, 0, 32, 0x1000, 6, 0x0, 1, 0, .qs, fun _ _ => 0⟩
def BL_HEAD_EXP_HI_UNIT_ID_HI : Fld := ⟨0x40008, 0, 16, 0x1000, 6, 0x0, 1, 0, .qs, fun _ _ => 0⟩
def BL_HEAD_EXP_HI_RANK : Fld := ⟨0x40008, 16, 4, 0x1000, 6, 0x0, 1, 0, .qs, fun _ _ => 0⟩
def BL_HEAD_EXP_HI_EMITTERS : Fld := ⟨0x40008, 20, 6, 0x1000, 6, 0x0, 1, 0, .qs, fun _ _ => 0⟩
def BL_HEAD_EXP_CRC_CAL_CRC : Fld := ⟨0x4000C, 0, 32, 0x1000, 6, 0x0, 1, 0, .qs, fun _ _ => 0⟩
def BL_CHAR_CFG_VF_TOL : Fld := ⟨0x40010, 0, 10, 0x1000, 6, 0x0, 1, 0, .qs, fun _ _ => 150⟩
def BL_CHAR_CFG_SLOPE_MIN : Fld := ⟨0x40010, 10, 7, 0x1000, 6, 0x0, 1, 0, .qs, fun _ _ => 70⟩
def BL_CHAR_CFG_CHAR_EN : Fld := ⟨0x40010, 17, 1, 0x1000, 6, 0x0, 1, 0, .qs, fun _ _ => 1⟩
def BL_CHAR_GAP_GAP_COUNTS : Fld := ⟨0x40014, 0, 24, 0x1000, 6, 0x0, 1, 0, .qs, fun _ _ => 1000⟩
def BL_OT_OT_PAUSE : Fld := ⟨0x40018, 0, 8, 0x1000, 6, 0x0, 1, 0, .qs, fun _ _ => 70⟩
def BL_OT_OT_REARM : Fld := ⟨0x40018, 8, 8, 0x1000, 6, 0x0, 1, 0, .qs, fun _ _ => 60⟩
def BL_OT_OT_SRC : Fld := ⟨0x40018, 16, 6, 0x1000, 6, 0x0, 1, 0, .qs, fun _ _ => 63⟩
def BL_RELIEF_POOL_LO_POOL_LO : Fld := ⟨0x4001C, 0, 32, 0x1000, 6, 0x0, 1, 0, .qs, fun _ _ => 0⟩
def BL_RELIEF_POOL_HI_POOL_HI : Fld := ⟨0x40020, 0, 8, 0x1000, 6, 0x0, 1, 0, .qs, fun _ _ => 255⟩
def BL_FAILED_LO_FAILED_LO : Fld := ⟨0x40024, 0, 32, 0x1000, 6, 0x0, 1, 0, .sticky, fun _ _ => 0⟩
def BL_FAILED_HI_FAILED_HI : Fld := ⟨0x40028, 0, 8, 0x1000, 6, 0x0, 1, 0, .sticky, fun _ _ => 0⟩
def BL_STAT_STATE : Fld := ⟨0x40030, 0, 3, 0x1000, 6, 0x0, 1, 0, .ro, fun _ _ => 0⟩
def BL_STAT_HEAD_PRESENT : Fld := ⟨0x40030, 3, 1, 0x1000, 6, 0x0, 1, 0, .rl, fun _ _ => 0⟩
def BL_STAT_ID_AGREE : Fld := ⟨0x40030, 4, 1, 0x1000, 6, 0x0, 1, 0, .rl, fun _ _ => 0⟩
def BL_STAT_HEAD_SYNC : Fld := ⟨0x40030, 5, 1, 0x1000, 6, 0x0, 1, 0, .rl, fun _ _ => 0⟩
def BL_STAT_LEN : Fld := ⟨0x40030, 6, 1, 0x1000, 6, 0x0, 1, 0, .rl, fun _ _ => 0⟩
def BL_STAT_OT : Fld := ⟨0x40030, 7, 1, 0x1000, 6, 0x0, 1, 0, .rl, fun _ _ => 0⟩
def BL_STAT_REFUSING : Fld := ⟨0x40030, 8, 1, 0x1000, 6, 0x0, 1, 0, .rl, fun _ _ => 0⟩
def BL_STAT_CHAR_BUSY : Fld := ⟨0x40030, 9, 1, 0x1000, 6, 0x0, 1, 0, .rl, fun _ _ => 0⟩
def BL_STAT_RELIEF_FREE : Fld := ⟨0x40030, 10, 6, 0x1000, 6, 0x0, 1, 0, .ro, fun _ _ => 0⟩
def BL_STAT_TEMP : Fld := ⟨0x40030, 16, 16, 0x1000, 6, 0x0, 1, 0, .ro, fun _ _ => 0⟩
def BL_CNT_TRAIN_FAIL : Fld := ⟨0x40034, 0, 16, 0x1000, 6, 0x0, 1, 0, .counter, fun _ _ => 0⟩
def BL_CNT_CHAR_ABORT : Fld := ⟨0x40034, 16, 16, 0x1000, 6, 0x0, 1, 0, .counter, fun _ _ => 0⟩
def BL_GSTAT_CNT_FRAME_ERR : Fld := ⟨0x40038, 0, 16, 0x1000, 6, 0x0, 1, 0, .counter, fun _ _ => 0⟩
def BL_GSTAT_CNT_GSTAT_LATE : Fld := ⟨0x40038, 16, 16, 0x1000, 6, 0x0, 1, 0, .counter, fun _ _ => 0⟩
def BL_LANE_ERR_SH_ERR : Fld := ⟨0x40040, 0, 16, 0x1000, 6, 0x4, 4, 0, .counter, fun _ _ => 0⟩
def BL_LANE_ERR_LOCK_LOSS : Fld := ⟨0x40040, 16, 16, 0x1000, 6, 0x4, 4, 0, .counter, fun _ _ => 0⟩
def BL_HEAD_ID_LO_UNIT_ID_LO : Fld := ⟨0x40050, 0, 32, 0x1000, 6, 0x0, 1, 0, .ro, fun _ _ => 0⟩
def BL_HEAD_ID_HI_UNIT_ID_HI : Fld := ⟨0x40054, 0, 16, 0x1000, 6, 0x0, 1, 0, .ro, fun _ _ => 0⟩
def BL_HEAD_ID_HI_RANK : Fld := ⟨0x40054, 16, 4, 0x1000, 6, 0x0, 1, 0, .ro, fun _ _ => 0⟩
def BL_HEAD_ID_HI_EMITTERS : Fld := ⟨0x40054, 20, 6, 0x1000, 6, 0x0, 1, 0, .ro, fun _ _ => 0⟩
def BL_HEAD_ID_HI_KIND : Fld := ⟨0x40054, 26, 1, 0x1000, 6, 0x0, 1, 0, .ro, fun _ _ => 0⟩
def BL_HEAD_ID_CRC_CAL_CRC : Fld := ⟨0x40058, 0, 32, 0x1000, 6, 0x0, 1, 0, .ro, fun _ _ => 0⟩
def BL_AMP_CLASS0 : Fld := ⟨0x40100, 0, 12, 0x1000, 6, 0x8, 40, 0, .qs, fun _ _ => 0⟩
def BL_AMP_CLASS1 : Fld := ⟨0x40100, 16, 12, 0x1000, 6, 0x8, 40, 0, .qs, fun _ _ => 0⟩
def BL_AMP_CLASS2 : Fld := ⟨0x40104, 0, 12, 0x1000, 6, 0x8, 40, 0, .qs, fun _ _ => 0⟩
def BL_AMP_CLASS3 : Fld := ⟨0x40104, 16, 12, 0x1000, 6, 0x8, 40, 0, .qs, fun _ _ => 0⟩
def BL_CHAR_RES_VF : Fld := ⟨0x40400, 0, 16, 0x1000, 6, 0x4, 40, 0, .ro, fun _ _ => 0⟩
def BL_CHAR_RES_SLOPE : Fld := ⟨0x40400, 16, 16, 0x1000, 6, 0x4, 40, 0, .ro, fun _ _ => 0⟩
/-- Every field of the BEAMLINK block. -/
def block_BEAMLINK : List Fld :=
  [BL_CFG_PORT, BL_CFG_LANES, BL_CFG_RATE, BL_CFG_DBEAMS, BL_CFG_WEAR_PERIOD, BL_HEAD_EXP_LO_UNIT_ID_LO, BL_HEAD_EXP_HI_UNIT_ID_HI, BL_HEAD_EXP_HI_RANK, 
   BL_HEAD_EXP_HI_EMITTERS, BL_HEAD_EXP_CRC_CAL_CRC, BL_CHAR_CFG_VF_TOL, BL_CHAR_CFG_SLOPE_MIN, BL_CHAR_CFG_CHAR_EN, BL_CHAR_GAP_GAP_COUNTS, BL_OT_OT_PAUSE, BL_OT_OT_REARM, 
   BL_OT_OT_SRC, BL_RELIEF_POOL_LO_POOL_LO, BL_RELIEF_POOL_HI_POOL_HI, BL_FAILED_LO_FAILED_LO, BL_FAILED_HI_FAILED_HI, BL_STAT_STATE, BL_STAT_HEAD_PRESENT, BL_STAT_ID_AGREE, 
   BL_STAT_HEAD_SYNC, BL_STAT_LEN, BL_STAT_OT, BL_STAT_REFUSING, BL_STAT_CHAR_BUSY, BL_STAT_RELIEF_FREE, BL_STAT_TEMP, BL_CNT_TRAIN_FAIL, 
   BL_CNT_CHAR_ABORT, BL_GSTAT_CNT_FRAME_ERR, BL_GSTAT_CNT_GSTAT_LATE, BL_LANE_ERR_SH_ERR, BL_LANE_ERR_LOCK_LOSS, BL_HEAD_ID_LO_UNIT_ID_LO, BL_HEAD_ID_HI_UNIT_ID_HI, BL_HEAD_ID_HI_RANK] ++
  [BL_HEAD_ID_HI_EMITTERS, BL_HEAD_ID_HI_KIND, BL_HEAD_ID_CRC_CAL_CRC, BL_AMP_CLASS0, BL_AMP_CLASS1, BL_AMP_CLASS2, BL_AMP_CLASS3, BL_CHAR_RES_VF, 
   BL_CHAR_RES_SLOPE]

/-! ### DRIVE -/

def DRV_CFG_EN : Fld := ⟨0x48000, 0, 1, 0x400, 16, 0x0, 1, 0, .qs, fun _ _ => 0⟩
def DRV_CFG_SRC : Fld := ⟨0x48000, 1, 3, 0x400, 16, 0x0, 1, 0, .qs, fun _ _ => 0⟩
def DRV_CFG_BRAKE_MODE : Fld := ⟨0x48000, 4, 1, 0x400, 16, 0x0, 1, 0, .qs, fun _ _ => 0⟩
def DRV_CFG_STOP_MODE : Fld := ⟨0x48000, 5, 2, 0x400, 16, 0x0, 1, 0, .qs, fun _ _ => 0⟩
def DRV_CFG_CATCH_EN : Fld := ⟨0x48000, 7, 1, 0x400, 16, 0x0, 1, 0, .qs, fun _ _ => 1⟩
def DRV_CFG_ENC_PORT : Fld := ⟨0x48000, 8, 5, 0x400, 16, 0x0, 1, 0, .qs, fun _ _ => 0⟩
def DRV_CFG_POLE_PAIRS : Fld := ⟨0x48000, 13, 5, 0x400, 16, 0x0, 1, 0, .qs, fun _ _ => 1⟩
def DRV_CFG_BUS_GRP : Fld := ⟨0x48000, 18, 2, 0x400, 16, 0x0, 1, 0, .qs, fun _ _ => 0⟩
def DRV_SDSEL_IA_SEL : Fld := ⟨0x48004, 0, 6, 0x400, 16, 0x0, 1, 0, .qs, fun _ _ => 0⟩
def DRV_SDSEL_IB_SEL : Fld := ⟨0x48004, 8, 6, 0x400, 16, 0x0, 1, 0, .qs, fun _ _ => 0⟩
def DRV_SDSEL_VBUS_SEL : Fld := ⟨0x48004, 16, 7, 0x400, 16, 0x0, 1, 0, .qs, fun _ _ => 0⟩
def DRV_SDSEL_CLK : Fld := ⟨0x48004, 24, 2, 0x400, 16, 0x0, 1, 0, .qs, fun _ _ => 0⟩
def DRV_SDSEL_OSR : Fld := ⟨0x48004, 26, 3, 0x400, 16, 0x0, 1, 0, .qs, fun _ _ => 2⟩
def DRV_SCALE_I_FS : Fld := ⟨0x48008, 0, 16, 0x400, 16, 0x0, 1, 0, .qs, fun _ _ => 0⟩
def DRV_SCALE_VBUS_FS : Fld := ⟨0x48008, 16, 16, 0x400, 16, 0x0, 1, 0, .qs, fun _ _ => 0⟩
def DRV_MOTOR1_RS : Fld := ⟨0x4800C, 0, 16, 0x400, 16, 0x0, 1, 0, .qs, fun _ _ => 0⟩
def DRV_MOTOR1_LD : Fld := ⟨0x4800C, 16, 16, 0x400, 16, 0x0, 1, 0, .qs, fun _ _ => 0⟩
def DRV_MOTOR2_PSI_PM : Fld := ⟨0x48010, 0, 16, 0x400, 16, 0x0, 1, 0, .qs, fun _ _ => 0⟩
def DRV_MOTOR2_LQ : Fld := ⟨0x48010, 16, 16, 0x400, 16, 0x0, 1, 0, .qs, fun _ _ => 0⟩
def DRV_COUNTS_COUNTS_REV : Fld := ⟨0x48014, 0, 24, 0x400, 16, 0x0, 1, 0, .qs, fun _ _ => 0⟩
def DRV_ANGLE_OFS_ANGLE_OFS : Fld := ⟨0x48018, 0, 16, 0x400, 16, 0x0, 1, 0, .qs, fun _ _ => 0⟩
def DRV_BANDS_FLUX_BAND : Fld := ⟨0x4801C, 0, 16, 0x400, 16, 0x0, 1, 0, .qs, fun _ _ => 40⟩
def DRV_BANDS_TQ_BAND : Fld := ⟨0x4801C, 16, 16, 0x400, 16, 0x0, 1, 0, .qs, fun _ _ => 1000⟩
def DRV_DT_DT : Fld := ⟨0x48020, 0, 10, 0x400, 16, 0x0, 1, 0, .qs, fun _ _ => 100⟩
def DRV_DT_GATE_POL : Fld := ⟨0x48020, 10, 6, 0x400, 16, 0x0, 1, 0, .qs, fun _ _ => 0⟩
def DRV_TQ_MAX_TQ_MAX : Fld := ⟨0x48024, 0, 24, 0x400, 16, 0x0, 1, 0, .qs, fun _ _ => 0⟩
def DRV_SPD_MAX_SPD_MAX : Fld := ⟨0x48028, 0, 24, 0x400, 16, 0x0, 1, 0, .qs, fun _ _ => 0⟩
def DRV_SPD_NOM_SPD_NOM : Fld := ⟨0x4802C, 0, 24, 0x400, 16, 0x0, 1, 0, .qs, fun _ _ => 0⟩
def DRV_SPD_SET_SPD_SET : Fld := ⟨0x48030, 0, 24, 0x400, 16, 0x0, 1, 0, .qs, fun _ _ => 0⟩
def DRV_ACCEL_ACCEL : Fld := ⟨0x48034, 0, 24, 0x400, 16, 0x0, 1, 0, .qs, fun _ _ => 1000⟩
def DRV_DECEL_DECEL : Fld := ⟨0x48038, 0, 24, 0x400, 16, 0x0, 1, 0, .qs, fun _ _ => 1000⟩
def DRV_SPD_PI_KP : Fld := ⟨0x4803C, 0, 12, 0x400, 16, 0x0, 1, 0, .qs, fun _ _ => 0⟩
def DRV_SPD_PI_KI : Fld := ⟨0x4803C, 12, 12, 0x400, 16, 0x0, 1, 0, .qs, fun _ _ => 0⟩
def DRV_SPD_PI_KPOS : Fld := ⟨0x4803C, 24, 8, 0x400, 16, 0x0, 1, 0, .qs, fun _ _ => 0⟩
def DRV_FW_ID_MIN : Fld := ⟨0x48040, 0, 16, 0x400, 16, 0x0, 1, 0, .qs, fun _ _ => 0⟩
def DRV_FW_FW_LIMIT : Fld := ⟨0x48040, 16, 8, 0x400, 16, 0x0, 1, 0, .qs, fun _ _ => 243⟩
def DRV_FW_FW_KI : Fld := ⟨0x48040, 24, 8, 0x400, 16, 0x0, 1, 0, .qs, fun _ _ => 16⟩
def DRV_CATCH_CATCH_MIN : Fld := ⟨0x48044, 0, 16, 0x400, 16, 0x0, 1, 0, .qs, fun _ _ => 30⟩
def DRV_CATCH_CATCH_MAX : Fld := ⟨0x48044, 16, 16, 0x400, 16, 0x0, 1, 0, .qs, fun _ _ => 65535⟩
def DRV_BRAKE_BRAKE_THR : Fld := ⟨0x48048, 0, 16, 0x400, 16, 0x0, 1, 0, .qs, fun _ _ => 20⟩
def DRV_BRAKE_T_SHORT : Fld := ⟨0x48048, 16, 8, 0x400, 16, 0x0, 1, 0, .qs, fun _ _ => 10⟩
def DRV_IPD_IPD_LIMIT : Fld := ⟨0x4804C, 0, 16, 0x400, 16, 0x0, 1, 0, .qs, fun _ _ => 2000⟩
def DRV_IPD_T_PULSE : Fld := ⟨0x4804C, 16, 8, 0x400, 16, 0x0, 1, 0, .qs, fun _ _ => 50⟩
def DRV_IPD_ANGLE_MOVE : Fld := ⟨0x4804C, 24, 8, 0x400, 16, 0x0, 1, 0, .qs, fun _ _ => 4⟩
def DRV_STALL_STALL_SPEED : Fld := ⟨0x48050, 0, 16, 0x400, 16, 0x0, 1, 0, .qs, fun _ _ => 10⟩
def DRV_STALL_STALL_MS : Fld := ⟨0x48050, 16, 16, 0x400, 16, 0x0, 1, 0, .qs, fun _ _ => 500⟩
def DRV_OC_OC_LIMIT : Fld := ⟨0x48054, 0, 16, 0x400, 16, 0x0, 1, 0, .qs, fun _ _ => 0⟩
def DRV_CAP_CAP_LOOP : Fld := ⟨0x48058, 0, 7, 0x400, 16, 0x0, 1, 0, .qs, fun _ _ => 0⟩
def DRV_CAP_CAP_MODE : Fld := ⟨0x48058, 7, 1, 0x400, 16, 0x0, 1, 0, .qs, fun _ _ => 0⟩
def DRV_REF_IN_KIND : Fld := ⟨0x4805C, 0, 2, 0x400, 16, 0x0, 1, 0, .qs, fun _ _ => 0⟩
def DRV_REF_IN_INPUT : Fld := ⟨0x4805C, 2, 6, 0x400, 16, 0x0, 1, 0, .qs, fun _ _ => 0⟩
def DRV_REF_IN_PIN_TMO : Fld := ⟨0x4805C, 16, 16, 0x400, 16, 0x0, 1, 0, .qs, fun _ _ => 100⟩
def DRV_REF_MAP1_PIN_LO : Fld := ⟨0x48060, 0, 16, 0x400, 16, 0x0, 1, 0, .qs, fun _ _ => 0⟩
def DRV_REF_MAP1_PIN_HI : Fld := ⟨0x48060, 16, 16, 0x400, 16, 0x0, 1, 0, .qs, fun _ _ => 0⟩
def DRV_REF_MAP2_SPD_LO : Fld := ⟨0x48064, 0, 16, 0x400, 16, 0x0, 1, 0, .qs, fun _ _ => 0⟩
def DRV_REF_MAP2_SPD_HI : Fld := ⟨0x48064, 16, 16, 0x400, 16, 0x0, 1, 0, .qs, fun _ _ => 0⟩
def DRV_REF_OFF_PIN_OFF : Fld := ⟨0x48068, 0, 16, 0x400, 16, 0x0, 1, 0, .qs, fun _ _ => 0⟩
def DRV_REF_OFF_HYST : Fld := ⟨0x48068, 16, 16, 0x400, 16, 0x0, 1, 0, .qs, fun _ _ => 0⟩
def DRV_SWTAB_ENTRIES : Fld := ⟨0x48080, 0, 32, 0x400, 16, 0x4, 5, 0, .qs, fun _ j => [0x88432165, 0x65438888, 0x54321621, 0x32888888, 0x00001654].getD j 0⟩
def DRV_STAT_STATE : Fld := ⟨0x48100, 0, 3, 0x400, 16, 0x0, 1, 0, .ro, fun _ _ => 0⟩
def DRV_STAT_ANGLE_VALID : Fld := ⟨0x48100, 3, 1, 0x400, 16, 0x0, 1, 0, .rl, fun _ _ => 0⟩
def DRV_STAT_ANGLE_EXACT : Fld := ⟨0x48100, 4, 1, 0x400, 16, 0x0, 1, 0, .rl, fun _ _ => 0⟩
def DRV_STAT_BRAKING : Fld := ⟨0x48100, 5, 1, 0x400, 16, 0x0, 1, 0, .rl, fun _ _ => 0⟩
def DRV_STAT_FW_SAT : Fld := ⟨0x48100, 6, 1, 0x400, 16, 0x0, 1, 0, .rl, fun _ _ => 0⟩
def DRV_STAT_FORCED : Fld := ⟨0x48100, 7, 1, 0x400, 16, 0x0, 1, 0, .rl, fun _ _ => 0⟩
def DRV_SPEED_SPEED : Fld := ⟨0x48104, 0, 24, 0x400, 16, 0x0, 1, 0, .ro, fun _ _ => 0⟩
def DRV_TORQUE_TORQUE : Fld := ⟨0x48108, 0, 24, 0x400, 16, 0x0, 1, 0, .ro, fun _ _ => 0⟩
def DRV_FLUX_FLUX : Fld := ⟨0x4810C, 0, 16, 0x400, 16, 0x0, 1, 0, .ro, fun _ _ => 0⟩
def DRV_FLUX_ID_CMD : Fld := ⟨0x4810C, 16, 16, 0x400, 16, 0x0, 1, 0, .ro, fun _ _ => 0⟩
def DRV_VBUS_VBUS : Fld := ⟨0x48110, 0, 16, 0x400, 16, 0x0, 1, 0, .ro, fun _ _ => 0⟩
def DRV_CNT_OC_TRIPS : Fld := ⟨0x48114, 0, 16, 0x400, 16, 0x0, 1, 0, .counter, fun _ _ => 0⟩
def DRV_CNT_CATCHES : Fld := ⟨0x48114, 16, 16, 0x400, 16, 0x0, 1, 0, .counter, fun _ _ => 0⟩
def DRV_CNT2_ANGLE_FINDS : Fld := ⟨0x48118, 0, 16, 0x400, 16, 0x0, 1, 0, .counter, fun _ _ => 0⟩
def DRV_CNT2_RAMP_LAG : Fld := ⟨0x48118, 16, 16, 0x400, 16, 0x0, 1, 0, .counter, fun _ _ => 0⟩
def DRV_CTL_STOP : Fld := ⟨0x4811C, 0, 1, 0x400, 16, 0x0, 1, 0, .own, fun _ _ => 0⟩
def DRV_CTL_START : Fld := ⟨0x4811C, 1, 1, 0x400, 16, 0x0, 1, 0, .own, fun _ _ => 0⟩
def DRV_CTL_FIND_ANGLE : Fld := ⟨0x4811C, 2, 1, 0x400, 16, 0x0, 1, 0, .own, fun _ _ => 0⟩
def DRV_CURVE_X : Fld := ⟨0x48200, 0, 16, 0x400, 16, 0x4, 32, 0, .qs, fun _ _ => 0⟩
def DRV_CURVE_Y : Fld := ⟨0x48200, 16, 16, 0x400, 16, 0x4, 32, 0, .qs, fun _ _ => 0⟩
def DRV_BUS_LVL_OV_LEVEL : Fld := ⟨0x48380, 0, 16, 0x400, 4, 0x0, 1, 0, .qs, fun _ _ => 28000⟩
def DRV_BUS_LVL_OV_TRIP : Fld := ⟨0x48380, 16, 16, 0x400, 4, 0x0, 1, 0, .qs, fun _ _ => 32000⟩
def DRV_BUS_LVL2_UV_LEVEL : Fld := ⟨0x48384, 0, 16, 0x400, 4, 0x0, 1, 0, .qs, fun _ _ => 18000⟩
def DRV_BUS_LVL2_CHOP_ON : Fld := ⟨0x48384, 16, 16, 0x400, 4, 0x0, 1, 0, .qs, fun _ _ => 27000⟩
def DRV_BUS_CHOP_CHOP_CHK : Fld := ⟨0x48388, 0, 8, 0x400, 4, 0x0, 1, 0, .qs, fun _ _ => 50⟩
def DRV_BUS_CHOP_CHOP_EN : Fld := ⟨0x48388, 8, 1, 0x400, 4, 0x0, 1, 0, .qs, fun _ _ => 0⟩
def DRV_BUS_STAT_CHOP_FAULT : Fld := ⟨0x4838C, 0, 1, 0x400, 4, 0x0, 1, 0, .rl, fun _ _ => 0⟩
def DRV_BUS_STAT_SENSE_FAIL : Fld := ⟨0x4838C, 1, 1, 0x400, 4, 0x0, 1, 0, .sticky, fun _ _ => 0⟩
def DRV_BUS_STAT_FORCED : Fld := ⟨0x4838C, 2, 1, 0x400, 4, 0x0, 1, 0, .rl, fun _ _ => 0⟩
def DRV_BUS_STAT_VBUS_MAX : Fld := ⟨0x4838C, 16, 16, 0x400, 4, 0x0, 1, 0, .rw, fun _ _ => 0⟩
def DRV_SDCLK_DIV : Fld := ⟨0x483C0, 0, 6, 0x400, 4, 0x0, 1, 0, .qs, fun _ _ => 25⟩
def DRV_SDCLK_EN : Fld := ⟨0x483C0, 6, 1, 0x400, 4, 0x0, 1, 0, .qs, fun _ _ => 0⟩
/-- Every field of the DRIVE block. -/
def block_DRIVE : List Fld :=
  [DRV_CFG_EN, DRV_CFG_SRC, DRV_CFG_BRAKE_MODE, DRV_CFG_STOP_MODE, DRV_CFG_CATCH_EN, DRV_CFG_ENC_PORT, DRV_CFG_POLE_PAIRS, DRV_CFG_BUS_GRP, 
   DRV_SDSEL_IA_SEL, DRV_SDSEL_IB_SEL, DRV_SDSEL_VBUS_SEL, DRV_SDSEL_CLK, DRV_SDSEL_OSR, DRV_SCALE_I_FS, DRV_SCALE_VBUS_FS, DRV_MOTOR1_RS, 
   DRV_MOTOR1_LD, DRV_MOTOR2_PSI_PM, DRV_MOTOR2_LQ, DRV_COUNTS_COUNTS_REV, DRV_ANGLE_OFS_ANGLE_OFS, DRV_BANDS_FLUX_BAND, DRV_BANDS_TQ_BAND, DRV_DT_DT, 
   DRV_DT_GATE_POL, DRV_TQ_MAX_TQ_MAX, DRV_SPD_MAX_SPD_MAX, DRV_SPD_NOM_SPD_NOM, DRV_SPD_SET_SPD_SET, DRV_ACCEL_ACCEL, DRV_DECEL_DECEL, DRV_SPD_PI_KP, 
   DRV_SPD_PI_KI, DRV_SPD_PI_KPOS, DRV_FW_ID_MIN, DRV_FW_FW_LIMIT, DRV_FW_FW_KI, DRV_CATCH_CATCH_MIN, DRV_CATCH_CATCH_MAX, DRV_BRAKE_BRAKE_THR] ++
  [DRV_BRAKE_T_SHORT, DRV_IPD_IPD_LIMIT, DRV_IPD_T_PULSE, DRV_IPD_ANGLE_MOVE, DRV_STALL_STALL_SPEED, DRV_STALL_STALL_MS, DRV_OC_OC_LIMIT, DRV_CAP_CAP_LOOP, 
   DRV_CAP_CAP_MODE, DRV_REF_IN_KIND, DRV_REF_IN_INPUT, DRV_REF_IN_PIN_TMO, DRV_REF_MAP1_PIN_LO, DRV_REF_MAP1_PIN_HI, DRV_REF_MAP2_SPD_LO, DRV_REF_MAP2_SPD_HI, 
   DRV_REF_OFF_PIN_OFF, DRV_REF_OFF_HYST, DRV_SWTAB_ENTRIES, DRV_STAT_STATE, DRV_STAT_ANGLE_VALID, DRV_STAT_ANGLE_EXACT, DRV_STAT_BRAKING, DRV_STAT_FW_SAT, 
   DRV_STAT_FORCED, DRV_SPEED_SPEED, DRV_TORQUE_TORQUE, DRV_FLUX_FLUX, DRV_FLUX_ID_CMD, DRV_VBUS_VBUS, DRV_CNT_OC_TRIPS, DRV_CNT_CATCHES, 
   DRV_CNT2_ANGLE_FINDS, DRV_CNT2_RAMP_LAG, DRV_CTL_START, DRV_CTL_STOP, DRV_CTL_FIND_ANGLE, DRV_CURVE_X, DRV_CURVE_Y, DRV_BUS_LVL_OV_LEVEL] ++
  [DRV_BUS_LVL_OV_TRIP, DRV_BUS_LVL2_UV_LEVEL, DRV_BUS_LVL2_CHOP_ON, DRV_BUS_CHOP_CHOP_CHK, DRV_BUS_CHOP_CHOP_EN, DRV_BUS_STAT_CHOP_FAULT, DRV_BUS_STAT_SENSE_FAIL, DRV_BUS_STAT_FORCED, 
   DRV_BUS_STAT_VBUS_MAX, DRV_SDCLK_DIV, DRV_SDCLK_EN]

/-! ### MOTION -/

def MOT_CFG_REVERSIBLE : Fld := ⟨0x58000, 0, 1, 0x40, 32, 0x0, 1, 0, .qs, fun _ _ => 0⟩
def MOT_CFG_LIM_EN : Fld := ⟨0x58000, 1, 1, 0x40, 32, 0x0, 1, 0, .qs, fun _ _ => 0⟩
def MOT_STOP_DECEL_STOP_DECEL : Fld := ⟨0x58004, 0, 32, 0x40, 32, 0x0, 1, 0, .qs, fun _ _ => 1000000⟩
def MOT_LIM_LO_LO_LIM_LO_LO : Fld := ⟨0x58008, 0, 32, 0x40, 32, 0x0, 1, 0, .qs, fun _ _ => 0⟩
def MOT_LIM_LO_HI_LIM_LO_HI : Fld := ⟨0x5800C, 0, 8, 0x40, 32, 0x0, 1, 0, .qs, fun _ _ => 0⟩
def MOT_LIM_HI_LO_LIM_HI_LO : Fld := ⟨0x58010, 0, 32, 0x40, 32, 0x0, 1, 0, .qs, fun _ _ => 0⟩
def MOT_LIM_HI_HI_LIM_HI_HI : Fld := ⟨0x58014, 0, 8, 0x40, 32, 0x0, 1, 0, .qs, fun _ _ => 0⟩
def MOT_INPOS_INPOS : Fld := ⟨0x58018, 0, 16, 0x40, 32, 0x0, 1, 0, .qs, fun _ _ => 4⟩
def MOT_INPOS_INPOS_MS : Fld := ⟨0x58018, 16, 16, 0x40, 32, 0x0, 1, 0, .qs, fun _ _ => 100⟩
def MOT_STAT_STATE : Fld := ⟨0x58020, 0, 3, 0x40, 32, 0x0, 1, 0, .ro, fun _ _ => 0⟩
def MOT_STAT_OUTSIDE : Fld := ⟨0x58020, 3, 1, 0x40, 32, 0x0, 1, 0, .rl, fun _ _ => 0⟩
def MOT_STAT_IN_POS : Fld := ⟨0x58020, 4, 1, 0x40, 32, 0x0, 1, 0, .rl, fun _ _ => 0⟩
def MOT_STAT_SEG : Fld := ⟨0x58020, 5, 12, 0x40, 32, 0x0, 1, 0, .ro, fun _ _ => 0⟩
def MOT_POS : Fld := ⟨0x58024, 0, 40, 0x40, 32, 0x0, 1, 0, .ro, fun _ _ => 0⟩
def MOT_POS_HI_FRAC : Fld := ⟨0x58028, 8, 16, 0x40, 32, 0x0, 1, 0, .ro, fun _ _ => 0⟩
def MOT_VEL_VEL : Fld := ⟨0x5802C, 0, 32, 0x40, 32, 0x0, 1, 0, .ro, fun _ _ => 0⟩
def MOT_CNT_NEG_CLAMP : Fld := ⟨0x58030, 0, 16, 0x40, 32, 0x0, 1, 0, .counter, fun _ _ => 0⟩
def MOT_CNT_LIMIT_STOPS : Fld := ⟨0x58030, 16, 16, 0x40, 32, 0x0, 1, 0, .counter, fun _ _ => 0⟩
/-- Every field of the MOTION block. -/
def block_MOTION : List Fld :=
  [MOT_CFG_REVERSIBLE, MOT_CFG_LIM_EN, MOT_STOP_DECEL_STOP_DECEL, MOT_LIM_LO_LO_LIM_LO_LO, MOT_LIM_LO_HI_LIM_LO_HI, MOT_LIM_HI_LO_LIM_HI_LO, MOT_LIM_HI_HI_LIM_HI_HI, MOT_INPOS_INPOS, 
   MOT_INPOS_INPOS_MS, MOT_STAT_STATE, MOT_STAT_OUTSIDE, MOT_STAT_IN_POS, MOT_STAT_SEG, MOT_POS, MOT_POS_HI_FRAC, MOT_VEL_VEL, 
   MOT_CNT_NEG_CLAMP, MOT_CNT_LIMIT_STOPS]

/-! ### STEP -/

def STP_CFG_EN : Fld := ⟨0x50000, 0, 1, 0x100, 16, 0x0, 1, 0, .qs, fun _ _ => 0⟩
def STP_CFG_TABLE : Fld := ⟨0x50000, 1, 2, 0x100, 16, 0x0, 1, 0, .qs, fun _ _ => 0⟩
def STP_CFG_MS_SHIFT : Fld := ⟨0x50000, 3, 4, 0x100, 16, 0x0, 1, 0, .qs, fun _ _ => 0⟩
def STP_CFG_USTEP_OFS : Fld := ⟨0x50000, 7, 10, 0x100, 16, 0x0, 1, 0, .qs, fun _ _ => 0⟩
def STP_CUR_I_RUN : Fld := ⟨0x50004, 0, 10, 0x100, 16, 0x0, 1, 0, .qs, fun _ _ => 0⟩
def STP_CUR_I_HOLD : Fld := ⟨0x50004, 10, 10, 0x100, 16, 0x0, 1, 0, .qs, fun _ _ => 0⟩
def STP_CUR_HOLD_MS : Fld := ⟨0x50004, 20, 12, 0x100, 16, 0x0, 1, 0, .qs, fun _ _ => 500⟩
def STP_CHOP_TOFF : Fld := ⟨0x50008, 0, 6, 0x100, 16, 0x0, 1, 0, .qs, fun _ _ => 20⟩
def STP_CHOP_FAST : Fld := ⟨0x50008, 6, 5, 0x100, 16, 0x0, 1, 0, .qs, fun _ _ => 4⟩
def STP_CHOP_BLANK : Fld := ⟨0x50008, 11, 11, 0x100, 16, 0x0, 1, 0, .qs, fun _ _ => 500⟩
def STP_CHOP_DT : Fld := ⟨0x50008, 22, 10, 0x100, 16, 0x0, 1, 0, .qs, fun _ _ => 100⟩
def STP_GATE_GATE_POL : Fld := ⟨0x5000C, 0, 8, 0x100, 16, 0x0, 1, 0, .qs, fun _ _ => 0⟩
def STP_GATE_OPEN_MS : Fld := ⟨0x5000C, 8, 8, 0x100, 16, 0x0, 1, 0, .qs, fun _ _ => 20⟩
def STP_ENC_ENC_PORT : Fld := ⟨0x50010, 0, 5, 0x100, 16, 0x0, 1, 0, .qs, fun _ _ => 0⟩
def STP_ENC_ENC_EN : Fld := ⟨0x50010, 5, 1, 0x100, 16, 0x0, 1, 0, .qs, fun _ _ => 0⟩
def STP_ENC_ENC_SCALE : Fld := ⟨0x50010, 6, 16, 0x100, 16, 0x0, 1, 0, .qs, fun _ _ => 256⟩
def STP_STALL_STALL_ERR : Fld := ⟨0x50014, 0, 16, 0x100, 16, 0x0, 1, 0, .qs, fun _ _ => 512⟩
def STP_STAT_STATE : Fld := ⟨0x50020, 0, 2, 0x100, 16, 0x0, 1, 0, .ro, fun _ _ => 0⟩
def STP_STAT_A_TRIP : Fld := ⟨0x50020, 2, 1, 0x100, 16, 0x0, 1, 0, .rl, fun _ _ => 0⟩
def STP_STAT_B_TRIP : Fld := ⟨0x50020, 3, 1, 0x100, 16, 0x0, 1, 0, .rl, fun _ _ => 0⟩
def STP_STAT_ADDR : Fld := ⟨0x50020, 4, 10, 0x100, 16, 0x0, 1, 0, .ro, fun _ _ => 0⟩
def STP_REF_REF_A : Fld := ⟨0x50024, 0, 12, 0x100, 16, 0x0, 1, 0, .ro, fun _ _ => 0⟩
def STP_REF_REF_B : Fld := ⟨0x50024, 16, 12, 0x100, 16, 0x0, 1, 0, .ro, fun _ _ => 0⟩
def STP_CNT_SLEW_CLAMP : Fld := ⟨0x50028, 0, 16, 0x100, 16, 0x0, 1, 0, .counter, fun _ _ => 0⟩
def STP_CNT_SHORTS : Fld := ⟨0x50028, 16, 16, 0x100, 16, 0x0, 1, 0, .counter, fun _ _ => 0⟩
/-- Every field of the STEP block. -/
def block_STEP : List Fld :=
  [STP_CFG_EN, STP_CFG_TABLE, STP_CFG_MS_SHIFT, STP_CFG_USTEP_OFS, STP_CUR_I_RUN, STP_CUR_I_HOLD, STP_CUR_HOLD_MS, STP_CHOP_TOFF, 
   STP_CHOP_FAST, STP_CHOP_BLANK, STP_CHOP_DT, STP_GATE_GATE_POL, STP_GATE_OPEN_MS, STP_ENC_ENC_PORT, STP_ENC_ENC_EN, STP_ENC_ENC_SCALE, 
   STP_STALL_STALL_ERR, STP_STAT_STATE, STP_STAT_A_TRIP, STP_STAT_B_TRIP, STP_STAT_ADDR, STP_REF_REF_A, STP_REF_REF_B, STP_CNT_SLEW_CLAMP, 
   STP_CNT_SHORTS]

/-! ### FEEDBACK -/

def ENC_CFG_MODE : Fld := ⟨0x60000, 0, 2, 0x80, 24, 0x0, 1, 0, .qs, fun _ _ => 0⟩
def ENC_CFG_SWAP : Fld := ⟨0x60000, 2, 1, 0x80, 24, 0x0, 1, 0, .qs, fun _ _ => 0⟩
def ENC_CFG_Z_GATE : Fld := ⟨0x60000, 3, 1, 0x80, 24, 0x0, 1, 0, .qs, fun _ _ => 0⟩
def ENC_CFG_GRAY : Fld := ⟨0x60000, 4, 1, 0x80, 24, 0x0, 1, 0, .qs, fun _ _ => 0⟩
def ENC_CFG_FILT : Fld := ⟨0x60000, 8, 6, 0x80, 24, 0x0, 1, 0, .qs, fun _ _ => 4⟩
def ENC_CFG_BITS : Fld := ⟨0x60000, 16, 6, 0x80, 24, 0x0, 1, 0, .qs, fun _ _ => 0⟩
def ENC_CFG_LEAD : Fld := ⟨0x60000, 22, 2, 0x80, 24, 0x0, 1, 0, .qs, fun _ _ => 0⟩
def ENC_CFG_CRC_SEL : Fld := ⟨0x60000, 24, 2, 0x80, 24, 0x0, 1, 0, .qs, fun _ _ => 0⟩
def ENC_CFG_CRC_INV : Fld := ⟨0x60000, 26, 1, 0x80, 24, 0x0, 1, 0, .qs, fun _ _ => 0⟩
def ENC_SSI_CLK_DIV : Fld := ⟨0x60004, 0, 12, 0x80, 24, 0x0, 1, 0, .qs, fun _ _ => 24⟩
def ENC_SSI_MONO : Fld := ⟨0x60004, 12, 8, 0x80, 24, 0x0, 1, 0, .qs, fun _ _ => 20⟩
def ENC_POLL_POLL : Fld := ⟨0x60008, 0, 16, 0x80, 24, 0x0, 1, 0, .qs, fun _ _ => 125⟩
def ENC_POLL_JUMP_MAX : Fld := ⟨0x60008, 16, 16, 0x80, 24, 0x0, 1, 0, .qs, fun _ _ => 0⟩
def ENC_IDX_IDX_NOM : Fld := ⟨0x6000C, 0, 24, 0x80, 24, 0x0, 1, 0, .qs, fun _ _ => 0⟩
def ENC_IDX_IDX_TOL : Fld := ⟨0x6000C, 24, 8, 0x80, 24, 0x0, 1, 0, .qs, fun _ _ => 1⟩
def ENC_SPD_WIN_SHIFT : Fld := ⟨0x60010, 0, 4, 0x80, 24, 0x0, 1, 0, .qs, fun _ _ => 2⟩
def ENC_SPD_PER_AVG : Fld := ⟨0x60010, 4, 2, 0x80, 24, 0x0, 1, 0, .qs, fun _ _ => 1⟩
def ENC_SPD_SW_UP : Fld := ⟨0x60010, 8, 4, 0x80, 24, 0x0, 1, 0, .qs, fun _ _ => 4⟩
def ENC_SPD_SW_DN : Fld := ⟨0x60010, 12, 4, 0x80, 24, 0x0, 1, 0, .qs, fun _ _ => 2⟩
def ENC_SPD_JIT_CONF : Fld := ⟨0x60010, 16, 4, 0x80, 24, 0x0, 1, 0, .qs, fun _ _ => 2⟩
def ENC_SPD_ERR_MAX : Fld := ⟨0x60010, 20, 4, 0x80, 24, 0x0, 1, 0, .qs, fun _ _ => 3⟩
def ENC_SPD_STILL_MS : Fld := ⟨0x60010, 24, 8, 0x80, 24, 0x0, 1, 0, .qs, fun _ _ => 64⟩
def ENC_CNT : Fld := ⟨0x60020, 0, 40, 0x80, 24, 0x0, 1, 0, .ro, fun _ _ => 0⟩
def ENC_SPEED_SPEED : Fld := ⟨0x60028, 0, 32, 0x80, 24, 0x0, 1, 0, .ro, fun _ _ => 0⟩
def ENC_STAT_SIG_OK : Fld := ⟨0x6002C, 0, 1, 0x80, 24, 0x0, 1, 0, .rl, fun _ _ => 0⟩
def ENC_STAT_WORD_OK : Fld := ⟨0x6002C, 1, 1, 0x80, 24, 0x0, 1, 0, .rl, fun _ _ => 0⟩
def ENC_STAT_SPD_MODE : Fld := ⟨0x6002C, 2, 1, 0x80, 24, 0x0, 1, 0, .ro, fun _ _ => 0⟩
def ENC_STAT_IDX_REF_VALID : Fld := ⟨0x6002C, 3, 1, 0x80, 24, 0x0, 1, 0, .ro, fun _ _ => 0⟩
def ENC_STAT_REVERSING : Fld := ⟨0x6002C, 4, 1, 0x80, 24, 0x0, 1, 0, .rl, fun _ _ => 0⟩
def ENC_STAT_SPD_SAT : Fld := ⟨0x6002C, 5, 1, 0x80, 24, 0x0, 1, 0, .rl, fun _ _ => 0⟩
def ENC_IDX_REF : Fld := ⟨0x60030, 0, 40, 0x80, 24, 0x0, 1, 0, .ro, fun _ _ => 0⟩
def ENC_IDX_LAST_LAST_DIFF : Fld := ⟨0x60038, 0, 24, 0x80, 24, 0x0, 1, 0, .ro, fun _ _ => 0⟩
def ENC_ERR1_ILLEGAL : Fld := ⟨0x6003C, 0, 16, 0x80, 24, 0x0, 1, 0, .counter, fun _ _ => 0⟩
def ENC_ERR1_LINE_FAULTS : Fld := ⟨0x6003C, 16, 16, 0x80, 24, 0x0, 1, 0, .counter, fun _ _ => 0⟩
def ENC_ERR2_WORD_ERR : Fld := ⟨0x60040, 0, 16, 0x80, 24, 0x0, 1, 0, .counter, fun _ _ => 0⟩
def ENC_ERR2_JUMPS : Fld := ⟨0x60040, 16, 16, 0x80, 24, 0x0, 1, 0, .counter, fun _ _ => 0⟩
def EMU_CFG_EN : Fld := ⟨0x61000, 0, 1, 0x20, 8, 0x0, 1, 0, .rw, fun _ _ => 0⟩
def EMU_CFG_GATE : Fld := ⟨0x61000, 1, 1, 0x20, 8, 0x0, 1, 0, .rw, fun _ _ => 0⟩
def EMU_CFG_AXIS : Fld := ⟨0x61000, 2, 6, 0x20, 8, 0x0, 1, 0, .rw, fun _ _ => 0⟩
def EMU_CFG_USE_S : Fld := ⟨0x61000, 8, 1, 0x20, 8, 0x0, 1, 0, .rw, fun _ _ => 0⟩
def EMU_CFG_INVERT : Fld := ⟨0x61000, 9, 1, 0x20, 8, 0x0, 1, 0, .rw, fun _ _ => 0⟩
def EMU_RATIO_RATIO : Fld := ⟨0x61004, 0, 32, 0x20, 8, 0x0, 1, 0, .rw, fun _ _ => 16777216⟩
def EMU_ZPER_Z_PERIOD : Fld := ⟨0x61008, 0, 24, 0x20, 8, 0x0, 1, 0, .rw, fun _ _ => 0⟩
def EMU_ZPH_Z_PHASE : Fld := ⟨0x6100C, 0, 24, 0x20, 8, 0x0, 1, 0, .rw, fun _ _ => 0⟩
def EMU_RATE_MIN_GAP : Fld := ⟨0x61010, 0, 10, 0x20, 8, 0x0, 1, 0, .rw, fun _ _ => 50⟩
def EMU_STAT_OVERRUN : Fld := ⟨0x61014, 0, 1, 0x20, 8, 0x0, 1, 0, .sticky, fun _ _ => 0⟩
def EMU_STAT_RESYNC : Fld := ⟨0x61014, 1, 1, 0x20, 8, 0x0, 1, 0, .own, fun _ _ => 0⟩
def EMU_STAT_BACKLOG : Fld := ⟨0x61014, 2, 16, 0x20, 8, 0x0, 1, 0, .ro, fun _ _ => 0⟩
def EMU_COUNT_E : Fld := ⟨0x61018, 0, 32, 0x20, 8, 0x0, 1, 0, .ro, fun _ _ => 0⟩
/-- Every field of the FEEDBACK block. -/
def block_FEEDBACK : List Fld :=
  [ENC_CFG_MODE, ENC_CFG_SWAP, ENC_CFG_Z_GATE, ENC_CFG_GRAY, ENC_CFG_FILT, ENC_CFG_BITS, ENC_CFG_LEAD, ENC_CFG_CRC_SEL, 
   ENC_CFG_CRC_INV, ENC_SSI_CLK_DIV, ENC_SSI_MONO, ENC_POLL_POLL, ENC_POLL_JUMP_MAX, ENC_IDX_IDX_NOM, ENC_IDX_IDX_TOL, ENC_SPD_WIN_SHIFT, 
   ENC_SPD_PER_AVG, ENC_SPD_SW_UP, ENC_SPD_SW_DN, ENC_SPD_JIT_CONF, ENC_SPD_ERR_MAX, ENC_SPD_STILL_MS, ENC_CNT, ENC_SPEED_SPEED, 
   ENC_STAT_SIG_OK, ENC_STAT_WORD_OK, ENC_STAT_SPD_MODE, ENC_STAT_IDX_REF_VALID, ENC_STAT_REVERSING, ENC_STAT_SPD_SAT, ENC_IDX_REF, ENC_IDX_LAST_LAST_DIFF, 
   ENC_ERR1_ILLEGAL, ENC_ERR1_LINE_FAULTS, ENC_ERR2_WORD_ERR, ENC_ERR2_JUMPS, EMU_CFG_EN, EMU_CFG_GATE, EMU_CFG_AXIS, EMU_CFG_USE_S] ++
  [EMU_CFG_INVERT, EMU_RATIO_RATIO, EMU_ZPER_Z_PERIOD, EMU_ZPH_Z_PHASE, EMU_RATE_MIN_GAP, EMU_STAT_OVERRUN, EMU_STAT_RESYNC, EMU_STAT_BACKLOG, 
   EMU_COUNT_E]

/-! ### CAPSTAN -/

def LOOP_CFG_EN : Fld := ⟨0x68000, 0, 1, 0x40, 128, 0x0, 1, 0, .qs, fun _ _ => 0⟩
def LOOP_CFG_CAP : Fld := ⟨0x68000, 1, 4, 0x40, 128, 0x0, 1, 0, .qs, fun _ _ => 0⟩
def LOOP_CFG_RATE_SHIFT : Fld := ⟨0x68000, 5, 4, 0x40, 128, 0x0, 1, 0, .qs, fun _ _ => 0⟩
def LOOP_CFG_PHASE : Fld := ⟨0x68000, 9, 10, 0x40, 128, 0x0, 1, 0, .qs, fun _ _ => 0⟩
def LOOP_CFG_ON_LOSS : Fld := ⟨0x68000, 19, 1, 0x40, 128, 0x0, 1, 0, .qs, fun _ _ => 1⟩
def LOOP_PROG_FIRST : Fld := ⟨0x68004, 0, 12, 0x40, 128, 0x0, 1, 0, .qs, fun _ _ => 0⟩
def LOOP_PROG_COUNT : Fld := ⟨0x68004, 12, 7, 0x40, 128, 0x0, 1, 0, .qs, fun _ _ => 0⟩
def LOOP_TRIM_TRIM : Fld := ⟨0x68008, 0, 32, 0x40, 128, 0x0, 1, 0, .rw, fun _ _ => 0⟩
def LOOP_STAT_DEADLINE : Fld := ⟨0x6800C, 0, 1, 0x40, 128, 0x0, 1, 0, .sticky, fun _ _ => 0⟩
def LOOP_STAT_ARITH_SAT : Fld := ⟨0x6800C, 1, 1, 0x40, 128, 0x0, 1, 0, .sticky, fun _ _ => 0⟩
def LOOP_STAT_LIMIT : Fld := ⟨0x6800C, 2, 1, 0x40, 128, 0x0, 1, 0, .sticky, fun _ _ => 0⟩
def LOOP_STAT_ORPHAN : Fld := ⟨0x6800C, 3, 1, 0x40, 128, 0x0, 1, 0, .rl, fun _ _ => 0⟩
def LOOP_STAT_ECC : Fld := ⟨0x6800C, 4, 1, 0x40, 128, 0x0, 1, 0, .ro, fun _ _ => 0⟩
def LOOP_STAT_REGION : Fld := ⟨0x6800C, 5, 3, 0x40, 128, 0x0, 1, 0, .ro, fun _ _ => 0⟩
def LOOP_STAT_SAT_BLOCK : Fld := ⟨0x6800C, 8, 6, 0x40, 128, 0x0, 1, 0, .ro, fun _ _ => 0⟩
def LOOP_STAT_TALLY : Fld := ⟨0x6800C, 16, 16, 0x40, 128, 0x0, 1, 0, .ro, fun _ _ => 0⟩
def LOOP_CNT_MISSES : Fld := ⟨0x68010, 0, 16, 0x40, 128, 0x0, 1, 0, .counter, fun _ _ => 0⟩
def LOOP_CNT_SAMPLES : Fld := ⟨0x68010, 16, 16, 0x40, 128, 0x0, 1, 0, .ro, fun _ _ => 0⟩
def LOOP_OUT_OUT : Fld := ⟨0x68014, 0, 32, 0x40, 128, 0x4, 4, 0, .ro, fun _ _ => 0⟩
def CAP_CFG_EN : Fld := ⟨0x6A000, 0, 1, 0x40, 16, 0x0, 1, 0, .qs, fun _ _ => 0⟩
def CAP_CFG_WD_BEATS : Fld := ⟨0x6A000, 1, 3, 0x40, 16, 0x0, 1, 0, .qs, fun _ _ => 1⟩
def CAP_CFG_WD_MISS : Fld := ⟨0x6A000, 4, 4, 0x40, 16, 0x0, 1, 0, .qs, fun _ _ => 4⟩
def CAP_STAT_STATE : Fld := ⟨0x6A004, 0, 3, 0x40, 16, 0x0, 1, 0, .ro, fun _ _ => 0⟩
def CAP_STAT_BEAT : Fld := ⟨0x6A004, 3, 1, 0x40, 16, 0x0, 1, 0, .rl, fun _ _ => 0⟩
def CAP_STAT_LOAD : Fld := ⟨0x6A004, 16, 12, 0x40, 16, 0x0, 1, 0, .ro, fun _ _ => 0⟩
def CAP_TALLY_TALLY : Fld := ⟨0x6A008, 0, 16, 0x40, 16, 0x0, 1, 0, .ro, fun _ _ => 0⟩
def CAP_TALLY_NEXT : Fld := ⟨0x6A008, 16, 16, 0x40, 16, 0x0, 1, 0, .ro, fun _ _ => 1⟩
def CAP_CNT_DEATHS : Fld := ⟨0x6A00C, 0, 16, 0x40, 16, 0x0, 1, 0, .counter, fun _ _ => 0⟩
def CAP_CNT_STALE_WRITES : Fld := ⟨0x6A00C, 16, 16, 0x40, 16, 0x0, 1, 0, .counter, fun _ _ => 0⟩
def LOOP_SIG : Fld := ⟨0x6C000, 0, 32, 0x80, 128, 0x4, 32, 0, .ro, fun _ _ => 0⟩
/-- Every field of the CAPSTAN block. -/
def block_CAPSTAN : List Fld :=
  [LOOP_CFG_EN, LOOP_CFG_CAP, LOOP_CFG_RATE_SHIFT, LOOP_CFG_PHASE, LOOP_CFG_ON_LOSS, LOOP_PROG_FIRST, LOOP_PROG_COUNT, LOOP_TRIM_TRIM, 
   LOOP_STAT_DEADLINE, LOOP_STAT_ARITH_SAT, LOOP_STAT_LIMIT, LOOP_STAT_ORPHAN, LOOP_STAT_ECC, LOOP_STAT_REGION, LOOP_STAT_SAT_BLOCK, LOOP_STAT_TALLY, 
   LOOP_CNT_MISSES, LOOP_CNT_SAMPLES, LOOP_OUT_OUT, CAP_CFG_EN, CAP_CFG_WD_BEATS, CAP_CFG_WD_MISS, CAP_STAT_STATE, CAP_STAT_BEAT, 
   CAP_STAT_LOAD, CAP_TALLY_TALLY, CAP_TALLY_NEXT, CAP_CNT_DEATHS, CAP_CNT_STALE_WRITES, LOOP_SIG]

/-! ### HV -/

def HV_CFG_EN : Fld := ⟨0x70000, 0, 1, 0x40, 32, 0x0, 1, 0, .qs, fun _ _ => 0⟩
def HV_CFG_LOOP : Fld := ⟨0x70000, 1, 7, 0x40, 32, 0x0, 1, 0, .qs, fun _ _ => 0⟩
def HV_CFG_REF_IDX : Fld := ⟨0x70000, 8, 8, 0x40, 32, 0x0, 1, 0, .qs, fun _ _ => 0⟩
def HV_CFG_FB_IN : Fld := ⟨0x70000, 16, 6, 0x40, 32, 0x0, 1, 0, .qs, fun _ _ => 0⟩
def HV_CFG_POL : Fld := ⟨0x70000, 22, 1, 0x40, 32, 0x0, 1, 0, .qs, fun _ _ => 0⟩
def HV_PWM_PERIOD : Fld := ⟨0x70004, 0, 14, 0x40, 32, 0x0, 1, 0, .qs, fun _ _ => 2500⟩
def HV_FB_FB_ZERO : Fld := ⟨0x70008, 0, 12, 0x40, 32, 0x0, 1, 0, .qs, fun _ _ => 0⟩
def HV_FB_FB_MV : Fld := ⟨0x70008, 16, 16, 0x40, 32, 0x0, 1, 0, .qs, fun _ _ => 0⟩
def HV_RAMP_REST : Fld := ⟨0x7000C, 0, 16, 0x40, 32, 0x0, 1, 0, .qs, fun _ _ => 0⟩
def HV_RAMP_STOP_RAMP : Fld := ⟨0x7000C, 16, 16, 0x40, 32, 0x0, 1, 0, .qs, fun _ _ => 100⟩
def HV_ARC_ARC_BLANK : Fld := ⟨0x70010, 0, 8, 0x40, 32, 0x0, 1, 0, .qs, fun _ _ => 4⟩
def HV_ARC_ARC_SOFT : Fld := ⟨0x70010, 8, 8, 0x40, 32, 0x0, 1, 0, .qs, fun _ _ => 16⟩
def HV_ARC_ARC_MAX : Fld := ⟨0x70010, 16, 8, 0x40, 32, 0x0, 1, 0, .qs, fun _ _ => 8⟩
def HV_ARC_ARC_WIN : Fld := ⟨0x70010, 24, 8, 0x40, 32, 0x0, 1, 0, .qs, fun _ _ => 100⟩
def HV_STAT_STATE : Fld := ⟨0x70020, 0, 3, 0x40, 32, 0x0, 1, 0, .ro, fun _ _ => 0⟩
def HV_STAT_AT_TARGET : Fld := ⟨0x70020, 3, 1, 0x40, 32, 0x0, 1, 0, .rl, fun _ _ => 0⟩
def HV_STAT_REF : Fld := ⟨0x70020, 16, 16, 0x40, 32, 0x0, 1, 0, .ro, fun _ _ => 0⟩
def HV_LEVEL_TARGET : Fld := ⟨0x70024, 0, 16, 0x40, 32, 0x0, 1, 0, .ro, fun _ _ => 0⟩
def HV_LEVEL_FB_V : Fld := ⟨0x70024, 16, 16, 0x40, 32, 0x0, 1, 0, .ro, fun _ _ => 0⟩
def HV_CNT_ARCS : Fld := ⟨0x70028, 0, 16, 0x40, 32, 0x0, 1, 0, .counter, fun _ _ => 0⟩
def HV_CNT_CEIL_HITS : Fld := ⟨0x70028, 16, 16, 0x40, 32, 0x0, 1, 0, .counter, fun _ _ => 0⟩
def HV_CTL_REARM : Fld := ⟨0x7002C, 0, 1, 0x40, 32, 0x0, 1, 0, .own, fun _ _ => 0⟩
def HV_CEIL_V_V_CEIL_POS : Fld := ⟨0x72000, 0, 16, 0x10, 32, 0x0, 1, 0, .prot, fun _ _ => 0⟩
def HV_CEIL_V_V_CEIL_NEG : Fld := ⟨0x72000, 16, 16, 0x10, 32, 0x0, 1, 0, .prot, fun _ _ => 0⟩
def HV_CEIL_D_DUTY_CEIL : Fld := ⟨0x72004, 0, 12, 0x10, 32, 0x0, 1, 0, .prot, fun _ _ => 0⟩
def HV_CEIL_D_V_TRIP : Fld := ⟨0x72004, 16, 16, 0x10, 32, 0x0, 1, 0, .prot, fun _ _ => 0⟩
/-- Every field of the HV block. -/
def block_HV : List Fld :=
  [HV_CFG_EN, HV_CFG_LOOP, HV_CFG_REF_IDX, HV_CFG_FB_IN, HV_CFG_POL, HV_PWM_PERIOD, HV_FB_FB_ZERO, HV_FB_FB_MV, 
   HV_RAMP_REST, HV_RAMP_STOP_RAMP, HV_ARC_ARC_BLANK, HV_ARC_ARC_SOFT, HV_ARC_ARC_MAX, HV_ARC_ARC_WIN, HV_STAT_STATE, HV_STAT_AT_TARGET, 
   HV_STAT_REF, HV_LEVEL_TARGET, HV_LEVEL_FB_V, HV_CNT_ARCS, HV_CNT_CEIL_HITS, HV_CTL_REARM, HV_CEIL_V_V_CEIL_POS, HV_CEIL_V_V_CEIL_NEG, 
   HV_CEIL_D_DUTY_CEIL, HV_CEIL_D_V_TRIP]

/-! ### FUSER -/

def HTR_CFG_EN : Fld := ⟨0x74000, 0, 1, 0x40, 4, 0x0, 1, 0, .qs, fun _ _ => 0⟩
def HTR_CFG_LOOP : Fld := ⟨0x74000, 1, 7, 0x40, 4, 0x0, 1, 0, .qs, fun _ _ => 0⟩
def HTR_CFG_REF_IDX : Fld := ⟨0x74000, 8, 8, 0x40, 4, 0x0, 1, 0, .qs, fun _ _ => 0⟩
def HTR_CFG_MODE : Fld := ⟨0x74000, 16, 1, 0x40, 4, 0x0, 1, 0, .qs, fun _ _ => 0⟩
def HTR_CFG_BURST_UNIT : Fld := ⟨0x74000, 17, 1, 0x40, 4, 0x0, 1, 0, .qs, fun _ _ => 0⟩
def HTR_CFG_OUT_KIND : Fld := ⟨0x74000, 18, 1, 0x40, 4, 0x0, 1, 0, .qs, fun _ _ => 0⟩
def HTR_CFG_POL : Fld := ⟨0x74000, 19, 1, 0x40, 4, 0x0, 1, 0, .qs, fun _ _ => 0⟩
def HTR_CFG_SENSOR : Fld := ⟨0x74000, 20, 6, 0x40, 4, 0x0, 1, 0, .qs, fun i _ => 40 + i⟩
def HTR_FIRE_FIRE_OFS : Fld := ⟨0x74004, 0, 16, 0x40, 4, 0x0, 1, 0, .qs, fun _ _ => 0⟩
def HTR_FIRE_GATE_US : Fld := ⟨0x74004, 16, 8, 0x40, 4, 0x0, 1, 0, .qs, fun _ _ => 20⟩
def HTR_ACC_ACC_INIT : Fld := ⟨0x74008, 0, 12, 0x40, 4, 0x0, 1, 0, .qs, fun _ _ => 0⟩
def HTR_STAT_STATE : Fld := ⟨0x74020, 0, 3, 0x40, 4, 0x0, 1, 0, .ro, fun _ _ => 0⟩
def HTR_STAT_ON : Fld := ⟨0x74020, 3, 1, 0x40, 4, 0x0, 1, 0, .rl, fun _ _ => 0⟩
def HTR_STAT_DEMAND : Fld := ⟨0x74020, 16, 12, 0x40, 4, 0x0, 1, 0, .ro, fun _ _ => 0⟩
def HTR_CNT_HALVES_ON : Fld := ⟨0x74024, 0, 16, 0x40, 4, 0x0, 1, 0, .counter, fun _ _ => 0⟩
def HTR_CNT_NOSYNC_HALVES : Fld := ⟨0x74024, 16, 16, 0x40, 4, 0x0, 1, 0, .counter, fun _ _ => 0⟩
def HTR_CTL_REARM : Fld := ⟨0x74028, 0, 1, 0x40, 4, 0x0, 1, 0, .own, fun _ _ => 0⟩
def HTR_CEIL_DUTY_CEIL : Fld := ⟨0x76000, 0, 12, 0x10, 4, 0x0, 1, 0, .prot, fun _ _ => 0⟩
def HTR_CEIL_TEMP_CEIL : Fld := ⟨0x76000, 16, 16, 0x10, 4, 0x0, 1, 0, .prot, fun _ _ => 0⟩
def MAINS_CFG_ZC_DELAY : Fld := ⟨0x77000, 0, 12, 0x0, 1, 0x0, 1, 0, .rw, fun _ _ => 0⟩
def MAINS_CFG_LOCK_N : Fld := ⟨0x77000, 12, 3, 0x0, 1, 0x0, 1, 0, .rw, fun _ _ => 3⟩
def MAINS_CFG_WIN : Fld := ⟨0x77000, 16, 8, 0x0, 1, 0x0, 1, 0, .rw, fun _ _ => 8⟩
def MAINS_STAT_LOCKED : Fld := ⟨0x77004, 0, 1, 0x0, 1, 0x0, 1, 0, .rl, fun _ _ => 0⟩
def MAINS_STAT_PERIOD : Fld := ⟨0x77004, 16, 16, 0x0, 1, 0x0, 1, 0, .ro, fun _ _ => 0⟩
/-- Every field of the FUSER block. -/
def block_FUSER : List Fld :=
  [HTR_CFG_EN, HTR_CFG_LOOP, HTR_CFG_REF_IDX, HTR_CFG_MODE, HTR_CFG_BURST_UNIT, HTR_CFG_OUT_KIND, HTR_CFG_POL, HTR_CFG_SENSOR, 
   HTR_FIRE_FIRE_OFS, HTR_FIRE_GATE_US, HTR_ACC_ACC_INIT, HTR_STAT_STATE, HTR_STAT_ON, HTR_STAT_DEMAND, HTR_CNT_HALVES_ON, HTR_CNT_NOSYNC_HALVES, 
   HTR_CTL_REARM, HTR_CEIL_DUTY_CEIL, HTR_CEIL_TEMP_CEIL, MAINS_CFG_ZC_DELAY, MAINS_CFG_LOCK_N, MAINS_CFG_WIN, MAINS_STAT_LOCKED, MAINS_STAT_PERIOD]

/-! ### THERM -/

def THM_SENS_CFG_ADC_IN : Fld := ⟨0x78000, 0, 6, 0x10, 48, 0x0, 1, 0, .post, fun i _ => if 40 ≤ i then i else 0⟩
def THM_SENS_CFG_CURVE : Fld := ⟨0x78000, 6, 2, 0x10, 48, 0x0, 1, 0, .post, fun _ _ => 0⟩
def THM_SENS_CFG_EN : Fld := ⟨0x78000, 8, 1, 0x10, 48, 0x0, 1, 0, .post, fun i _ => if i < 8 then 1 else 0⟩
def THM_SENS_THR_T_THR : Fld := ⟨0x78004, 0, 16, 0x10, 48, 0x0, 1, 0, .post, fun i _ => if i < 8 then 0x05F0 else 0x7FFF⟩
def THM_SENS_THR_T_SPAN : Fld := ⟨0x78004, 16, 16, 0x10, 48, 0x0, 1, 0, .post, fun _ _ => 160⟩
def THM_SENS_TGT_HTR_MASK : Fld := ⟨0x78008, 0, 4, 0x10, 48, 0x0, 1, 0, .post, fun _ _ => 0⟩
def THM_SENS_TGT_DRV_MASK : Fld := ⟨0x78008, 4, 16, 0x10, 48, 0x0, 1, 0, .post, fun _ _ => 0⟩
def THM_SENS_TGT_HB : Fld := ⟨0x78008, 20, 1, 0x10, 48, 0x0, 1, 0, .post, fun i _ => if i < 8 then 1 else 0⟩
def THM_SENS_STAT_TEMP : Fld := ⟨0x7800C, 0, 16, 0x10, 48, 0x0, 1, 0, .ro, fun _ _ => 32768⟩
def THM_SENS_STAT_BROKEN : Fld := ⟨0x7800C, 16, 1, 0x10, 48, 0x0, 1, 0, .rl, fun _ _ => 1⟩
def THM_SENS_STAT_THROTTLING : Fld := ⟨0x7800C, 17, 1, 0x10, 48, 0x0, 1, 0, .rl, fun _ _ => 0⟩
def THM_SENS_STAT_FACTOR : Fld := ⟨0x7800C, 18, 9, 0x10, 48, 0x0, 1, 0, .ro, fun _ _ => 256⟩
def THM_CURVE_CODE : Fld := ⟨0x78300, 0, 12, 0x40, 4, 0x4, 16, 0, .post, fun _ _ => 0⟩
def THM_CURVE_TEMP : Fld := ⟨0x78300, 16, 16, 0x40, 4, 0x4, 16, 0, .post, fun _ _ => 0⟩
def THM_CFG_THR_MIN : Fld := ⟨0x78400, 0, 9, 0x0, 1, 0x0, 1, 0, .post, fun _ _ => 64⟩
def THM_CFG_THR_HYST : Fld := ⟨0x78400, 16, 8, 0x0, 1, 0x0, 1, 0, .post, fun _ _ => 16⟩
def THM_HW_STAT_DIE_HOLD : Fld := ⟨0x78404, 0, 1, 0x0, 1, 0x0, 1, 0, .rl, fun _ _ => 0⟩
def THM_HW_STAT_DIE_TRIPPED : Fld := ⟨0x78404, 1, 1, 0x0, 1, 0x0, 1, 0, .sticky, fun _ _ => 0⟩
def THM_HW_STAT_FUS_HOLD : Fld := ⟨0x78404, 4, 8, 0x0, 1, 0x0, 1, 0, .rl, fun _ _ => 0⟩
def THM_HW_STAT_FUS_TRIPPED : Fld := ⟨0x78404, 12, 8, 0x0, 1, 0x0, 1, 0, .sticky, fun _ _ => 0⟩
def THM_HW_STAT_CURVE_BAD : Fld := ⟨0x78404, 20, 4, 0x0, 1, 0x0, 1, 0, .rl, fun _ _ => 15⟩
def THM_FUS_CMP_LO : Fld := ⟨0x78410, 0, 12, 0x4, 8, 0x0, 1, 0, .wl, fun _ _ => 0⟩
def THM_FUS_CMP_HI : Fld := ⟨0x78410, 12, 12, 0x4, 8, 0x0, 1, 0, .wl, fun _ _ => 0⟩
def THM_FUS_CMP_HTR_MASK : Fld := ⟨0x78410, 24, 4, 0x4, 8, 0x0, 1, 0, .wl, fun _ _ => 0⟩
def THM_DROOP_DROOP_MV : Fld := ⟨0x78430, 0, 10, 0x0, 1, 0x0, 1, 0, .post, fun _ _ => 700⟩
def THM_DROOP_DROOP_SIXT : Fld := ⟨0x78430, 10, 5, 0x0, 1, 0x0, 1, 0, .post, fun _ _ => 8⟩
def THM_DROOP_DROOP_HOLD : Fld := ⟨0x78430, 16, 8, 0x0, 1, 0x0, 1, 0, .post, fun _ _ => 10⟩
def THM_DROOP_CNT_EVENTS : Fld := ⟨0x78434, 0, 32, 0x0, 1, 0x0, 1, 0, .counter, fun _ _ => 0⟩
def THM_THR_THR : Fld := ⟨0x78440, 0, 9, 0x4, 20, 0x0, 1, 0, .ro, fun _ _ => 256⟩
def THERM_POST_STAT_BUSY : Fld := ⟨0x78FFC, 0, 1, 0x0, 1, 0x0, 1, 0, .ro, fun _ _ => 0⟩
def THERM_POST_STAT_DROP : Fld := ⟨0x78FFC, 1, 1, 0x0, 1, 0x0, 1, 0, .sticky, fun _ _ => 0⟩
/-- Every field of the THERM block. -/
def block_THERM : List Fld :=
  [THM_SENS_CFG_ADC_IN, THM_SENS_CFG_CURVE, THM_SENS_CFG_EN, THM_SENS_THR_T_THR, THM_SENS_THR_T_SPAN, THM_SENS_TGT_HTR_MASK, THM_SENS_TGT_DRV_MASK, THM_SENS_TGT_HB, 
   THM_SENS_STAT_TEMP, THM_SENS_STAT_BROKEN, THM_SENS_STAT_THROTTLING, THM_SENS_STAT_FACTOR, THM_CURVE_CODE, THM_CURVE_TEMP, THM_CFG_THR_MIN, THM_CFG_THR_HYST, 
   THM_HW_STAT_DIE_HOLD, THM_HW_STAT_DIE_TRIPPED, THM_HW_STAT_FUS_HOLD, THM_HW_STAT_FUS_TRIPPED, THM_HW_STAT_CURVE_BAD, THM_FUS_CMP_LO, THM_FUS_CMP_HI, THM_FUS_CMP_HTR_MASK, 
   THM_DROOP_DROOP_MV, THM_DROOP_DROOP_SIXT, THM_DROOP_DROOP_HOLD, THM_DROOP_CNT_EVENTS, THM_THR_THR, THERM_POST_STAT_BUSY, THERM_POST_STAT_DROP]

/-! ### SEQ -/

def RAIL_CFG_EN : Fld := ⟨0x7C000, 0, 1, 0x20, 16, 0x0, 1, 0, .post, fun _ _ => 0⟩
def RAIL_CFG_STAGE_ON : Fld := ⟨0x7C000, 1, 6, 0x20, 16, 0x0, 1, 0, .post, fun _ _ => 0⟩
def RAIL_CFG_STAGE_OFF : Fld := ⟨0x7C000, 7, 6, 0x20, 16, 0x0, 1, 0, .post, fun _ _ => 0⟩
def RAIL_CFG_SNS_IN : Fld := ⟨0x7C000, 13, 6, 0x20, 16, 0x0, 1, 0, .post, fun _ _ => 0⟩
def RAIL_CFG_KEEP_MOORED : Fld := ⟨0x7C000, 19, 1, 0x20, 16, 0x0, 1, 0, .post, fun _ _ => 0⟩
def RAIL_CFG_EN_POL : Fld := ⟨0x7C000, 20, 1, 0x20, 16, 0x0, 1, 0, .post, fun _ _ => 0⟩
def RAIL_SCALE_SCALE : Fld := ⟨0x7C004, 0, 16, 0x20, 16, 0x0, 1, 0, .post, fun _ _ => 0⟩
def RAIL_LVL1_GOOD_MV : Fld := ⟨0x7C008, 0, 16, 0x20, 16, 0x0, 1, 0, .post, fun _ _ => 0⟩
def RAIL_LVL1_OFF_MV : Fld := ⟨0x7C008, 16, 16, 0x20, 16, 0x0, 1, 0, .post, fun _ _ => 0⟩
def RAIL_LVL2_LO_MV : Fld := ⟨0x7C00C, 0, 16, 0x20, 16, 0x0, 1, 0, .post, fun _ _ => 0⟩
def RAIL_LVL2_HI_MV : Fld := ⟨0x7C00C, 16, 16, 0x20, 16, 0x0, 1, 0, .post, fun _ _ => 65535⟩
def RAIL_TIME_T_UP : Fld := ⟨0x7C010, 0, 8, 0x20, 16, 0x0, 1, 0, .post, fun _ _ => 10⟩
def RAIL_TIME_T_DOWN : Fld := ⟨0x7C010, 8, 8, 0x20, 16, 0x0, 1, 0, .post, fun _ _ => 10⟩
def RAIL_TIME_FLT_US : Fld := ⟨0x7C010, 16, 16, 0x20, 16, 0x0, 1, 0, .post, fun _ _ => 100⟩
def RAIL_STAT_ON : Fld := ⟨0x7C014, 0, 1, 0x20, 16, 0x0, 1, 0, .rl, fun _ _ => 0⟩
def RAIL_STAT_GOOD : Fld := ⟨0x7C014, 1, 1, 0x20, 16, 0x0, 1, 0, .rl, fun _ _ => 0⟩
def RAIL_STAT_UP_FAIL : Fld := ⟨0x7C014, 2, 1, 0x20, 16, 0x0, 1, 0, .sticky, fun _ _ => 0⟩
def RAIL_STAT_DOWN_TMO : Fld := ⟨0x7C014, 3, 1, 0x20, 16, 0x0, 1, 0, .sticky, fun _ _ => 0⟩
def RAIL_STAT_RUN_FAULT : Fld := ⟨0x7C014, 4, 1, 0x20, 16, 0x0, 1, 0, .sticky, fun _ _ => 0⟩
def RAIL_STAT_MV : Fld := ⟨0x7C014, 16, 16, 0x20, 16, 0x0, 1, 0, .ro, fun _ _ => 0⟩
def SEQ_CFG_SEQBELL_EN : Fld := ⟨0x7C200, 0, 1, 0x0, 1, 0x0, 1, 0, .post, fun _ _ => 0⟩
def SEQ_CFG_T_SHUT : Fld := ⟨0x7C200, 1, 7, 0x0, 1, 0x0, 1, 0, .post, fun _ _ => 10⟩
def SEQ_CFG_AUTO_RESTART : Fld := ⟨0x7C200, 8, 1, 0x0, 1, 0x0, 1, 0, .post, fun _ _ => 0⟩
def SEQ_CFG_DWELL : Fld := ⟨0x7C200, 9, 7, 0x0, 1, 0x0, 1, 0, .post, fun _ _ => 10⟩
def SEQ_CFG_T_OFF_MIN : Fld := ⟨0x7C200, 16, 16, 0x0, 1, 0x0, 1, 0, .post, fun _ _ => 500⟩
def SEQ_PFAIL_PFAIL_MV : Fld := ⟨0x7C204, 0, 10, 0x0, 1, 0x0, 1, 0, .post, fun _ _ => 850⟩
def SEQ_PFAIL_PFAIL_US : Fld := ⟨0x7C204, 10, 8, 0x0, 1, 0x0, 1, 0, .post, fun _ _ => 20⟩
def SEQ_CTL_GO : Fld := ⟨0x7C208, 0, 1, 0x0, 1, 0x0, 1, 0, .own, fun _ _ => 0⟩
def SEQ_CTL_DOWN : Fld := ⟨0x7C208, 1, 1, 0x0, 1, 0x0, 1, 0, .own, fun _ _ => 0⟩
def SEQ_STAT_STATE : Fld := ⟨0x7C20C, 0, 3, 0x0, 1, 0x0, 1, 0, .ro, fun _ _ => 0⟩
def SEQ_STAT_STAGE : Fld := ⟨0x7C20C, 3, 6, 0x0, 1, 0x0, 1, 0, .ro, fun _ _ => 0⟩
def SEQ_STAT_EBB : Fld := ⟨0x7C20C, 9, 1, 0x0, 1, 0x0, 1, 0, .rl, fun _ _ => 0⟩
def SEQ_STAT_INPUT_GOOD : Fld := ⟨0x7C20C, 10, 1, 0x0, 1, 0x0, 1, 0, .rl, fun _ _ => 0⟩
def SEQ_STAT_BELL : Fld := ⟨0x7C20C, 11, 1, 0x0, 1, 0x0, 1, 0, .rl, fun _ _ => 0⟩
def SEQ_STAT_CAUSE : Fld := ⟨0x7C20C, 12, 3, 0x0, 1, 0x0, 1, 0, .ro, fun _ _ => 0⟩
def SEQ_CNT_EBBS : Fld := ⟨0x7C210, 0, 16, 0x0, 1, 0x0, 1, 0, .counter, fun _ _ => 0⟩
def SEQ_CNT_BELL_GLITCH : Fld := ⟨0x7C210, 16, 16, 0x0, 1, 0x0, 1, 0, .counter, fun _ _ => 0⟩
def SEQ_POST_STAT_BUSY : Fld := ⟨0x7CFFC, 0, 1, 0x0, 1, 0x0, 1, 0, .ro, fun _ _ => 0⟩
def SEQ_POST_STAT_DROP : Fld := ⟨0x7CFFC, 1, 1, 0x0, 1, 0x0, 1, 0, .sticky, fun _ _ => 0⟩
/-- Every field of the SEQ block. -/
def block_SEQ : List Fld :=
  [RAIL_CFG_EN, RAIL_CFG_STAGE_ON, RAIL_CFG_STAGE_OFF, RAIL_CFG_SNS_IN, RAIL_CFG_KEEP_MOORED, RAIL_CFG_EN_POL, RAIL_SCALE_SCALE, RAIL_LVL1_GOOD_MV, 
   RAIL_LVL1_OFF_MV, RAIL_LVL2_LO_MV, RAIL_LVL2_HI_MV, RAIL_TIME_T_UP, RAIL_TIME_T_DOWN, RAIL_TIME_FLT_US, RAIL_STAT_ON, RAIL_STAT_GOOD, 
   RAIL_STAT_UP_FAIL, RAIL_STAT_DOWN_TMO, RAIL_STAT_RUN_FAULT, RAIL_STAT_MV, SEQ_CFG_SEQBELL_EN, SEQ_CFG_T_SHUT, SEQ_CFG_AUTO_RESTART, SEQ_CFG_DWELL, 
   SEQ_CFG_T_OFF_MIN, SEQ_PFAIL_PFAIL_MV, SEQ_PFAIL_PFAIL_US, SEQ_CTL_GO, SEQ_CTL_DOWN, SEQ_STAT_STATE, SEQ_STAT_STAGE, SEQ_STAT_EBB, 
   SEQ_STAT_INPUT_GOOD, SEQ_STAT_BELL, SEQ_STAT_CAUSE, SEQ_CNT_EBBS, SEQ_CNT_BELL_GLITCH, SEQ_POST_STAT_BUSY, SEQ_POST_STAT_DROP]

/-! ### PWRMODE -/

def PWR_REQ_MODE : Fld := ⟨0x90000, 0, 2, 0x0, 1, 0x0, 1, 0, .own, fun _ _ => 0⟩
def PWR_WAKE_DOORBELL_EN : Fld := ⟨0x90004, 0, 1, 0x0, 1, 0x0, 1, 0, .post, fun _ _ => 1⟩
def PWR_WAKE_PIN_EN : Fld := ⟨0x90004, 1, 1, 0x0, 1, 0x0, 1, 0, .post, fun _ _ => 1⟩
def PWR_WAKE_FENLINK_EN : Fld := ⟨0x90004, 2, 1, 0x0, 1, 0x0, 1, 0, .post, fun _ _ => 1⟩
def PWR_WAKE_WAKE_TO : Fld := ⟨0x90004, 3, 1, 0x0, 1, 0x0, 1, 0, .post, fun _ _ => 0⟩
def PWR_STAT_MODE : Fld := ⟨0x90008, 0, 2, 0x0, 1, 0x0, 1, 0, .ro, fun _ _ => 0⟩
def PWR_STAT_CHANGING : Fld := ⟨0x90008, 2, 1, 0x0, 1, 0x0, 1, 0, .rl, fun _ _ => 0⟩
def PWR_STAT_HELD : Fld := ⟨0x90008, 3, 1, 0x0, 1, 0x0, 1, 0, .rl, fun _ _ => 0⟩
def PWR_STAT_LAST_WAKE : Fld := ⟨0x90008, 4, 4, 0x0, 1, 0x0, 1, 0, .ro, fun _ _ => 0⟩
def PWR_STAT_ASLEEP_ACCESS : Fld := ⟨0x90008, 8, 1, 0x0, 1, 0x0, 1, 0, .sticky, fun _ _ => 0⟩
def PWR_TIME_LAST_CHANGE_US : Fld := ⟨0x9000C, 0, 32, 0x0, 1, 0x0, 1, 0, .ro, fun _ _ => 0⟩
def PWRMODE_POST_STAT_BUSY : Fld := ⟨0x90FFC, 0, 1, 0x0, 1, 0x0, 1, 0, .ro, fun _ _ => 0⟩
def PWRMODE_POST_STAT_DROP : Fld := ⟨0x90FFC, 1, 1, 0x0, 1, 0x0, 1, 0, .sticky, fun _ _ => 0⟩
/-- Every field of the PWRMODE block. -/
def block_PWRMODE : List Fld :=
  [PWR_REQ_MODE, PWR_WAKE_DOORBELL_EN, PWR_WAKE_PIN_EN, PWR_WAKE_FENLINK_EN, PWR_WAKE_WAKE_TO, PWR_STAT_MODE, PWR_STAT_CHANGING, PWR_STAT_HELD, 
   PWR_STAT_LAST_WAKE, PWR_STAT_ASLEEP_ACCESS, PWR_TIME_LAST_CHANGE_US, PWRMODE_POST_STAT_BUSY, PWRMODE_POST_STAT_DROP]

/-! ### FENLINK -/

def FL_CFG_EN : Fld := ⟨0x80000, 0, 1, 0x100, 4, 0x0, 1, 0, .qs, fun _ _ => 0⟩
def FL_CFG_GEN : Fld := ⟨0x80000, 1, 1, 0x100, 4, 0x0, 1, 0, .qs, fun _ _ => 0⟩
def FL_CFG_CYCLE_US : Fld := ⟨0x80000, 2, 11, 0x100, 4, 0x0, 1, 0, .qs, fun _ _ => 250⟩
def FL_CFG_REPLY_US : Fld := ⟨0x80000, 13, 10, 0x100, 4, 0x0, 1, 0, .qs, fun _ _ => 200⟩
def FL_CFG_MOOR_POLL_MS : Fld := ⟨0x80000, 23, 8, 0x100, 4, 0x0, 1, 0, .qs, fun _ _ => 20⟩
def FL_STAT_RUNNING : Fld := ⟨0x80004, 0, 1, 0x100, 4, 0x0, 1, 0, .rl, fun _ _ => 0⟩
def FL_STAT_MOORED : Fld := ⟨0x80004, 1, 1, 0x100, 4, 0x0, 1, 0, .rl, fun _ _ => 0⟩
def FL_STAT_ADMITTED : Fld := ⟨0x80004, 2, 8, 0x100, 4, 0x0, 1, 0, .ro, fun _ _ => 0⟩
def FL_STAT_BOOMED : Fld := ⟨0x80004, 10, 8, 0x100, 4, 0x0, 1, 0, .ro, fun _ _ => 0⟩
def FL_STAT_SLOTS : Fld := ⟨0x80004, 18, 7, 0x100, 4, 0x0, 1, 0, .ro, fun _ _ => 0⟩
def FL_CYCLE_CYCLE : Fld := ⟨0x80008, 0, 16, 0x100, 4, 0x0, 1, 0, .ro, fun _ _ => 0⟩
def FL_CYCLE_ROUND_US : Fld := ⟨0x80008, 16, 16, 0x100, 4, 0x0, 1, 0, .ro, fun _ _ => 0⟩
def FL_TALLY_NEXT : Fld := ⟨0x8000C, 0, 16, 0x100, 4, 0x0, 1, 0, .ro, fun _ _ => 1⟩
def FL_CNT1_CRC_ERR : Fld := ⟨0x80010, 0, 16, 0x100, 4, 0x0, 1, 0, .counter, fun _ _ => 0⟩
def FL_CNT1_MISSED : Fld := ⟨0x80010, 16, 16, 0x100, 4, 0x0, 1, 0, .counter, fun _ _ => 0⟩
def FL_CNT2_STRANGERS : Fld := ⟨0x80014, 0, 16, 0x100, 4, 0x0, 1, 0, .counter, fun _ _ => 0⟩
def FL_CNT2_STALE : Fld := ⟨0x80014, 16, 16, 0x100, 4, 0x0, 1, 0, .counter, fun _ _ => 0⟩
def FL_CNT3_CONV_FAIL : Fld := ⟨0x80018, 0, 16, 0x100, 4, 0x0, 1, 0, .counter, fun _ _ => 0⟩
def FL_CNT3_EDGE_OVF : Fld := ⟨0x80018, 16, 16, 0x100, 4, 0x0, 1, 0, .counter, fun _ _ => 0⟩
def FL_NODE_LISTED : Fld := ⟨0x81000, 0, 1, 0x1000, 4, 0x4, 256, 0, .ro, fun _ _ => 0⟩
def FL_NODE_ADMITTED : Fld := ⟨0x81000, 1, 1, 0x1000, 4, 0x4, 256, 0, .rl, fun _ _ => 0⟩
def FL_NODE_BOOMED : Fld := ⟨0x81000, 2, 1, 0x1000, 4, 0x4, 256, 0, .ro, fun _ _ => 0⟩
def FL_NODE_STALE_SEEN : Fld := ⟨0x81000, 3, 1, 0x1000, 4, 0x4, 256, 0, .sticky, fun _ _ => 0⟩
def FL_NODE_IN : Fld := ⟨0x81000, 4, 8, 0x1000, 4, 0x4, 256, 0, .ro, fun _ _ => 0⟩
def FL_NODE_OUT : Fld := ⟨0x81000, 12, 8, 0x1000, 4, 0x4, 256, 0, .rw, fun _ _ => 0⟩
def FL_NODE_MISSES : Fld := ⟨0x81000, 20, 2, 0x1000, 4, 0x4, 256, 0, .ro, fun _ _ => 0⟩
def FL_NODE_TALLY_TALLY : Fld := ⟨0x81400, 0, 16, 0x1000, 4, 0x4, 256, 0, .ro, fun _ _ => 0⟩
def FL_NODE_ID_UNIT_ID : Fld := ⟨0x81800, 0, 32, 0x1000, 4, 0x4, 256, 0, .ro, fun _ _ => 0⟩
/-- Every field of the FENLINK block. -/
def block_FENLINK : List Fld :=
  [FL_CFG_EN, FL_CFG_GEN, FL_CFG_CYCLE_US, FL_CFG_REPLY_US, FL_CFG_MOOR_POLL_MS, FL_STAT_RUNNING, FL_STAT_MOORED, FL_STAT_ADMITTED, 
   FL_STAT_BOOMED, FL_STAT_SLOTS, FL_CYCLE_CYCLE, FL_CYCLE_ROUND_US, FL_TALLY_NEXT, FL_CNT1_CRC_ERR, FL_CNT1_MISSED, FL_CNT2_STRANGERS, 
   FL_CNT2_STALE, FL_CNT3_CONV_FAIL, FL_CNT3_EDGE_OVF, FL_NODE_LISTED, FL_NODE_ADMITTED, FL_NODE_BOOMED, FL_NODE_STALE_SEEN, FL_NODE_IN, 
   FL_NODE_OUT, FL_NODE_MISSES, FL_NODE_TALLY_TALLY, FL_NODE_ID_UNIT_ID]

/-! ### FAULT -/

def FLT_LATCH : Fld := ⟨0x88000, 0, 64, 0x0, 1, 0x0, 1, 0, .own, fun _ _ => 0⟩
def FLT_LIVE : Fld := ⟨0x88008, 0, 64, 0x0, 1, 0x0, 1, 0, .rl, fun _ _ => 0⟩
def FLT_GRAVE : Fld := ⟨0x88010, 0, 64, 0x0, 1, 0x0, 1, 0, .ro, fun _ _ => 0⟩
def FLT_SUMMARY_A : Fld := ⟨0x88020, 0, 1, 0x0, 1, 0x0, 1, 0, .rl, fun _ _ => 0⟩
def FLT_SUMMARY_B : Fld := ⟨0x88020, 1, 1, 0x0, 1, 0x0, 1, 0, .rl, fun _ _ => 0⟩
def FLT_SUMMARY_C : Fld := ⟨0x88020, 2, 1, 0x0, 1, 0x0, 1, 0, .rl, fun _ _ => 0⟩
def FLT_SUMMARY_D : Fld := ⟨0x88020, 3, 1, 0x0, 1, 0x0, 1, 0, .rl, fun _ _ => 0⟩
def FLT_SUMMARY_LANTERN_RUN : Fld := ⟨0x88020, 4, 1, 0x0, 1, 0x0, 1, 0, .rl, fun _ _ => 0⟩
def FLT_SUMMARY_WD_ARMED : Fld := ⟨0x88020, 5, 1, 0x0, 1, 0x0, 1, 0, .rl, fun _ _ => 0⟩
def FLT_SUMMARY_CLR_REFUSED : Fld := ⟨0x88020, 6, 1, 0x0, 1, 0x0, 1, 0, .postSticky, fun _ _ => 0⟩
def FLT_CLASS_MAP_CLASS : Fld := ⟨0x88040, 0, 2, 0x4, 4, 0x0, 16, 2, .prot, fun i j => classReset (16 * i + j)⟩
def FLT_EXT_CFG_PAIR_EN : Fld := ⟨0x88060, 0, 8, 0x0, 1, 0x0, 1, 0, .post, fun _ _ => 0⟩
def FLT_EXT_CFG_EXT_FILT : Fld := ⟨0x88060, 8, 8, 0x0, 1, 0x0, 1, 0, .post, fun _ _ => 10⟩
def FLT_EXT_CFG_BRK_FILT : Fld := ⟨0x88060, 16, 5, 0x0, 1, 0x0, 1, 0, .post, fun _ _ => 20⟩
def FLT_EXT_STAT_FAULT : Fld := ⟨0x88064, 0, 8, 0x0, 1, 0x0, 1, 0, .rl, fun _ _ => 0⟩
def FLT_EXT_STAT_BROKEN : Fld := ⟨0x88064, 8, 8, 0x0, 1, 0x0, 1, 0, .rl, fun _ _ => 0⟩
def FLT_TMO_DESC_FETCH_MS : Fld := ⟨0x88070, 0, 10, 0x0, 1, 0x0, 1, 0, .post, fun _ _ => 100⟩
def FLT_TMO_DRAIN_US : Fld := ⟨0x88070, 16, 14, 0x0, 1, 0x0, 1, 0, .post, fun _ _ => 1000⟩
def FLT_WD_WD_MS : Fld := ⟨0x88080, 0, 10, 0x0, 1, 0x0, 1, 0, .wl, fun _ _ => 100⟩
def FLT_WD_LAPSES : Fld := ⟨0x88080, 16, 16, 0x0, 1, 0x0, 1, 0, .ro, fun _ _ => 0⟩
def FAULT_POST_STAT_BUSY : Fld := ⟨0x88FFC, 0, 1, 0x0, 1, 0x0, 1, 0, .ro, fun _ _ => 0⟩
def FAULT_POST_STAT_DROP : Fld := ⟨0x88FFC, 1, 1, 0x0, 1, 0x0, 1, 0, .sticky, fun _ _ => 0⟩
/-- Every field of the FAULT block. -/
def block_FAULT : List Fld :=
  [FLT_LATCH, FLT_LIVE, FLT_GRAVE, FLT_SUMMARY_A, FLT_SUMMARY_B, FLT_SUMMARY_C, FLT_SUMMARY_D, FLT_SUMMARY_LANTERN_RUN, 
   FLT_SUMMARY_WD_ARMED, FLT_SUMMARY_CLR_REFUSED, FLT_CLASS_MAP_CLASS, FLT_EXT_CFG_PAIR_EN, FLT_EXT_CFG_EXT_FILT, FLT_EXT_CFG_BRK_FILT, FLT_EXT_STAT_FAULT, FLT_EXT_STAT_BROKEN, 
   FLT_TMO_DESC_FETCH_MS, FLT_TMO_DRAIN_US, FLT_WD_WD_MS, FLT_WD_LAPSES, FAULT_POST_STAT_BUSY, FAULT_POST_STAT_DROP]

/-! ### LIGHTER -/

def LT_CFG_IRQ_EN : Fld := ⟨0x8000, 0, 1, 0x40, 32, 0x0, 1, 0, .rw, fun _ _ => 0⟩
def LT_STAT_BUSY : Fld := ⟨0x8004, 0, 1, 0x40, 32, 0x0, 1, 0, .rl, fun _ _ => 0⟩
def LT_STAT_WAIT_SPACE : Fld := ⟨0x8004, 1, 1, 0x40, 32, 0x0, 1, 0, .rl, fun _ _ => 0⟩
def LT_STAT_DESCENDING : Fld := ⟨0x8004, 2, 1, 0x40, 32, 0x0, 1, 0, .rl, fun _ _ => 0⟩
def LT_STAT_QUEUED : Fld := ⟨0x8004, 8, 8, 0x40, 32, 0x0, 1, 0, .ro, fun _ _ => 0⟩
def LT_BYTES : Fld := ⟨0x8008, 0, 64, 0x40, 32, 0x0, 1, 0, .counter, fun _ _ => 0⟩
def LT_NEXT_LINE_LINE : Fld := ⟨0x8010, 0, 24, 0x40, 32, 0x0, 1, 0, .ro, fun _ _ => 0⟩
def LT_RCRC_CRC : Fld := ⟨0x8014, 0, 32, 0x40, 32, 0x0, 1, 0, .ro, fun _ _ => 0⟩
def LT_RCRX_CRX : Fld := ⟨0x8018, 0, 32, 0x40, 32, 0x0, 1, 0, .ro, fun _ _ => 0⟩
def LT_ERR_READ_FAIL : Fld := ⟨0x801C, 0, 16, 0x40, 32, 0x0, 1, 0, .counter, fun _ _ => 0⟩
def LT_ERR_ABORTS : Fld := ⟨0x801C, 16, 16, 0x40, 32, 0x0, 1, 0, .counter, fun _ _ => 0⟩
/-- Every field of the LIGHTER block. -/
def block_LIGHTER : List Fld :=
  [LT_CFG_IRQ_EN, LT_STAT_BUSY, LT_STAT_WAIT_SPACE, LT_STAT_DESCENDING, LT_STAT_QUEUED, LT_BYTES, LT_NEXT_LINE_LINE, LT_RCRC_CRC, 
   LT_RCRX_CRX, LT_ERR_READ_FAIL, LT_ERR_ABORTS]

end Reg

end Sys2Proof.Machine
end

