-- ==== Sys2Proof/Machine/State.lean ====
section
/-! DEFINITION. The state of the LV6240: every register, store, queue, counter, mode and pin the manual gives it, as plain
data, with the queue of waiting commands. BAR0 fields stand in `regs` (and, for QS fields, in the quay set `quay` and the live
set `live`); the structures below hold the state that no register shows. `State.reset` is the device in reset, RST_N
still low (log 4). -/

namespace Sys2Proof.Machine

/-- No command faults: a block has no exception entry, and every row of the table has an effect (safe: nothing stops). -/
inductive Fault where
deriving DecidableEq, Repr

/-- Why a command has no meaning. -/
inductive Refusal where
  /-- Raised by `exec` for a command that has no meaning yet (safe: the run stops). -/
  | notModelled (mnemonic : String)
deriving DecidableEq, Repr

/-- A descriptor that has started and not completed: its ring, the event ring and function its record goes to (R49), itself. -/
structure Job where
  ring : Nat
  eq : Nat
  pf : Nat
  d : Desc
deriving DecidableEq, Repr

/-- What a submission ring holds on chip (R38–R41): accepted descriptors not started, the number started and incomplete, the
time the first descriptor of an incomplete chain began to wait, how many descriptors the chain has, and for how long that wait did not run (R391), the descriptors read of a chain not yet read whole (R38), the
manifest chain under assembly (R100). -/
structure SqSt where
  accepted : List Desc
  part : List Desc
  running : Nat
  chainAt : Option Nat
  chainNeed : Nat
  chainLost : Nat
  manifest : List Job
deriving DecidableEq, Repr

/-- What an event ring holds on chip: its share of the staging buffer (R14), records lost and owed to it as a loss record
(R49), records written since its last signal and the time of the first (R50), records produced into holdover (R56), messages ordered
behind a record (R349): records still ahead of it, function, vector. -/
structure EqSt where
  share : List Rec
  owed : Nat
  unsig : Nat
  unsigAt : Option Nat
  held : Bool
  sigs : List (Nat × Nat × Nat)
deriving DecidableEq, Repr

/-- A function: Bus Master Enable (R391), MSI-X enable and pending bits (R31), a requested function-level reset (R56),
when Bus Master Enable last fell; the reset requested is a hot reset or a fall of the link (R58). -/
structure PfSt where
  bme : Bool
  msixEn : Bool
  pba : Nat
  flr : Bool
  offAt : Nat
  hot : Bool
deriving DecidableEq, Repr

/-- A pending commit (R70–R73): UNITS, BOUND, stations of GAP or LINEGROUP, axis, the next REV multiple and the counts per
revolution, time of acceptance, the edge at which its boundary was last tried, deadline, the snapshot of the named units' quay sets, units whose quay was written since, the
heads that take its levels before it applies, and those of them that have not read back equal yet (R191). -/
structure Commit where
  job : Job
  units : Nat
  bound : Nat
  stns : Nat
  axis : Nat
  goal : Nat
  rev : Nat
  acc : Nat
  tried : Option Nat
  deadline : Nat
  snap : Tbl Nat
  late : Nat
  heads : Nat
  left : Nat
deriving DecidableEq, Repr

/-- A word of a posting stage (R62): byte offset and value; a read of the block has followed it (R63); the source it came through,
and the submission rings whose doorbell that function wrote after it, as a mask (R69). -/
structure Posted where
  off : Nat
  val : Nat
  seen : Bool
  src : Port
  rung : Nat
deriving DecidableEq, Repr

/-- The boot ROM and the ferryman (R26, R353–R361): RST_N low, the strap and banks sampled, ferryman running, watchdog armed
and when last re-armed, boot failed, the images of the two banks, protection hash of the booted image, a re-arm awaited after
a lapse, the pending image switch and its deadline, the deadline of a handover's first re-arm and its job. -/
structure Boot where
  rstLow : Bool
  reading : Option Nat
  running : Bool
  wdArmed : Bool
  wdAt : Nat
  lapsed : Bool
  protHash : List Byte
  bank0 : List Byte
  bank1 : List Byte
  armBy : Option Nat
  armJob : Option Job
  switch : Option (Job × Nat)
deriving DecidableEq, Repr

/-- The OTP (R357): the key hashes of the four slots, `none` where blank; revoked slots; fused epoch. -/
structure Otp where
  keys : List (Option (List Byte))
  revoked : Nat
  epoch : Nat
deriving DecidableEq, Repr

/-- A chart crossing slot (R54). -/
structure ChartSlot where
  crx : Nat
  state : Nat
  status : Nat
  stations : Nat
  castPos : Nat
  castAxis : Nat
  stateTime : Nat
  spoil : Nat
deriving DecidableEq, Repr

/-- A chart station entry (R54). -/
structure ChartStn where
  status : Nat
  crx : Nat
  line : Nat
  fill : Nat
  subst : Nat
  dropped : Nat
  relief : Nat
  regTicks : Nat
deriving DecidableEq, Repr

/-- The contents of a chart buffer (R54), captured at one edge (R23). -/
structure Chart where
  seq : Nat
  time : Nat
  degraded : Bool
  power : Nat
  link : Nat
  cap : Nat
  used : Nat
  latch : Nat
  live : Nat
  sqHead : List Nat
  eqTail : List Nat
  axes : List (Nat × Bool)
  crossings : List ChartSlot
  stations : List ChartStn
  units : List Nat
  temps : List Nat
deriving DecidableEq, Repr

/-- The tick clock of a sweep (R150–R152, R158, R159), as its first tick finds it: BASE_INC + CM + FC[f] in 2^-24 tick per cycle, N_NOM, N,
A(x) clamped, RAMP0 and segments of its ramp, SOS_DELAY, order of the modulator, DITHER, the LFSR as loaded; the gains CM_K and FC_K. -/
structure SweepClk where
  base : Int
  nom : Nat
  n : Nat
  clamp : Bool
  r0 : Int
  segs : List (Nat × Int)
  delay : Nat
  order : Nat
  dither : Nat
  lfsr : Nat
  cmK : Nat
  fcK : Nat
deriving DecidableEq, Repr

/-- What the device emits, in order: the writes, reads and messages of R31, R45 and R52, completions of register reads (R29),
and what it sends on its other interfaces. -/
inductive Out where
  /-- One 32-byte event record of event ring `eq` written at host address `addr`: its image (R45). -/
  | record (eq addr img : Nat)
  /-- An MSI-X message of vector `vec` of function `pf` (R31). -/
  | msix (pf vec : Nat)
  /-- SEQ written into the chart's control page, at host address `addr` (R52). -/
  | chartSeq (addr seq : Nat)
  /-- A chart buffer written at host address `addr` (R52): offset, size in bytes and value of each field of R54; all else is 0. -/
  | chart (addr : Nat) (c : List (Nat × Nat × Nat))
  /-- The completion of a register read; `none` is Unsupported Request (R29). -/
  | readDone (val : Option Nat)
  /-- A write that was reported as Unsupported Request (R29). -/
  | writeUr
  /-- A host read that the device issued: address, bytes (R166, R346). -/
  | hostRead (addr len : Nat)
  /-- A host write that the device issued: address, bytes (R346). -/
  | hostWrite (addr : Nat) (data : List Byte)
  /-- The tick clock of a sweep of a station (R150, R151): its tick edges are those of `SweepClk.run`. -/
  | scanClock (stn : Nat) (c : SweepClk)
  /-- The forwarded clock lane of a station starts or stops (R188). -/
  | beamClock (stn : Nat) (on : Bool)
  /-- A sweep of a station whose clock lane runs: ticks from the SOS stamp to edge 0, the marker (R182). -/
  | beamMarker (stn t0 : Nat)
  /-- Rows of fill blocks, one per used lane, of TYPE `kind`: their number, the number of the first row, the ALIGN_SEQ and the training
  pattern count that come next (R183, R184). In rows whose number is 1,023 modulo 1,024 stands an ALIGN set. -/
  | fill (stn kind rows row align train : Nat)
  /-- A Beam Link frame of a station (R183–R185): its blocks in stream order, each with its lane, data or control, and payload. -/
  | frame (stn : Nat) (blocks : List (Nat × Bool × Nat))
  /-- A sweep of a direct port (R173, R174): per emitter the ticks after the SOS stamp over which it is lit. -/
  | direct (stn : Nat) (beams : List (Nat × List (Int × Int)))
  /-- Pulses that a drive channel applies for a catch or an angle search (R218, R219): each is two vectors, for half its length each, and at
  most so many ns long; it ends early where |i| reaches `limit` mA. -/
  | pulses (drv limit : Nat) (ps : List (Nat × Nat × Nat))
  /-- A sideband packet of a station (R189): its symbols, data bytes below 256, K27.7 as 0x1FB and K29.7 as 0x1FD. -/
  | sideband (stn : Nat) (symbols : List Nat)
  /-- A page of the head identity memory written (R195). -/
  | idPage (stn page : Nat) (data : List Byte)
  /-- A Fenlink frame sent on a port (R315, R316): the device time of the first bit of its delimiter, on Fenlink-1 of its first start bit, and
  the levels of the line, each `ns` long, from the preamble or that start bit on. -/
  | fenlink (port time ns : Nat) (line : List Bool)
  /-- A word of the log book written (R367). -/
  | logbook (word val : Nat)
deriving DecidableEq, Repr

/-- A tide entry (R83). -/
structure TEntry where
  pos : Nat
  axis : Nat
  action : Nat
  late : Bool
  eq : Nat
  target : Nat
  arg : Nat
  crx : Nat
deriving DecidableEq, Repr

/-- A decided entry (R86, R87): index, entry, the deciding edge, decided LATE, its target unit fenced then (R92), S of its axis
then, and for CAPTURE the S latched then. -/
structure Decided where
  idx : Nat
  e : TEntry
  time : Nat
  late : Bool
  fenced : Bool
  s : Nat
  cap : Nat
deriving DecidableEq, Repr

/-- A TIDE_INSERT whose completion waits for the records of its behind entries (R89): its descriptor, DATA, and the index and
deciding time of each. -/
structure TideWait where
  job : Job
  data : Nat
  idxs : List (Nat × Nat)
deriving DecidableEq, Repr

/-- A sheet-sensor window of a crossing (R104, R117). -/
structure Win where
  id : Nat
  axis : Nat
  sensor : Nat
  sense : Bool
  openPos : Nat
  closePos : Nat
  opened : Bool
  closed : Bool
  sat : Bool
  wait : Option Nat
deriving DecidableEq, Repr

/-- A station's raster of a crossing (R102); offsets of the next rows of its two lighters (R166); exposure begun, ended (R111);
its fill condition was met at an edge while it boarded (R108). -/
structure Part where
  stn : Nat
  tags : Bool
  lvlBits : Nat
  lpi : Nat
  dotSet : Nat
  width : Nat
  lines : Nat
  stride : Nat
  lvlBase : Nat
  tagBase : Nat
  start : Nat
  first : Nat
  endPos : Nat
  next0 : Nat
  next1 : Nat
  begun : Bool
  done : Bool
  met : Bool
deriving DecidableEq, Repr

/-- A crossing that holds a chart slot (R97–R124): boarding 1, boarded 2, cast off 3, landed 4, spoiled 5, abandoned 6; `uses`
are the commit units and Fenlink nodes that its manifest names (R363). -/
structure Crossing where
  crx : Nat
  state : Nat
  status : Nat
  eq : Nat
  chain : List Job
  stations : Nat
  subst : Bool
  path : Bool
  segMask : Nat
  profile : Nat
  stopAxes : Nat
  hvRest : Nat
  castAxis : Nat
  castPos : Nat
  landPos : Nat
  speed : Nat
  fill : Nat
  deadline : Nat
  genIdx : Nat
  parts : List Part
  wins : List Win
  details : List Nat
  overflow : Nat
  castSeq : Nat
  slot : Nat
  stateTime : Nat
  lost : Nat
  expMask : Nat
  abandon : Option Nat
  uses : List (Nat × Nat)
deriving DecidableEq, Repr

/-- The engine-wide abandonment in progress (R121, R332): cause code of R122, edge E. -/
structure EngAb where
  cause : Nat
  start : Nat
deriving DecidableEq, Repr

/-- The crossing a station exposes (R111, R131): first slot, lines passed from the first on (the frontier), line offsets
emitted or dropped beyond it, rows recorded as blank (R197, R199). -/
structure Expo where
  crx : Nat
  c0 : Int
  front : Nat
  ahead : List Nat
  blank : Nat
deriving DecidableEq, Repr

/-- A line with words reserved in a share (R165–R167): crossing, line offset, first word, words of its two rows, rows written,
marked absent (R344), edge of its last word. -/
structure HLine where
  crx : Nat
  off : Nat
  base : Nat
  wl : Nat
  wt : Nat
  gotL : Bool
  gotT : Bool
  absent : Bool
  time : Nat
deriving DecidableEq, Repr

/-- A row being read by a raster lighter (R164, R344): crossing, line offset, of the tag plane, how many read
requests it takes. -/
structure Row where
  crx : Nat
  off : Nat
  tag : Bool
  reads : Nat
deriving DecidableEq, Repr

/-- A raster lighter (R166, R344, R345): crossing of its CRC (0 = none), rows being read, oldest first, CRC. -/
structure RLt where
  crx : Nat
  rows : List Row
  crc : Nat
deriving DecidableEq, Repr

/-- A station's scan state. λ in 2^-32 line and device time of its last advance (R128); next group base and whether set (R134); sweeps in
tolerance (R133); the stamp of the present sweep, ticks of the last two accepted SOS and how many sweeps lie between them (R125), sweep begun
and not yet taken, flown sweeps since the last accepted SOS and facet mismatches in a row, EOS seen;
facet learning: durations summed by position and their count (R126); ΣL and trim of the phase loop (R132); F_now, F_target,
W_last (R141); exposure (R111); causes of a station stop waiting for the line boundary (R392); device time of the last sweep
start; lines of the share, next word to reserve (R165); boarding refused after a laser
cut (R201). -/
structure Stn where
  lam : Nat
  lamAt : Nat
  b : Int
  bSet : Bool
  okRun : Nat
  sweep : Option Nat
  sos0 : Option Nat
  sos1 : Option Nat
  sosGap : Nat
  begun : Bool
  flown : Nat
  mism : Nat
  eosSeen : Bool
  learn : List Nat
  learnN : Nat
  sumL : Int
  trim : Int
  fNow : Int
  fTarget : Int
  wLast : Int
  expo : Option Expo
  stop : Nat
  sweepAt : Nat
  lines : List HLine
  alloc : Nat
  cutRefuse : Bool
  subst : Nat
  dropped : Nat
deriving DecidableEq, Repr

/-- A mark window (R139, R140, R320): sensor, station, sense, axis, opening and closing positions, expected position, edge read, time of a
reading that waits for its history sample (R81), when its closing began to wait for a Fenlink node (R320). -/
structure MarkWin where
  sensor : Nat
  stn : Nat
  sense : Bool
  axis : Nat
  pos : Nat
  len : Nat
  exp : Nat
  got : Bool
  edge : Option Nat
  wait : Option Nat
deriving DecidableEq, Repr

/-- A station's scan PLL (R143–R158): bounds and band under trial of a search, count of the lower bound's band, the last trial;
when acquisition started where its bound runs, loop closed, windows since it closed, runs of windows in and out of tolerance,
windows held, next retry, A(x) clamped for the next sweep (R158), the tick clock of the present sweep (R150–R152). -/
structure Spll where
  lo : Nat
  hi : Nat
  m : Nat
  cnt : Option Nat
  last : Bool
  acqAt : Option Nat
  closed : Bool
  wins : Nat
  inRun : Nat
  outRun : Nat
  held : Nat
  retryAt : Option Nat
  clamp : Bool
  clk : SweepClk
deriving DecidableEq, Repr

/-- A ramp bank (R152): RAMP0 in 2^-24 and segments (LEN, SLOPE in 2^-32). -/
structure Ramp where
  r0 : Int
  segs : List (Nat × Int)
deriving DecidableEq, Repr

/-- A sideband request outstanding (R189): command, payload, TID, retries, time sent. -/
structure SbReq where
  cmd : Nat
  payload : List Byte
  tid : Nat
  tries : Nat
  at_ : Nat
deriving DecidableEq, Repr

/-- A frame whose GSTAT is awaited (R187): SWEEP, time of its END block, crossings with the lowest and highest line in the group; its
report has been missing and it is taken as failed. -/
structure FrameWait where
  sweep : Nat
  time : Nat
  lines : List (Nat × Nat × Nat)
  missed : Bool
deriving DecidableEq, Repr

/-- A DOT_SET_LOAD that writes the head first (R191): its descriptor, the set, the mapping word and the waveform words to be
written, the bytes it read. -/
structure HeadLoad where
  job : Job
  set : Nat
  map : Option (List Nat)
  wave : List Nat
  len : Nat
deriving DecidableEq, Repr

/-- A station's Beam Link and head (R180–R203): identity read in progress, an identity that did not agree waits for a change;
identity bytes 0x0000–0x02A3 as read, of the wear copies whether valid, SEQ, and FAILED of the valid one; training attempt and its start, retry after a
failed training; UP reached since OFF was left; markers counted since UP, and the count of the present sweep's marker; when the lanes' stream began, rows of
blocks (one per used lane) sent since, ALIGN sets and TRAIN rows sent; sideband request, requests waiting, last TID, since when silent;
next poll, last temperature, lane bits and fault bits of the last status reply; copies read back equal in SYNC (sets 0–3, levels 4); a
DOT_SET_LOAD writing the head; the head holds a write that the station has not taken; frames awaiting GSTAT; next emitter of a characterisation pass; relief to be decided; wear copy to
be written, last written when, the copy being written with its next page and bytes; lit ticks by emitter and their sum at the
last copy. -/
structure Bl where
  reading : Bool
  refused : Bool
  ident : List Byte
  wearA : Option Nat
  wearB : Option Nat
  wearFail : Option Nat
  attempt : Nat
  since : Nat
  retryAt : Option Nat
  upSeen : Bool
  marker : Nat
  mark : Option Nat
  laneAt : Nat
  pos : Nat
  align : Nat
  train : Nat
  req : Option SbReq
  queue : List (Nat × List Byte)
  tid : Nat
  silent : Option Nat
  pollAt : Nat
  tempAt : Nat
  lanes : Nat
  faults : Nat
  sync : Nat
  load : Option HeadLoad
  stale : Bool
  frames : List FrameWait
  charNext : Option Nat
  relief : Bool
  wearDue : Bool
  wearAt : Nat
  wear : Option (Nat × Nat × List Nat)
  onTime : List Nat
  onLast : Nat
deriving DecidableEq, Repr

/-- A drive channel (R206–R224). Comparators Φ and τ, the vector applied, the one before it and the time of the
decision between them (R208–R210); flux estimate in µWb, phase currents
and bus voltage in mA and mV; ramped set-point in 1/20,000 of 1/16 rpm, integral of e_ω, T_ref in 1/5,120,000 µN·m (R213); the
clamp was reached; set-point of the demand; forward at the start (R217); catches and searches tried, next retry, search asked by
FIND_ANGLE, S at the search's start (R218, R219); stall began (R224); pin reference valid, curve on (R214, R215); electrical
offset found (R216); fault sources that tripped it; OFF when HELD is reached; a stop that waits for
CATCH, SEARCH or SHORT to end; the edge of the last stop in RUN (R221). -/
structure Drv where
  phi : Nat
  tau : Nat
  vec : Nat
  prev : Nat
  decAt : Nat
  psiA : Int
  psiB : Int
  iA : Int
  iB : Int
  ramped : Int
  sumE : Int
  tref : Int
  clamped : Bool
  want : Int
  fwd : Bool
  catches : Nat
  searches : Nat
  retryAt : Option Nat
  findOnly : Bool
  searchS : Nat
  stallAt : Option Nat
  pinOk : Bool
  curveOn : Bool
  angle : Nat
  trips : Nat
  offAfter : Bool
  stopPend : Bool
  haltAt : Option Nat
deriving DecidableEq, Repr

/-- A bus group (R222, R223): voltage, chopper fault input, shorted for DRV_BUS_OV, forced winding short, ends
of the two reactions where their conditions have ended; chopper sense input, since when its check fails, since when the voltage is below
UV_LEVEL. -/
structure BusGrp where
  mv : Nat
  fault : Bool
  ovr : Bool
  forced : Bool
  forcedEnd : Option Nat
  overEnd : Option Nat
  sense : Bool
  chkAt : Option Nat
  uvAt : Option Nat
deriving DecidableEq, Repr

/-- The homing data of MOTION_HOME (R235); `level` the filtered level of its input; p1 and p2 as latched; |Δp| summed since p1 and since
the start, in 2^-16 count; decelerating after p2. -/
structure Home where
  dir : Bool
  sense : Bool
  input : Nat
  level : Bool
  vFast : Nat
  vSlow : Nat
  chatter : Nat
  homePos : Nat
  maxTravel : Nat
  deadline : Nat
  p1 : Option Nat
  p2 : Option Nat
  travel : Nat
  total : Nat
  ending : Bool
deriving DecidableEq, Repr

/-- A command to a motion axis (R230, R235). -/
inductive MotCmd where
  | profile (first : Nat)
  | move (target vmax accel : Nat)
  | home (h : Home)
deriving DecidableEq, Repr

/-- Who gave a motion command: a descriptor or a tide action (R230, R238). -/
inductive MotSrc where
  | desc (j : Job)
  | tide (d : Decided)
deriving DecidableEq, Repr

/-- A motion axis (R226–R238): p in 2^-16 count, v in 1/256 count/s; where its segment or move started and the sample within it;
the drive held it at its last sample; move target, VMAX, ACCEL, turning back first, TARGET_BEHIND at rest, arrived; homing; its descriptor;
the reason to report at rest; arrival awaited until (R230); a stop and commands that the next sample takes; the next sample index. -/
structure Mot where
  p : Nat
  v : Int
  p0 : Nat
  v0 : Int
  i : Nat
  held : Bool
  target : Nat
  vmax : Nat
  accel : Nat
  turning : Bool
  behind : Bool
  arrived : Bool
  home : Option Home
  job : Option Job
  reason : Nat
  inposBy : Option Nat
  stop : Option Nat
  reqs : List (MotSrc × MotCmd)
  lastK : Nat
deriving DecidableEq, Repr

/-- A segment of the segment table (R227). -/
structure Seg where
  endPos : Nat
  dur : Nat
  endVel : Nat
  next : Nat
  last : Bool
  rel : Bool
deriving DecidableEq, Repr

/-- A coil of a stepper channel (R243): phase 0 none (both low sides on), 1 ON, 2 OFF fast, 3 OFF slow; start of the phase,
sign driven, whole OFF as fast decay, consecutive ON phases found tripped (R245); the high sides before the last switching (bit 0 leg 1,
bit 1 leg 2) and its time. -/
structure Coil where
  phase : Nat
  start : Nat
  neg : Bool
  allFast : Bool
  shorts : Nat
  lastRef : Nat
  was : Nat
  swAt : Nat
deriving DecidableEq, Repr

/-- A stepper channel (R240–R245): q of the last sample, time of its last change, q and port count at the entry to RUN, gates
turn off once the motion axis is IDLE, fault sources that tripped it. -/
structure Stp where
  q : Nat
  qAt : Nat
  q0 : Nat
  c0 : Nat
  addr : Nat
  a : Coil
  b : Coil
  offAfter : Bool
  trips : Nat
deriving DecidableEq, Repr

/-- A MOTION_STOP descriptor that waits for its axes (R232). -/
structure StopWait where
  job : Job
  axes : Nat
  deadline : Nat
deriving DecidableEq, Repr

/-- An encoder port (R247–R256): accepted levels of A, B and Z, receiver fault; direction of the last count, counts in that direction since a
reversal; times of the last counts of one direction, newest first; edges of the present window with the first's and last's time
and count, of the last window ended; the mode of the next sample; direction-tagged count latched at the last index; last word,
invalid frames in a row, latch stamp of the frame in progress, next request, since when its clock is high. -/
structure Enc where
  a : Bool
  b : Bool
  zIn : Bool
  fault : Bool
  dir : Int
  conf : Nat
  times : List Nat
  wN : Nat
  wT0 : Nat
  wT1 : Nat
  wC0 : Nat
  wC1 : Nat
  eN : Nat
  eT : Nat
  eC : Int
  win : Bool
  idx : Option (Nat × Int)
  word : Option Nat
  bad : Nat
  req : Option Nat
  pollAt : Nat
  highAt : Nat
deriving DecidableEq, Repr

/-- An emulation output (R258–R260): 24-bit fraction, counts owed, the backlog passed 32,767, stopped; last edge; levels of A and B, and of Z as it is held while the output is stopped or not gated. -/
structure Emu where
  acc : Int
  owed : Int
  ovr : Bool
  stopped : Bool
  lastEdge : Option Nat
  a : Bool
  b : Bool
  z : Bool
deriving DecidableEq, Repr

/-- A running sample of a loop (R263): the tally of its capstan, what it will write (signals, state words, outputs), the program
index of its first saturation, a clamp, the region; finished. -/
structure Pend where
  tally : Nat
  sig : Tbl Int
  words : Tbl Nat
  outs : List (Nat × Int)
  sat : Option Nat
  lim : Bool
  region : Nat
  done : Bool
deriving DecidableEq, Repr

/-- A write that lands while a sample runs and is held until the next base-period edge (R272, R274). -/
inductive Held where
  | param (i v : Nat)
  | clear
  | rezero (axis off : Nat)
deriving DecidableEq, Repr

/-- A loop (R262–R274): its running sample, writes held, no sample completed since it was enabled, no sample ended since a migration
(R283). -/
structure Loop where
  pend : Option Pend
  held : List Held
  fresh : Bool
  moved : Bool
deriving DecidableEq, Repr

/-- A capstan (R279): consecutive beats missing, consecutive working periods with a miss. -/
structure Cap where
  miss : Nat
  late : Nat
deriving DecidableEq, Repr

/-- A high-voltage channel (R286–R290): target in V, reference in 1/256 V, ramp in V/ms; cycles of the present period the output is
active; start and end of that period; PWM periods of blanking left and soft periods begun; times of recent arcs; OFF once the reference is 0; fault sources
that tripped it; it was tripped and waits for REARM, with its output inactive. -/
structure Hv where
  target : Int
  ref : Int
  ramp : Nat
  duty : Nat
  startAt : Nat
  endAt : Nat
  blank : Nat
  soft : Nat
  arcs : List Nat
  offAfter : Bool
  trips : Nat
  quiet : Bool
deriving DecidableEq, Repr

/-- A heater channel (R294–R296): set-point, held off; it fires; burst accumulator, the present unit is on; last boundary as P / 32,768;
when the output turns active, a change of the level that waits for its position, end of a pulse; fault sources that tripped it. -/
structure Htr where
  sp : Int
  hold : Bool
  fire : Bool
  acc : Nat
  unitOn : Bool
  half : Option Nat
  onAt : Option Nat
  offAt : Option Nat
  pulseEnd : Option Nat
  trips : Nat
deriving DecidableEq, Repr

/-- The mains phase axis (R292, R293): tracked period in ns, time of the last accepted crossing, in-window crossings in a row, lock
was lost before; AX38 at the last crossing while locked, or held. -/
structure Mains where
  period : Nat
  last : Option Nat
  good : Nat
  lostOnce : Bool
  base : Nat
  baseAt : Nat
deriving DecidableEq, Repr

/-- The power sequencer (R305–R309): when the T_SHUT of an Ebb began; when OFF_WAIT was entered; rails that the present stage waits
for and when it began; end of the dwell; when its own release of SEQBELL began; its own pull of EBB_N for a sequenced Ebb and for an input failure
in IDLE or HALTED, another participant's pull; monitored rails; VINSNS in mV; since when the input is good; when the last Ebb was
declared. -/
structure Sequ where
  shutAt : Option Nat
  offAt : Option Nat
  wait : Nat
  stageAt : Nat
  dwellAt : Option Nat
  released : Option Nat
  ownEbb : Bool
  idleEbb : Bool
  extEbb : Bool
  mon : Nat
  vins : Nat
  goodAt : Nat
  ebbAt : Option Nat
deriving DecidableEq, Repr

/-- Power modes (R310, R311): a request kept during a change or held under R9; the change in progress: target mode, start; step
of Moored entry (1 axes stop, 2 drain, 3 rails) or exit (4 rails, 5 clocks and Hold), the stage its rails have reached, rails it turned off;
COAST; wake source of the change, and a wake that arrived during entry with its target; an Ebb ends the change after its present step (R309);
when step 5 ends; rate and width of the link before Moored. -/
structure Pwr where
  kept : Option Nat
  target : Option Nat
  start : Nat
  step : Nat
  stage : Nat
  off : Nat
  coast : Bool
  wakeBy : Nat
  wake : Option (Nat × Nat)
  ebb : Bool
  readyAt : Nat
  link : Nat × Nat
deriving DecidableEq, Repr

/-- A transfer of a general lighter (R346–R351): its descriptor; spaces, addresses and length; flags; interrupt vector's function;
runs descending; bytes moved; CRC register; blocks of a descending copy, first in ascending order; bytes of the host read in flight; APPEND
written; its writes wait for their acknowledgement, the flush read of a host destination; failed with a status; when its last request was issued; when its domain was asked to
power down; the largest read it issues (R27, R343). -/
structure Xfer where
  job : Job
  srcSp : Nat
  dstSp : Nat
  src : Nat
  dst : Nat
  len : Nat
  append : Bool
  irq : Bool
  desc : Bool
  done : Nat
  crc : Nat
  got : List (List Byte)
  reading : Option Nat
  appended : Bool
  flush : Bool
  fail : Option Nat
  issuedAt : Nat
  drainAt : Option Nat
  blk : Nat
deriving DecidableEq, Repr
/-- A Fenlink port (R317, R318): running 0, stopped 1 or in Moored upkeep 2 (R325); device time of its cycle; nodes whose reply is awaited;
last address polled in the round and when its round and its last frame began; cycles resume; ADMIT or CALL awaiting a HELLO; last stranger called; rotation of
OUTPUT; recent CRC errors. -/
structure FPort where
  mode : Nat
  cycAt : Option Nat
  due : List Nat
  last : Nat
  roundAt : Option Nat
  pollAt : Nat
  resumeAt : Nat
  roll : Option (Nat × Bool)
  called : Nat
  rot : Nat
  errs : List Nat
deriving DecidableEq, Repr

/-- A Fenlink node: its list entry (R321); retired tally (R324); when ADMIT was last offered (R323); UNIT_IDs that did not agree and were
reported; output levels last sent; a reply has been taken. -/
structure FNode where
  id : Nat
  en : Bool
  dir : Nat
  wake : Nat
  ev : Nat
  slot : Nat
  every : Nat
  phase : Nat
  delay : Nat
  retired : Nat
  admitAt : Option Nat
  wrong : List Nat
  sent : Option Nat
  replied : Bool
deriving DecidableEq, Repr

/-- What a node's reply brings to sheet and mark sensors (R320): an edge on a point with its device time, or the valid reply itself
with the start of its slot or poll. -/
inductive FlEv where
  | edge (point : Nat) (level : Bool) (time : Nat)
  | reply (start : Nat)
deriving DecidableEq, Repr
/-- A UNIT_LAYUP in progress (R362–R364): its unit and node, FORCE, deadline of the wait, applied and on its way to rest. -/
structure Layup where
  job : Job
  unit : Nat
  node : Nat
  force : Bool
  deadline : Nat
  applied : Bool
deriving DecidableEq, Repr
/-- The machine. -/
structure State where
  /-- Commands waiting, first in, first out. -/
  pending : List Instr
  /-- Device time in ns; its low 40 bits are AX39 (R16, R76). -/
  now : Nat
  /-- Free values used so far (the model's own, log 3). -/
  free : Nat
  /-- What the device has emitted, newest first (the model's own trace). -/
  out : List Out
  /-- BAR0 fields other than QS (R61), where they differ from their reset value. -/
  regs : Tbl Nat
  /-- The same fields as the present edge found them, with what software has written at it since; the keys of fields that software has written at it (R66). -/
  edgeRegs : Tbl Nat
  edgeSw : List Nat
  /-- Quay values of QS fields (R68). -/
  quay : Tbl Nat
  /-- Live values of QS fields (R68). -/
  live : Tbl Nat
  /-- WL registers written since the fundamental reset, by byte offset (R61). -/
  wlDone : List Nat
  /-- The posting stage of each POST block, by block offset (R62). -/
  post : Tbl (Option Posted)
  /-- The write latch of each 64-bit register, by the offset of its low word (R65). -/
  lowLatch : Tbl (Option Nat)
  /-- Writable words of the functions' configuration spaces, by function × 4,096 + offset (R27, R28, log 98). -/
  cfg : Tbl Nat
  /-- MSI-X tables: words by function × 16,384 + offset (R28). -/
  msixTab : Tbl Nat
  /-- The two functions. -/
  pf0 : PfSt
  pf1 : PfSt
  /-- Submission rings. -/
  sq : Tbl SqSt
  /-- Event rings. -/
  eq : Tbl EqSt
  /-- The ring that each fetch priority served last (R39); level 63 before the first. -/
  rrSq : Tbl Nat
  /-- The holdover buffer: records with their rings, in production order (R56). -/
  holdover : List (Nat × Rec)
  /-- The chart's sequence (R52), a state change not yet charted (R53), whole milliseconds at which a chart was taken. -/
  chartSeq : Nat
  chartWant : Bool
  chartMs : Nat
  /-- Pending commits in acceptance order (R73). -/
  commits : List Commit
  /-- The boot ROM and the ferryman. -/
  boot : Boot
  /-- Boot flash: the bytes of the two image slots (R353). -/
  flash0 : List Byte
  flash1 : List Byte
  /-- One-time-programmable fuses. -/
  otp : Otp
  /-- The log book's words (R367). -/
  logbook : Tbl Nat
  /-- Live causes of fault sources: source × 65,536 + unit × 256 + instance (R329). -/
  causes : Tbl Bool
  /-- Last record of a source and unit (source × 256 + unit): its time and the raises suppressed since (R333). -/
  lastRec : Tbl (Option (Nat × Nat))
  /-- Boomed and laid-up marks of commit units (R335, R362). -/
  boomed : Tbl Bool
  laid : Tbl Bool
  /-- Flipped codeword bits not yet found, and poisoned words: store × 2^32 + word (R18–R21). -/
  flips : Tbl (List Nat)
  poison : Tbl Bool
  /-- Units that met an uncorrectable word of the table SRAMs, with the word: a unit refuses boarding until it is rewritten (R21). -/
  unitBad : List (Nat × Nat)
  /-- Scrubbers: next word and last due point by store (R22). -/
  scrubPos : Tbl Nat
  scrubDue : Tbl Nat
  /-- The time of a scrubber's last read (R22). -/
  scrubAt : Tbl Nat
  /-- The LANTERN level and its last toggle (R337). -/
  lantern : Bool
  lanternAt : Nat
  /-- Tide entries by index, the armed bit and the owner byte (0xFF = none) of each (R83, R85). -/
  tide : Tbl (Option TEntry)
  tideArmed : Tbl Bool
  tideOwner : Tbl Nat
  /-- Decided entries waiting for issue in tie order, issued actions not yet performed, times of the issues of the last 1,000 ns (R93). -/
  decided : List Decided
  issued : List Decided
  issueLog : List Nat
  /-- Axes re-zeroed or re-referenced, with the time and the new position, until the next edge compares their entries (R84, R390). -/
  tideFresh : List (Nat × Nat × Nat)
  /-- TIDE_INSERTs whose completion waits for the records of their behind entries (R89). -/
  tideWaits : List TideWait
  /-- An axis re-zeroed or rewound since the last history sample (R80). -/
  axDisc : Tbl Bool
  /-- History lanes: samples (k, P, discontinuity), newest first (R80); the k last sampled. -/
  hist : Tbl (List (Nat × Nat × Bool))
  histK : Nat
  /-- IO outputs: 0 released, 1 low, 2 high; pulses in progress: end time and the level to return to (R84, R339). -/
  io : Tbl Nat
  pulses : Tbl (Option (Nat × Nat))
  /-- Crossings that hold a chart slot, in boarding order (R55, R97). -/
  crossings : List Crossing
  /-- Cast-offs so far: the cast-off order of R117 and R118. -/
  castCount : Nat
  /-- Segments jammed, with the crossing whose jam holds them (R119). -/
  jams : List (Nat × Nat)
  /-- Causes of an engine-wide abandonment that wait for its edge: EBB, REF_LOSS, FAULT_A, FAULT_B as bits 0–3 (R332). -/
  abCauses : Nat
  /-- The engine-wide abandonment in progress. -/
  eng : Option EngAb
  /-- Outputs are held inactive for a latched class A fault: step 4 of R121 has run (R331). -/
  graveHold : Bool
  /-- Fenlink nodes laid up: port × 256 + node (R364). -/
  nodeLaid : Tbl Bool
  /-- Stations. -/
  stn : Tbl Stn
  /-- Raster lighters LT0–LT11. -/
  rlt : Tbl RLt
  /-- Mark windows open, earliest first. -/
  marks : List MarkWin
  /-- The Hold: 256-bit words (R18, R165). -/
  hold : Tbl Nat
  /-- Scan PLLs, and ramp banks by 2 × station + bank (R152). -/
  spll : Tbl Spll
  ramps : Tbl Ramp
  /-- Beam Links and heads. -/
  bl : Tbl Bl
  /-- Drive channels and bus groups. -/
  drv : Tbl Drv
  bus : Tbl BusGrp
  /-- The live set as it was before the commits of the present edge (R221), `none` where none has applied at it. -/
  edgeLive : Option (Tbl Nat)
  /-- Motion axes, the segment table, MOTION_STOP descriptors waiting. -/
  mot : Tbl Mot
  segs : Tbl Seg
  stopWaits : List StopWait
  /-- Stepper channels; microstep entries by set × 1,024 + index, where loaded (R241). -/
  stp : Tbl Stp
  ustep : Tbl (Option Nat)
  /-- Encoder ports and emulation outputs. -/
  enc : Tbl Enc
  emu : Tbl Emu
  /-- Loops; parameter words by loop × 256 + index and state words by loop × 64 + index (R264). -/
  loop : Tbl Loop
  lparam : Tbl Nat
  lword : Tbl Nat
  /-- The block table (R265) and the feed-forward tables by table × 1,024 + entry (R270). -/
  block : Tbl Nat
  ff : Tbl Nat
  /-- Capstans; device time of the last base-period edge taken. -/
  cap : Tbl Cap
  capAt : Option Nat
  /-- High-voltage channels, heaters, the mains phase. -/
  hv : Tbl Hv
  htr : Tbl Htr
  mains : Mains
  /-- Temperature sensors: effective temperature of the hysteresis (R301); number of 1 ms edges taken. -/
  tEff : Tbl (Option Int)
  thermMs : Nat
  /-- Harbour clock in sixteenths that the thermal throttle and the droop response call for (R301, R304). -/
  hbTherm : Nat
  /-- Factors that the last readings give the throttle targets, and the edge of those readings (R301). -/
  thrWant : Tbl Nat
  thrAt : Nat
  /-- The last edge at which a holding fuser comparator's reading was not inside its narrowed window (R303). -/
  fusAt : Tbl Nat
  /-- The last fall of VDD_CORE below DROOP_MV, or the last climb of the harbour clock (R304). -/
  droopAt : Nat
  hbDroop : Nat
  /-- The power sequencer. -/
  sequ : Sequ
  /-- Power modes. -/
  pwr : Pwr
  /-- Transfers of the general lighters LT14–LT31, the front one running. -/
  xfer : Tbl (List Xfer)
  /-- Fenlink ports; nodes by port × 256 + address; edges and replies that wait for a history sample (R81, R320). -/
  fport : Tbl FPort
  fnode : Tbl FNode
  flWait : List (Nat × Nat × FlEv)
  /-- The last edge at which each source was raised, plus 1 (R66, R329). -/
  raisedAt : Tbl Nat
  /-- Lay-ups pending or not yet at rest; event counters of the log book that the ferryman has still to write (R367, log 36). -/
  layups : List Layup
  lbDue : List Nat
deriving DecidableEq, Repr

/-- The device in reset (R352; log 4): every field at its reset value, RST_N still low; `RST_N_RISE` follows. -/
def State.reset : State where
  pending := []
  now := 0
  free := 0
  out := []
  regs := []
  edgeRegs := []
  edgeSw := []
  quay := []
  live := []
  wlDone := []
  post := []
  lowLatch := []
  cfg := []
  msixTab := []
  pf0 := ⟨false, false, 0, false, 0, false⟩
  pf1 := ⟨false, false, 0, false, 0, false⟩
  sq := []
  eq := []
  rrSq := []
  holdover := []
  chartSeq := 0
  chartWant := false
  chartMs := 0
  commits := []
  boot := ⟨true, none, false, false, 0, false, [], [], [], none, none, none⟩
  flash0 := []
  flash1 := []
  otp := ⟨[none, none, none, none], 0, 0⟩
  logbook := []
  causes := []
  lastRec := []
  boomed := []
  laid := []
  flips := []
  poison := []
  unitBad := []
  scrubPos := []
  scrubDue := []
  scrubAt := []
  lantern := false
  lanternAt := 0
  tide := []
  tideArmed := []
  tideOwner := []
  decided := []
  issued := []
  issueLog := []
  tideFresh := []
  tideWaits := []
  axDisc := []
  hist := []
  histK := 0
  io := []
  pulses := []
  crossings := []
  castCount := 0
  jams := []
  abCauses := 0
  eng := none
  graveHold := false
  nodeLaid := []
  stn := []
  rlt := []
  marks := []
  hold := []
  spll := []
  ramps := []
  bl := []
  drv := []
  bus := []
  edgeLive := none
  mot := []
  segs := []
  stopWaits := []
  stp := []
  ustep := []
  enc := []
  emu := []
  loop := []
  lparam := []
  lword := []
  block := []
  ff := []
  cap := []
  capAt := none
  hv := []
  htr := []
  mains := ⟨0, none, 0, false, 0, 0⟩
  tEff := []
  thermMs := 0
  hbTherm := 16
  thrWant := []
  thrAt := 0
  fusAt := []
  droopAt := 0
  hbDroop := 16
  sequ := ⟨none, none, 0, 0, none, none, false, false, false, 0, 0, 0, none⟩
  pwr := ⟨none, none, 0, 0, 0, 0, false, 0, none, false, 0, (0, 0)⟩
  xfer := []
  fport := []
  fnode := []
  flWait := []
  raisedAt := []
  layups := []
  lbDue := []

end Sys2Proof.Machine
end

