-- ==== Sys2Proof/Machine/Ops.lean ====
section
/-! DEFINITION. The named operations that the meanings share: reading and writing register fields, free values, device time,
ownership (R30), event records and interrupts (R14, R31, R49, R50, R56), starting and completing descriptors (R39, R42), and
the quay and live sets (R66–R68). -/

namespace Sys2Proof.Machine

/-! ### Register fields -/

/-- The value of instance (i, j) of a field that is not QS. -/
def State.rd (s : State) (f : Fld) (i : Nat := 0) (j : Nat := 0) : Nat := tget (f.rst i j) s.regs (f.key i j)

/-- Write instance (i, j) of a field that is not QS; the value is cut to the field's width. -/
def State.wr (s : State) (f : Fld) (v : Nat) (i : Nat := 0) (j : Nat := 0) : State :=
  { s with regs := tput (f.rst i j) s.regs (f.key i j) (v % 2 ^ f.width) }

/-- A one-bit field reads 1. -/
def State.on (s : State) (f : Fld) (i : Nat := 0) (j : Nat := 0) : Bool := s.rd f i j == 1

/-- Set or clear a one-bit field. -/
def State.wb (s : State) (f : Fld) (b : Bool) (i : Nat := 0) (j : Nat := 0) : State := s.wr f (if b then 1 else 0) i j

/-- Count `n` events in a counter field, which saturates (R61). -/
def State.cnt (s : State) (f : Fld) (i : Nat := 0) (j : Nat := 0) (n : Nat := 1) : State :=
  s.wr f (satAdd f.width (s.rd f i j) n) i j

/-- Signed reading and writing of a field. -/
def State.rdI (s : State) (f : Fld) (i : Nat := 0) (j : Nat := 0) : Int := signed f.width (s.rd f i j)
def State.wrI (s : State) (f : Fld) (v : Int) (i : Nat := 0) (j : Nat := 0) : State := s.wr f (unsigned f.width v) i j

/-! What software writes at the edge at which hardware updates the same field (R66): the state keeps what the edge found, with what
software has written since, and which fields that was. An edge ends where device time advances. -/

/-- The field as this edge found it, or as software has written it since. -/
def State.edgeRd (s : State) (f : Fld) (i : Nat := 0) (j : Nat := 0) : Nat := tget (f.rst i j) s.edgeRegs (f.key i j)
/-- Software has written the field at this edge: a hardware update of a configuration field is discarded (R66). -/
def State.swWrote (s : State) (f : Fld) (i : Nat := 0) (j : Nat := 0) : Bool := s.edgeSw.contains (f.key i j)
/-- Software's value of a field at this edge is `v`. -/
def State.swNote (s : State) (f : Fld) (v : Nat) (i : Nat := 0) (j : Nat := 0) : State :=
  { s with edgeRegs := tput (f.rst i j) s.edgeRegs (f.key i j) (v % 2 ^ f.width), edgeSw := f.key i j :: s.edgeSw }
/-- Software writes a configuration field. -/
def State.swWr (s : State) (f : Fld) (v : Nat) (i : Nat := 0) (j : Nat := 0) : State := (s.wr f v i j).swNote f v i j
/-- Software writes a counter: the value plus the increments of this edge, saturated. -/
def State.swCount (s : State) (f : Fld) (v : Nat) (i : Nat := 0) (j : Nat := 0) : State :=
  (s.wr f (satAdd f.width (v % 2 ^ f.width) (s.rd f i j - s.edgeRd f i j)) i j).swNote f v i j
/-- Software writes a sticky field or a latch word: bits written 0 clear, but for those that were set at this edge. -/
def State.swClear (s : State) (f : Fld) (v : Nat) (i : Nat := 0) (j : Nat := 0) : State :=
  let cur := s.rd f i j
  let old := cur &&& s.edgeRd f i j
  (s.wr f (cur - old + (old &&& v)) i j).swNote f (old &&& v) i j

/-- The quay value of a QS field (R68). -/
def State.qv (s : State) (f : Fld) (i : Nat := 0) (j : Nat := 0) : Nat := tget (f.rst i j) s.quay (f.key i j)
/-- The live value of a QS field (R68). -/
def State.lv (s : State) (f : Fld) (i : Nat := 0) (j : Nat := 0) : Nat := tget (f.rst i j) s.live (f.key i j)
/-- The live value of a one-bit QS field is 1. -/
def State.lon (s : State) (f : Fld) (i : Nat := 0) (j : Nat := 0) : Bool := s.lv f i j == 1
/-- Signed live value. -/
def State.lvI (s : State) (f : Fld) (i : Nat := 0) (j : Nat := 0) : Int := signed f.width (s.lv f i j)

/-! ### Free values, device time, what is emitted -/

/-- A free value below `m` (0 where `m` is 0), and the state with it used up (log 3). -/
def State.takeFree (s : State) (m : Nat) : Nat × State := (Config.free s.free % m, { s with free := s.free + 1 })

/-- Device time as records and AX39 show it (R45, R76). -/
def State.stamp (s : State) : Nat := s.now % pos40

/-- Emit `o`. -/
def State.emit (s : State) (o : Out) : State := { s with out := o :: s.out }

/-- Device time is degraded after REF_LOSS (R17). -/
def State.degraded (s : State) : Bool := s.on Reg.GEN_CLK_STAT_REF_LOST

/-! ### Functions and ownership -/

/-- The function state of function `p`. -/
def State.pf (s : State) (p : Nat) : PfSt := if p = 0 then s.pf0 else s.pf1
def State.setPf (s : State) (p : Nat) (f : PfSt) : State := if p = 0 then { s with pf0 := f } else { s with pf1 := f }

/-! Configuration space (R27, R28): what its words hold at reset (Max Read Request Size 512 B, as the PCI Express Base Specification has
it, log 98), Max Read Request Size, and the limit on outstanding reads: 512 with 10-bit tags, else the 256 of 8-bit tags. -/
def cfgReset (off : Nat) : Nat := if off = 0x48 then 0x2000 else 0
def State.cfgRaw (s : State) (p off : Nat) : Nat := tget (cfgReset off) s.cfg (p * 4096 + off)
def State.maxRead (s : State) (p : Nat) : Nat := min 4096 (128 * 2 ^ field (s.cfgRaw p 0x48) 12 3)
def State.tagLimit (s : State) (p : Nat) : Nat := if bitOf (s.cfgRaw p 0x68) 12 then 512 else 256

/-- The reads of `len` bytes from `addr` are issued for function `p`, each of up to Max Read Request Size (R27). -/
def State.emitReads (s : State) (p addr len : Nat) : State :=
  let m := s.maxRead p
  (List.range ((len + m - 1) / m)).foldl (fun s i => s.emit (.hostRead (addr + i * m) (min m (len - i * m)))) s

/-- The channel blocks, the capstans and the Hold are off: in Moored, and from step 2 of its entry on (R311). -/
def State.gated (s : State) : Bool := s.rd Reg.PWR_STAT_MODE == 2 || s.pwr.step == 2 || s.pwr.step == 3

/-- Read requests outstanding (R27): those of the raster rows and general transfers in flight. -/
def State.readsOut (s : State) : Nat :=
  (s.rlt.map fun e => (e.2.rows.map (·.reads)).sum).sum + (s.xfer.map fun e => (e.2.filter fun x => x.reading.isSome || (x.flush && x.dstSp == 0)).length).sum

/-- How many reads `len` bytes take for function `p`. -/
def State.readCount (s : State) (p len : Nat) : Nat := (len + s.maxRead p - 1) / s.maxRead p

/-- DRAIN_US in ns (R338): below 10 acts as 10. -/
def State.drainNs (s : State) : Nat := 1000 * min 10000 (max 10 (s.rd Reg.FLT_TMO_DRAIN_US))

/-- The function number of an access, `none` for the ferryman. -/
def portPf : Port → Option Nat
  | .pf0 => some 0
  | .pf1 => some 1
  | .ferryman => none

/-- The owning function of block `b` of HOSTIF_OWN_BLK (R30); GEN and HOSTIF serve both and are PF0's for R391. -/
def State.ownBlk (s : State) (b : Nat) : Nat :=
  if 2 ≤ b ∧ bitOf (s.rd Reg.HOSTIF_OWN_BLK_BLK) b then 1 else 0
/-- The owning function of a submission ring. -/
def State.ownSq (s : State) (n : Nat) : Nat :=
  if bitOf (if n < 32 then s.rd Reg.HOSTIF_OWN_SQ_LO_SQ_LO else s.rd Reg.HOSTIF_OWN_SQ_HI_SQ_HI) (n % 32) then 1 else 0
/-- The owning function of an event ring; EQ0 is always PF0's (R31). -/
def State.ownEq (s : State) (n : Nat) : Nat :=
  if n ≠ 0 ∧ bitOf (s.rd Reg.HOSTIF_OWN_EQ_EQ) (n - 1) then 1 else 0

/-- The block bit of HOSTIF_OWN_BLK that a BAR0 offset belongs to (R59), `none` where unmapped. -/
def blockOf (off : Nat) : Option Nat :=
  if off < 0x1000 then some 0 else if off < 0x4000 then some 1 else if off < 0x8000 then some 2
  else if off < 0x10000 then some 3 else if off < 0x18000 then some 4 else if off < 0x20000 then some 5
  else if off < 0x38000 then some (6 + (off - 0x20000) / 0x4000)
  else if off < 0x3B000 then some (6 + (off - 0x38000) / 0x800)
  else if off < 0x40000 then none
  else if off < 0x46000 then some (6 + (off - 0x40000) / 0x1000)
  else if off < 0x48000 then none else if off < 0x4C000 then some 12 else if off < 0x50000 then none
  else if off < 0x58000 then some 13 else if off < 0x60000 then some 14 else if off < 0x68000 then some 15
  else if off < 0x70000 then some 16 else if off < 0x74000 then some 17 else if off < 0x78000 then some 18
  else if off < 0x7C000 then some 19 else if off < 0x80000 then some 20 else if off < 0x88000 then some 21
  else if off < 0x90000 then some 22 else if off < 0x98000 then some 23 else if off < 0xA0000 then some 24
  else if off < 0xB0000 then some 25 else if off < 0xF0000 then none else if off < 0x100000 then some 26 else none

/-- The block bit that a commit unit's registers stand in (R67, R70). -/
def blockOfUnit (u : Nat) : Nat :=
  if u < 6 then 6 + u else if u < 22 then 12 else if u < 38 then 13 else if u < 62 then 15 else if u < 78 then 16
  else if u < 110 then 17 else if u < 114 then 18 else if u < 118 then 21 else if u = 118 then 5 else if u = 119 then 14
  else if u = 120 then 25 else 4

/-- The commit unit whose quay set a BAR0 offset belongs to (R67). A loop's fields belong to the capstan its quay CAP names. -/
def State.unitOfOff (s : State) (off : Nat) : Nat :=
  if off < 0x18000 then 121 else if off < 0x20000 then 118
  else if off < 0x38000 then (off - 0x20000) / 0x4000
  else if off < 0x40000 then (off - 0x38000) / 0x800
  else if off < 0x48000 then (off - 0x40000) / 0x1000
  else if off < 0x50000 then 6 + (off - 0x48000) / 0x400
  else if off < 0x58000 then 22 + (off - 0x50000) / 0x100
  else if off < 0x60000 then 119
  else if off < 0x68000 then 38 + (off - 0x60000) / 0x80
  else if off < 0x6A000 then 62 + s.qv Reg.LOOP_CFG_CAP ((off - 0x68000) / 0x40)
  else if off < 0x70000 then 62 + (off - 0x6A000) / 0x40
  else if off < 0x74000 then 78 + (off - 0x70000) / 0x40
  else if off < 0x78000 then 110 + (off - 0x74000) / 0x40
  else if off < 0xA0000 then 114 + (off - 0x80000) / 0x100
  else 120

/-- A quay or live entry belongs to a unit of the mask `us`. -/
def State.keyIn (s : State) (us k : Nat) : Bool := bitOf us (s.unitOfOff (k / 64))

/-! ### Per-index stores -/

def SqSt.init : SqSt := ⟨[], [], 0, none, 0, 0, []⟩
def EqSt.init : EqSt := ⟨[], 0, 0, none, false, []⟩
def State.sqs (s : State) (n : Nat) : SqSt := tget SqSt.init s.sq n
def State.setSq (s : State) (n : Nat) (q : SqSt) : State := { s with sq := tput SqSt.init s.sq n q }
def State.eqs (s : State) (n : Nat) : EqSt := tget EqSt.init s.eq n
def State.setEq (s : State) (n : Nat) (q : EqSt) : State := { s with eq := tput EqSt.init s.eq n q }

/-- A boomed unit (R335), a laid-up unit (R364), a unit that takes no action (R92). -/
def State.isBoomed (s : State) (u : Nat) : Bool := tget false s.boomed u
def State.isLaid (s : State) (u : Nat) : Bool := tget false s.laid u
def State.fenced (s : State) (u : Nat) : Bool := s.isBoomed u || s.isLaid u
def State.setBoomed (s : State) (u : Nat) (b : Bool) : State := { s with boomed := tput false s.boomed u b }
def State.setLaid (s : State) (u : Nat) (b : Bool) : State := { s with laid := tput false s.laid u b }

/-! ### Interrupts and records -/

/-- Vector `v` of function `p` is masked (its Vector Control word, R28; masked at reset). -/
def State.vecMasked (s : State) (p v : Nat) : Bool := bitOf (tget 1 s.msixTab (p * 16384 + 16 * v + 12)) 0

/-- Signal an MSI-X vector (R31, R391): sent, held pending where masked or Bus Master Enable is 0, nothing while disabled. -/
def State.signal (s : State) (p v : Nat) : State :=
  let f := s.pf p
  if !f.msixEn then s
  else if s.vecMasked p v || !f.bme then s.setPf p { f with pba := setBit f.pba v true }
  else s.emit (.msix p v)

/-- The size in slots of event ring `n` (R50): LOG2SIZE outside 4–16 acts as 4. -/
def ringSize (k : Nat) : Nat := if 4 ≤ k ∧ k ≤ 16 then 2 ^ k else 16
def State.eqSize (s : State) (n : Nat) : Nat := ringSize (s.rd Reg.EQ_CFG_LOG2SIZE n)
def State.sqSize (s : State) (n : Nat) : Nat := ringSize (s.rd Reg.SQ_CFG_LOG2SIZE n)

/-- Event ring `n` is full (R47). -/
def State.eqFull (s : State) (n : Nat) : Bool :=
  (s.rd Reg.EQ_TAIL_TAIL n + 1) % s.eqSize n == s.rd Reg.EQ_HEAD_HEAD n

/-- Hand a record to ring `n` (R14, R56): to holdover, to the ring's share, or discarded and counted. Its stamp is device time. -/
def State.produce (s : State) (n : Nat) (r : Rec) : State :=
  let e := s.eqs n
  let r := { r with stamp := s.stamp, degraded := s.degraded }
  if e.held && e.share.isEmpty && decide (s.holdover.length < 256) then
    { s with holdover := s.holdover ++ [(n, r)] }
  else if e.share.length < 256 then s.setEq n { e with share := e.share ++ [r] }
  else
    let s := (s.setEq n { e with owed := e.owed + 1 }).cnt Reg.EQ_STAT_LOST n
    if e.held then s.cnt Reg.RING_HOLDOVER_LOST else s

/-- A record of a type other than a completion (R45, R49). -/
def mkRec (typ status src crx data : Nat) : Rec := ⟨typ, status, src, 0, crx, 0, 0, false, data⟩

/-! Status codes of R51. -/
namespace St
def ok : Nat := 0x00
def late : Nat := 0x01
def missed : Nat := 0x02
def spoiled : Nat := 0x03
def abandoned : Nat := 0x04
def refusedBudget : Nat := 0x05
def refusedState : Nat := 0x06
def badDesc : Nat := 0x07
def timeout : Nat := 0x08
def fenced : Nat := 0x09
def overlap : Nat := 0x0A
def domainDown : Nat := 0x0B
def ecc : Nat := 0x0C
def locked : Nat := 0x0D
def mismatch : Nat := 0x0E
def staleTally : Nat := 0x0F
def targetBehind : Nat := 0x10
def overspeed : Nat := 0x11
def jam : Nat := 0x12
def reliefExhausted : Nat := 0x13
end St

/-! ### Descriptors (R42) -/

/-- Bits [lo + w − 1 : lo] of the field that starts at byte `byte` of a descriptor. -/
def dget (d : Desc) (byte lo w : Nat) : Nat := d.toNat / 2 ^ (8 * byte + lo) % 2 ^ w
def dOpc (d : Desc) : Nat := dget d 0 0 8
def dQuiet (d : Desc) : Bool := dget d 1 0 1 == 1
def dFence (d : Desc) : Bool := dget d 1 1 1 == 1
def dSeq (d : Desc) : Nat := dget d 2 0 16
def dTag (d : Desc) : Nat := dget d 4 0 32
def dCrx (d : Desc) : Nat := dget d 8 0 32
def dLink (d : Desc) : Nat := dget d 12 0 16
/-- Bytes a to b − 1 of a descriptor are zero (reserved bytes, R5). -/
def dZero (d : Desc) (a b : Nat) : Bool := dget d a 0 (8 * (b - a)) == 0

/-- The completion record of a descriptor (R45). -/
def completionRec (j : Job) (status data : Nat) : Rec :=
  ⟨0, status, j.ring + 2 ^ 15 * j.pf, dTag j.d, dCrx j.d, dSeq j.d, 0, false, data⟩

/-- A started descriptor completes (R39, R42, R49): its ring counts one incomplete descriptor less, and its record is produced
unless FLG.QUIET meets OK. -/
def State.complete (s : State) (j : Job) (status : Nat) (data : Nat := 0) : State :=
  let q := s.sqs j.ring
  let s := s.setSq j.ring { q with running := q.running - 1 }
  if dQuiet j.d && decide (status = St.ok) then s else s.produce j.eq (completionRec j status data)

/-- Signal a vector behind the records that ring `n` has waiting (R349). -/
def State.signalAfter (s : State) (n p v : Nat) : State :=
  let k := (s.holdover.filter fun x => x.1 == n).length + (s.eqs n).share.length
  if k = 0 then s.signal p v else s.setEq n { s.eqs n with sigs := (s.eqs n).sigs ++ [(k, p, v)] }

/-- A record of ring `n` has been delivered: messages that waited only for it go (R349). -/
def State.sigStep (s : State) (n : Nat) : State :=
  let e := s.eqs n
  let go := e.sigs.filter fun x => decide (x.1 ≤ 1)
  let s := s.setEq n { e with sigs := (e.sigs.filter fun x => decide (1 < x.1)).map fun x => (x.1 - 1, x.2) }
  go.foldl (fun s x => s.signal x.2.1 x.2.2) s


/-- The front accepted descriptor of ring `n`, where its opcode is `opc` and FLG.FENCE lets it start (R39): it starts. -/
def State.start (s : State) (n opc : Nat) : Option (Job × State) :=
  let q := s.sqs n
  match q.accepted with
  | [] => none
  | d :: ds =>
    if dOpc d = opc ∧ (dFence d = true → q.running = 0) then
      some (⟨n, s.rd Reg.SQ_CFG_EQ n, s.ownSq n, d⟩, s.setSq n { q with accepted := ds, running := q.running + 1 })
    else none

/-- Start the front descriptor of ring `n` with opcode `opc` and run `k` on it; no effect where none may start. -/
def State.withDesc (s : State) (n opc : Nat) (k : Job → State → State) : State :=
  match s.start n opc with
  | none => s
  | some (j, s') => k j s'

/-! ### Posting stages (R62) -/

/-- The DROP bit of the POST block at `base`. -/
def dropFld (base : Nat) : Fld :=
  match base with
  | 0 => Reg.GEN_POST_STAT_DROP
  | 0x78000 => Reg.THERM_POST_STAT_DROP
  | 0x7C000 => Reg.SEQ_POST_STAT_DROP
  | 0x88000 => Reg.FAULT_POST_STAT_DROP
  | _ => Reg.PWRMODE_POST_STAT_DROP

/-- A write to a POST field of the block at `base`: dropped where its stage holds a write (R62), else `k`. -/
def State.staged (s : State) (base : Nat) (k : State → State) : State :=
  if (tget none s.post base).isSome then s.wr (dropFld base) 1 else k s

/-! ### Quay and live sets -/

/-- Write the quay value of a QS field; its unit turns DIRTY, and pending commits that name it note the write (R68, R73). -/
def State.qset (s : State) (f : Fld) (v : Nat) (i : Nat := 0) (j : Nat := 0) : State :=
  let u := s.unitOfOff (f.addr i j)
  let s := { s with quay := tput (f.rst i j) s.quay (f.key i j) (v % 2 ^ f.width) }
  let s := s.wr Reg.GEN_QUAY_STAT_DIRTY 1 u
  { s with commits := s.commits.map fun c => if bitOf c.units u then { c with late := setBit c.late u true } else c }

/-- Write an entry of a live or quay table without its reset value at hand: the entry is listed as it is. -/
def tset {α : Type} (t : Tbl α) (e : Nat × α) : Tbl α := tins (tdel t e.1) e.1 e.2

/-- The part of table `from` that belongs to the units of mask `us`, replacing theirs in table `into` (R68, R74). -/
def State.copyUnits (s : State) (us : Nat) (src into : Tbl Nat) : Tbl Nat :=
  (src.filter fun e => s.keyIn us e.1).foldl tset (into.filter fun e => !s.keyIn us e.1)

end Sys2Proof.Machine
end

