-- ==== Sys2Proof/Machine/UnitOps.lean ====
section
/-! DEFINITION. What every unit does when it is stopped, tripped or turned off (R217, R232, R233, R236, R245): shared by the
units' own chapters, by booms and by abandonment. -/

namespace Sys2Proof.Machine

def Drv.init : Drv :=
  { phi := 0, tau := 1, vec := 0, prev := 0, decAt := 0, psiA := 0, psiB := 0, iA := 0, iB := 0, ramped := 0, sumE := 0, tref := 0,
    clamped := false, want := 0, fwd := true, catches := 0, searches := 0, retryAt := none, findOnly := false, searchS := 0,
    stallAt := none, pinOk := true, curveOn := false, angle := 0, trips := 0, offAfter := false, stopPend := false, haltAt := none }
def BusGrp.init : BusGrp :=
  { mv := 0, fault := false, ovr := false, forced := false, forcedEnd := none, overEnd := none, sense := false, chkAt := none, uvAt := none }
def Mot.init : Mot :=
  { p := 0, v := 0, p0 := 0, v0 := 0, i := 0, held := false, target := 0, vmax := 0, accel := 0, turning := false, behind := false,
    arrived := false, home := none, job := none, reason := 0, inposBy := none, stop := none, reqs := [], lastK := 0 }
def Seg.init : Seg := ⟨0, 0, 0, 0, true, false⟩
def Coil.init : Coil := ⟨0, 0, false, false, 0, 0, 0, 0⟩
def Stp.init : Stp := ⟨0, 0, 0, 0, 0, Coil.init, Coil.init, false, 0⟩
def State.drvs (s : State) (n : Nat) : Drv := tget Drv.init s.drv n
def State.setDrv (s : State) (n : Nat) (d : Drv) : State := { s with drv := tput Drv.init s.drv n d }
def State.buss (s : State) (g : Nat) : BusGrp := tget BusGrp.init s.bus g
def State.setBus (s : State) (g : Nat) (b : BusGrp) : State := { s with bus := tput BusGrp.init s.bus g b }
def State.mots (s : State) (m : Nat) : Mot := tget Mot.init s.mot m
def State.setMot (s : State) (m : Nat) (x : Mot) : State := { s with mot := tput Mot.init s.mot m x }
def State.stps (s : State) (k : Nat) : Stp := tget Stp.init s.stp k
def State.setStp (s : State) (k : Nat) (x : Stp) : State := { s with stp := tput Stp.init s.stp k x }

/-- Throttle target `u` takes the factor of the last readings before this edge (R301): heaters 0–3, drive channels 4–19. -/
def State.takeThr (s : State) (u : Nat) : State :=
  if s.thrAt < s.now then s.wr Reg.THM_THR_THR (tget 256 s.thrWant u) u else s

/-! DRV_STAT.STATE (R217) and MOT_STAT.STATE (R236). -/
namespace Dst
def off : Nat := 0
def catch_ : Nat := 1
def search : Nat := 2
def short : Nat := 3
def run : Nat := 4
def stopping : Nat := 5
def held : Nat := 6
def tripped : Nat := 7
end Dst
namespace Mst
def idle : Nat := 0
def profile : Nat := 1
def move : Nat := 2
def cruise : Nat := 3
def stopping : Nat := 4
def homeSeek : Nat := 5
def homeTurn : Nat := 6
def homeApproach : Nat := 7
end Mst
def State.dst (s : State) (n : Nat) : Nat := s.rd Reg.DRV_STAT_STATE n
def State.mst (s : State) (m : Nat) : Nat := s.rd Reg.MOT_STAT_STATE m

/-! ### Motion axes -/

/-- floor(p) of a motion axis (R226). -/
def Mot.count (x : Mot) : Nat := x.p / 2 ^ 16 % pos40

/-- The completion status of a reason (R237). -/
def reasonStatus (r : Nat) : Nat :=
  if r ≤ 3 then St.ok else if r = 4 then St.fenced else if r = 5 then St.overlap else St.badDesc

/-- The descriptor of motion axis `m` completes (R237). -/
def State.motComplete (s : State) (m reason : Nat) : State :=
  let x := s.mots m
  match x.job with
  | none => s
  | some j => (s.setMot m { x with job := none }).complete j (reasonStatus reason) (reason + 2 ^ 8 * x.count)

/-- A motion axis of a MOTION_STOP is IDLE, or its channel OFF (R232). -/
def State.motQuiet (s : State) (m : Nat) : Bool :=
  s.mst m == Mst.idle || (if m < 16 then s.dst m == Dst.off else s.rd Reg.STP_STAT_STATE (m - 16) == 0)

/-- MOTION_STOP descriptors whose axes have all stopped complete OK (R232). -/
def State.checkStops (s : State) : State :=
  (s.stopWaits.filter fun w => (bitsOf w.axes 32).all s.motQuiet).foldl
    (fun s w => ({ s with stopWaits := s.stopWaits.filter fun x => x.job != w.job }).complete w.job St.ok) s

/-- Motion axis `m` becomes IDLE and its descriptor completes with `reason` (R236, R237). -/
def State.motIdle (s : State) (m reason : Nat) : State :=
  let s := (s.wr Reg.MOT_STAT_STATE Mst.idle m).motComplete m reason
  (s.setMot m { s.mots m with v := 0, home := none, inposBy := none }).checkStops

/-- A stop of motion axis `m` with `reason` to report reaches it at its next sample (R226, R232, R233). -/
def State.motHalt (s : State) (m reason : Nat) : State :=
  s.setMot m { s.mots m with stop := some ((s.mots m).stop.getD reason) }

/-- Motion axis `m` takes a stop at its sample (R233): STOPPING with `reason` to report; a drive that is at rest already leaves it IDLE.
Nothing on an axis that is IDLE or STOPPING. -/
def State.motStopping (s : State) (m reason : Nat) : State :=
  if s.mst m = Mst.idle ∨ s.mst m = Mst.stopping then s
  else if m < 16 ∧ (s.dst m = Dst.held ∨ s.dst m = Dst.off ∨ s.dst m = Dst.tripped) then s.motIdle m reason
  else
    let x := s.mots m
    (s.wr Reg.MOT_STAT_STATE Mst.stopping m).setMot m
      { x with reason := reason, p0 := x.p, v0 := x.v, i := 0, arrived := false, home := none, inposBy := none }

/-! ### Drive channels -/

/-- Drive channel `n` goes to OFF: gates inactive (R210, R217). -/
def State.drvOff (s : State) (n : Nat) : State :=
  let s := (s.wr Reg.DRV_STAT_STATE Dst.off n).wr Reg.DRV_STAT_BRAKING 0 n
  let s := s.setDrv n { s.drvs n with offAfter := false, stopPend := false, stallAt := none, sumE := 0, tref := 0, ramped := 0 }
  if s.mst n = Mst.stopping then s.motIdle n (s.mots n).reason else s.checkStops

/-- A stop of drive channel `n` (R217); where `off`, HELD is left for OFF. In CATCH, SEARCH and SHORT the stop waits. -/
def State.drvHalt (s : State) (n : Nat) (off : Bool) : State :=
  let d := s.drvs n
  let st := s.dst n
  let s := s.setDrv n { d with offAfter := d.offAfter || (off && st != Dst.off && st != Dst.tripped) }
  if st = Dst.run then (s.wr Reg.DRV_STAT_STATE Dst.stopping n).setDrv n { s.drvs n with haltAt := some s.now }
  else if st = Dst.catch_ ∨ st = Dst.search ∨ st = Dst.short then s.setDrv n { s.drvs n with stopPend := true }
  else if st = Dst.held ∧ off then s.drvOff n
  else s

/-- Drive channel `n` trips (R217, R224, R236): gates inactive, its motion axis IDLE with reason 4; `src` must be cleared first. -/
def State.drvTrip (s : State) (n src : Nat) : State :=
  if s.dst n = Dst.off then s
  else
    let d := s.drvs n
    let s := (s.wr Reg.DRV_STAT_STATE Dst.tripped n).wr Reg.DRV_STAT_BRAKING 0 n
    let s := s.setDrv n { d with trips := setBit d.trips src true, offAfter := false, stopPend := false, stallAt := none,
                                 sumE := 0, tref := 0, ramped := 0 }
    if s.mst n = Mst.idle then s.checkStops else s.motIdle n 4

/-- A stop of motion axis `m` with its channel (R232, R233): on a drive axis the drive channel stops as well. -/
def State.motStop (s : State) (m reason : Nat) : State :=
  if m < 16 then (s.motHalt m reason).drvHalt m false else s.motHalt m reason

/-- A stop that arises in a sample of axis `m` (R228, R234): taken at that sample. -/
def State.motStopNow (s : State) (m reason : Nat) : State :=
  let s := s.motStopping m reason
  if m < 16 then s.drvHalt m false else s

/-! ### Stepper channels -/

/-- Stepper channel `k` turns its gates off (R245). -/
def State.stpOff (s : State) (k : Nat) : State :=
  (((s.wr Reg.STP_STAT_STATE 0 k).wr Reg.STP_STAT_A_TRIP 0 k).wr Reg.STP_STAT_B_TRIP 0 k).setStp k
    { s.stps k with offAfter := false, a := Coil.init, b := Coil.init } |>.checkStops

/-- Stepper channel `k` goes OFF once its motion axis is IDLE (R245): the axis stops with reason 4. -/
def State.stpHalt (s : State) (k reason : Nat) : State :=
  if s.rd Reg.STP_STAT_STATE k = 0 ∨ s.rd Reg.STP_STAT_STATE k = 3 then s
  else if s.mst (16 + k) = Mst.idle then s.stpOff k
  else (s.setStp k { s.stps k with offAfter := true }).motHalt (16 + k) reason

/-- Stepper channel `k` trips (R245). -/
def State.stpTrip (s : State) (k src : Nat) : State :=
  if s.rd Reg.STP_STAT_STATE k = 0 then s
  else
    let x := s.stps k
    let s := (s.wr Reg.STP_STAT_STATE 3 k).setStp k
      { x with trips := setBit x.trips src true, a := Coil.init, b := Coil.init, offAfter := false }
    if s.mst (16 + k) = Mst.idle then s.checkStops else s.motIdle (16 + k) 4

/-! ### Stations and crossings -/

def Stn.init : Stn :=
  { lam := 0, lamAt := 0, b := 0, bSet := false, okRun := 0, sweep := none, sos0 := none, sos1 := none, sosGap := 1, begun := false, flown := 0,
    mism := 0, eosSeen := false, learn := [], learnN := 0, sumL := 0, trim := 0, fNow := 0, fTarget := 0, wLast := 0, expo := none, stop := 0,
    sweepAt := 0, lines := [], alloc := 0, cutRefuse := false, subst := 0, dropped := 0 }
def State.stns (s : State) (n : Nat) : Stn := tget Stn.init s.stn n
def State.setStn (s : State) (n : Nat) (x : Stn) : State := { s with stn := tput Stn.init s.stn n x }
def Bl.init : Bl :=
  { reading := false, refused := false, ident := [], wearA := none, wearB := none, wearFail := none, attempt := 0, since := 0,
    retryAt := none, upSeen := false, marker := 0, mark := none, laneAt := 0, pos := 0, align := 0, train := 0, req := none, queue := [],
    tid := 0, silent := none, pollAt := 0, tempAt := 0, lanes := 0, faults := 0, sync := 0, load := none, stale := false, frames := [],
    charNext := none, relief := false, wearDue := false, wearAt := 0, wear := none, onTime := List.replicate 40 0, onLast := 0 }
def State.bls (s : State) (n : Nat) : Bl := tget Bl.init s.bl n
def State.setBl (s : State) (n : Nat) (x : Bl) : State := { s with bl := tput Bl.init s.bl n x }

/-- One of the three conditions of R134 is lost at station `n`: the base is set again at the next sweep start at which they all hold. -/
def State.baseLost (s : State) (n : Nat) : State :=
  (s.wr Reg.STN_SCAN_STAT_PHASE_OK 0 n).setStn n { s.stns n with bSet := false, okRun := 0 }

/-- The live crossing of an id (R97): boarding, boarded or cast off. -/
def State.live? (s : State) (crx : Nat) : Option Crossing := s.crossings.find? fun c => c.crx == crx && decide (c.state ≤ 3)

/-- Replace the live crossing of an id. -/
def State.setCrx (s : State) (c : Crossing) : State :=
  { s with crossings := s.crossings.map fun x => if x.crx == c.crx && decide (x.state ≤ 3) then c else x }

/-- The detail of R114. -/
def mkDetail (stn kind a b : Nat) : Nat := stn % 8 + 8 * (kind % 32) + 2 ^ 8 * (a % 2 ^ 24) + 2 ^ 32 * (b % 2 ^ 24)

/-- Kinds whose A and B are the first and last line of a range (R114, R187). -/
def lineKind (k : Nat) : Bool := [0x01, 0x02, 0x03, 0x0B].contains k

/-- Extend a detail of the same station and kind whose last line precedes line `a`. -/
def extendDetail (stn kind a b : Nat) : List Nat → Option (List Nat)
  | [] => none
  | d :: ds =>
    if field d 0 3 = stn % 8 ∧ field d 3 5 = kind ∧ (field d 32 24 + 1) % 2 ^ 24 = a % 2 ^ 24 then
      some (mkDetail stn kind (field d 8 24) b :: ds)
    else (extendDetail stn kind a b ds).map (d :: ·)

/-- Record a defect of a crossing (R114): at most 62 details, further defects counted for the OVERFLOW detail. -/
def Crossing.defect (c : Crossing) (stn kind a b : Nat) : Crossing :=
  match (if lineKind kind then extendDetail stn kind a b c.details else none) with
  | some ds => { c with details := ds }
  | none =>
    if c.details.length < 62 then { c with details := c.details ++ [mkDetail stn kind a b] }
    else { c with overflow := c.overflow + 1 }

/-- Record a defect of the live crossing of an id. -/
def State.defect (s : State) (crx stn kind a b : Nat) : State :=
  match s.live? crx with
  | none => s
  | some c => s.setCrx (c.defect stn kind a b)

/-- A station stop is called for (R392): 0 boom, 1 fall of LENs, 2 forced lay-up, 3 local abandonment, 4 engine-wide. -/
def State.stnStop (s : State) (n cause : Nat) : State :=
  let x := s.stns n
  if x.expo.isSome then s.setStn n { x with stop := setBit x.stop cause true } else s

end Sys2Proof.Machine
end

