-- ==== Sys2Proof/Machine/FaultCore.lean ====
section
/-! DEFINITION. Fault sources (R328–R333): live causes, and what the collector does at a raise, its class C boom apart. -/

namespace Sys2Proof.Machine

/-! Source numbers of R328. -/
namespace Src
def refLoss : Nat := 0
def ferryWd : Nat := 1
def eccCe : Nat := 2
def eccUe : Nat := 3
def pfAccess : Nat := 4
def lockViol : Nat := 5
def axisRewind : Nat := 6
def facetLoss : Nat := 7
def scanUnready : Nat := 8
def stnOverspeed : Nat := 9
def scanpllNolock : Nat := 10
def scanclkRange : Nat := 11
def blTrainFail : Nat := 12
def laserCut : Nat := 13
def headDetach : Nat := 14
def drvOc : Nat := 15
def drvGate : Nat := 16
def drvBusUv : Nat := 17
def drvBusOv : Nat := 18
def drvChop : Nat := 19
def drvStall : Nat := 20
def drvAngle : Nat := 21
def drvPinLost : Nat := 22
def motLimit : Nat := 23
def stpShort : Nat := 24
def stpOpen : Nat := 25
def stpStall : Nat := 26
def stpSlew : Nat := 27
def encSignal : Nat := 28
def encWord : Nat := 29
def encIllegal : Nat := 30
def encLinecount : Nat := 31
def emuOverrun : Nat := 32
def capDead : Nat := 33
def capNoRelief : Nat := 34
def capStale : Nat := 35
def capLoopEcc : Nat := 36
def hvCeil : Nat := 37
def hvOver : Nat := 38
def hvArc : Nat := 39
def mainsLost : Nat := 40
def htrNosync : Nat := 41
def htrOver : Nat := 42
def thermBroken : Nat := 43
def dieTrip : Nat := 44
def htrHwtrip : Nat := 45
def coreDroop : Nat := 46
def seqRail : Nat := 47
def seqDownTmo : Nat := 48
def flNodeBoom : Nat := 49
def flStranger : Nat := 50
def flStale : Nat := 51
def flBus : Nat := 52
def straySheet : Nat := 53
def intlkOpen : Nat := 54
def pairBroken : Nat := 55
def ext (i : Nat) : Nat := 56 + i
/-- The unit field of a source that names no unit (R333). -/
def noUnit : Nat := 0xFF
end Src

/-- The class of a source (R330): 0 D, 1 C, 2 B, 3 A. -/
def State.cls (s : State) (src : Nat) : Nat := s.rd Reg.FLT_CLASS_MAP_CLASS (src / 16) (src % 16)

def causeKey (src unit inst : Nat) : Nat := src * 65536 + unit * 256 + inst

/-- A cause of a source begins or ends in a unit (R329). -/
def State.setCause (s : State) (src unit : Nat) (on : Bool) (inst : Nat := 0) : State :=
  { s with causes := tput false s.causes (causeKey src unit inst) on }
def State.hasCause (s : State) (src unit : Nat) (inst : Nat := 0) : Bool := tget false s.causes (causeKey src unit inst)

/-- Sources that have no lasting cause (R328). -/
def eventSrc (src : Nat) : Bool := [1, 2, 3, 4, 5, 6, 9, 12, 21, 23, 27, 30, 31, 32, 35, 37, 39, 48, 50, 51, 52, 53].contains src

/-- Sources whose raises name no unit. -/
def noUnitSrc (src : Nat) : Bool := [0, 1, 2, 3, 4, 5, 32, 40, 43, 44, 45, 46, 47, 48, 53, 54, 55].contains src || decide (56 ≤ src)

/-- The class that a source acts as (R331): one mapped to class C that names no unit acts as class D. -/
def State.actCls (s : State) (src : Nat) : Nat := if s.cls src = 1 ∧ noUnitSrc src then 0 else s.cls src

/-- A latch bit of class A or B is set (R331); FLT_GRAVE keeps its bits of class A whatever the class map (R334). -/
def State.abLatched (s : State) : Bool :=
  s.rd Reg.FLT_GRAVE != 0 || (List.range 64).any fun i => bitOf (s.rd Reg.FLT_LATCH) i && decide (2 ≤ s.cls i)
def State.aLatched (s : State) : Bool :=
  s.rd Reg.FLT_GRAVE != 0 || (List.range 64).any fun i => bitOf (s.rd Reg.FLT_LATCH) i && decide (s.cls i = 3)

/-- The fault record of a raise, unless the same source and unit produced one within the last 1 ms (R333). -/
def State.faultRecord (s : State) (src unit inst info : Nat) : State :=
  let k := src * 256 + unit
  let rec' (sup : Nat) := mkRec 3 St.ok (src + 64 * s.cls src + 256 * unit) 0 (inst + 2 ^ 16 * min 0xFFFF sup + 2 ^ 32 * info)
  let eq := s.rd Reg.RING_EVT_ROUTE_FAULT
  match tget none s.lastRec k with
  | none => ({ s with lastRec := tput none s.lastRec k (some (s.now, 0)) }).produce eq (rec' 0)
  | some (t, sup) =>
    if s.now < t + 1000000 then { s with lastRec := tput none s.lastRec k (some (t, sup + 1)) }
    else ({ s with lastRec := tput none s.lastRec k (some (s.now, 0)) }).produce eq (rec' sup)

/-- A power record (R313). -/
def State.powerRec (s : State) (kind status data : Nat) : State :=
  s.produce (s.rd Reg.RING_EVT_ROUTE_POWER) (mkRec 8 status kind 0 data)

/-- Latch, record and signal a raise, and its reaction of class A or B (R329, R331–R333): the cause of an engine-wide
abandonment waits for the abandonment's edge (R332). -/
def State.collect (s : State) (src unit inst info : Nat) : State :=
  let c := s.cls src
  let s := if 2 ≤ c && !bitOf (s.rd Reg.FLT_LATCH) src then { s with lbDue := s.lbDue ++ [if c = 3 then 6 else 7] } else s
  let s := { s with raisedAt := tput 0 s.raisedAt src (s.now + 1) }.wr Reg.FLT_LATCH (setBit (s.rd Reg.FLT_LATCH) src true)
  let s := if c = 3 then s.wr Reg.FLT_GRAVE (setBit (s.rd Reg.FLT_GRAVE) src true) else s
  let s := s.faultRecord src unit inst info
  let s := if 2 ≤ c ∨ c = 1 ∧ unit ≠ Src.noUnit then s.signal 0 48 else s
  if s.eng.isSome then s
  else if src = Src.refLoss then { s with abCauses := setBit s.abCauses 1 true }
  else if c = 3 then { s with abCauses := setBit s.abCauses 2 true }
  else if c = 2 then { s with abCauses := setBit s.abCauses 3 true }
  else s

end Sys2Proof.Machine
end

