-- ==== Sys2Proof/Machine/CapOps.lean ====
section
/-! DEFINITION. Capstan assignments: load, tallies, migration and orphans (R278, R280–R282, R284), shared by booms, lay-up,
commits and chapter 13's own commands. -/

namespace Sys2Proof.Machine

def Loop.init : Loop := ⟨none, [], true, false⟩
def State.loops (s : State) (l : Nat) : Loop := tget Loop.init s.loop l
def State.setLoop (s : State) (l : Nat) (x : Loop) : State := { s with loop := tput Loop.init s.loop l x }
def Cap.init : Cap := ⟨0, 0⟩
def State.caps (s : State) (c : Nat) : Cap := tget Cap.init s.cap c
def State.setCap (s : State) (c : Nat) (x : Cap) : State := { s with cap := tput Cap.init s.cap c x }

/-! CAP_STAT.STATE. -/
namespace Cst
def off : Nat := 0
def relief : Nat := 1
def running : Nat := 2
def dead : Nat := 3
def stale : Nat := 4
def laid : Nat := 5
end Cst

/-- The enabled loops that capstan `c` holds (R262). -/
def State.loopsOf (s : State) (c : Nat) : List Nat :=
  (List.range 128).filter fun l => s.lon Reg.LOOP_CFG_EN l && s.lv Reg.LOOP_CFG_CAP l == c

/-- The cycles of a block type (R266), 0 where undefined. -/
def blockCycles (t : Nat) : Nat :=
  match t with
  | 0x01 => 8 | 0x02 => 6 | 0x03 => 14 | 0x04 => 12 | 0x05 => 8 | 0x06 => 10 | 0x07 => 12 | 0x08 => 10 | 0x09 => 16 | 0x0A => 4
  | 0x0B => 4
  | _ => 0

/-- Block `i` of the block table, and its TYPE (R265). -/
def State.blk (s : State) (i : Nat) : Nat := tget 0 s.block i
def blkType (b : Nat) : Nat := field b 0 6

/-- The cost of the program of `n` blocks from `first` (R266). -/
def State.progCost (s : State) (first n : Nat) : Nat :=
  20 + ((List.range n).map fun i => blockCycles (blkType (s.blk (first + i)))).sum

/-- The largest load over periods 0–1,023 of loops given by (cost, rate shift, phase) (R278). -/
def maxLoad (ls : List (Nat × Nat × Nat)) : Nat :=
  if ls = [] then 0
  else (List.range 1024).foldl (fun m k => max m ((ls.filter fun x => (k + x.2.2) % 2 ^ x.2.1 == 0).map (·.1)).sum) 0

/-- LOAD of capstan `c` in the live set (R278). -/
def State.capLoad (s : State) (c : Nat) : Nat :=
  maxLoad ((s.loopsOf c).map fun l => (s.progCost (s.lv Reg.LOOP_PROG_FIRST l) (s.lv Reg.LOOP_PROG_COUNT l),
    s.lv Reg.LOOP_CFG_RATE_SHIFT l, s.lv Reg.LOOP_CFG_PHASE l))

/-- CAP_STAT of capstan `c` shows its present assignment. -/
def State.capRefresh (s : State) (c : Nat) : State :=
  let st := s.rd Reg.CAP_STAT_STATE c
  let s := s.wr Reg.CAP_STAT_LOAD (s.capLoad c) c
  if s.isLaid (62 + c) then s.wr Reg.CAP_STAT_STATE Cst.laid c
  else if s.isBoomed (62 + c) then (if st = Cst.stale then s else s.wr Reg.CAP_STAT_STATE Cst.dead c)
  else if !s.lon Reg.CAP_CFG_EN c then s.wr Reg.CAP_STAT_STATE Cst.off c
  else s.wr Reg.CAP_STAT_STATE (if (s.loopsOf c).isEmpty then Cst.relief else Cst.running) c

/-- Capstan `c` gets the next tally (R281): 16 bits, skipping 0; its loops carry it. -/
def State.giveTally (s : State) (c : Nat) : State :=
  let t := s.rd Reg.CAP_TALLY_NEXT 0
  let nx := if t = 0xFFFF then 1 else t + 1
  let s := (List.range 16).foldl (fun s i => s.wr Reg.CAP_TALLY_NEXT nx i) (s.wr Reg.CAP_TALLY_TALLY t c)
  (s.loopsOf c).foldl (fun s l => s.wr Reg.LOOP_STAT_TALLY t l) s

/-- A capstan report (R284). -/
def State.capReport (s : State) (c kind status data : Nat) : State :=
  s.produce (s.rd Reg.RING_EVT_ROUTE_UNIT) (mkRec 4 status (c + 16 * kind + 0x0D00) 0 data)

/-- The relief of R280: enabled, in service, holding no loop. -/
def State.reliefCap (s : State) : Option Nat :=
  (List.range 16).find? fun c => s.lon Reg.CAP_CFG_EN c && !s.fenced (62 + c) && (s.loopsOf c).isEmpty

/-- Loop `l` stops as an orphan under its ON_LOSS (R280, R284). -/
def State.orphan (s : State) (l : Nat) : State :=
  let s := s.wr Reg.LOOP_STAT_ORPHAN 1 l
  if s.lon Reg.LOOP_CFG_ON_LOSS l then (List.range 4).foldl (fun s j => s.wr Reg.LOOP_OUT_OUT 0 l j) s else s

/-- Loop `l` restarts as at enable (R271–R273, R280, R311): state words, signals, region and outputs are lost. -/
def State.loopEnable (s : State) (l : Nat) : State :=
  let c := s.lv Reg.LOOP_CFG_CAP l
  let s := { s with lword := s.lword.filter fun e => e.1 / 64 != l }
  let s := (List.range 32).foldl (fun s i => s.wr Reg.LOOP_SIG 0 l i) s
  let s := (List.range 4).foldl (fun s j => s.wr Reg.LOOP_OUT_OUT 0 l j) s
  let s := ((s.wr Reg.LOOP_STAT_REGION 0 l).wr Reg.LOOP_STAT_ECC 0 l).wb Reg.LOOP_STAT_ORPHAN (s.fenced (62 + c)) l
  (s.wr Reg.LOOP_STAT_TALLY (s.rd Reg.CAP_TALLY_TALLY c) l).setLoop l Loop.init

/-- The loops of capstan `c` move to capstan `r` (R280): CAP, quay and live, becomes the relief, which gets a new tally. -/
def State.migrateTo (s : State) (c r : Nat) (layup byBeats : Bool) : State :=
  let ls := s.loopsOf c
  let s := ls.foldl (fun s l =>
    let k := Reg.LOOP_CFG_CAP.key l 0
    { s with live := tput 0 s.live k r, quay := tput 0 s.quay k r }.wr Reg.LOOP_STAT_ORPHAN (if s.on Reg.LOOP_STAT_ECC l then 1 else 0) l
      |>.setLoop l { s.loops l with moved := true }) s
  let s := ((s.giveTally r).capRefresh r).capRefresh c
  s.capReport c 1 St.ok (r + 16 * ls.length + 2 ^ 12 * s.rd Reg.CAP_TALLY_TALLY r + (if layup then 2 ^ 28 else 0) +
    (if byBeats then 2 ^ 29 else 0))

/-- The loops of a boomed capstan `c` migrate, or are orphaned where no relief exists (R280). -/
def State.migrate (s : State) (c : Nat) (byBeats : Bool) : State :=
  let ls := s.loopsOf c
  if ls = [] then s.capRefresh c
  else match s.reliefCap with
    | some r => s.migrateTo c r false byBeats
    | none =>
      let s := (ls.foldl (fun s l => s.orphan l) s).capRefresh c
      (s.capReport c 2 St.ok ls.length).collect Src.capNoRelief (62 + c) 0 0

end Sys2Proof.Machine
end

