-- ==== Sys2Proof/Machine/HvOps.lean ====
section
/-! DEFINITION. High-voltage channels, heaters and the mains phase: the transitions of R290 and R296 that booms, abandonment,
interlocks and power modes share with chapter 14's own commands, and the pins that R302, R303, R331 and R342 hold inactive. -/

namespace Sys2Proof.Machine

/-! HV_STAT.STATE (R290) and HTR_STAT.STATE (R296). -/
namespace Hst
def off : Nat := 0
def run : Nat := 1
def blank : Nat := 2
def down : Nat := 3
def tripped : Nat := 4
end Hst
namespace Tst
def off : Nat := 0
def run : Nat := 1
def down : Nat := 2
def tripped : Nat := 3
end Tst

/-- An input INTLKi that satisfies `p` reads open (R342). -/
def State.intlkAny (s : State) (p : Nat → Bool) : Bool :=
  (List.range 8).any fun i => bitOf (s.rd Reg.IO_INTLK_STAT_OPEN) i && p i

/-- Every output is held inactive: a die trip or a class A latch (R302, R331). -/
def State.allHeld (s : State) : Bool := s.graveHold || s.on Reg.THM_HW_STAT_DIE_HOLD

/-! ### High-voltage channels -/

def Hv.init : Hv := ⟨0, 0, 0, 0, 0, 0, 0, 0, [], false, 0, false⟩
def State.hvs (s : State) (h : Nat) : Hv := tget Hv.init s.hv h
/-- Store channel `h` and show its reference and target (HV_STAT, HV_LEVEL). -/
def State.setHv (s : State) (h : Nat) (x : Hv) : State :=
  ((({ s with hv := tput Hv.init s.hv h x }).wrI Reg.HV_STAT_REF (Config.rnd x.ref 256) h).wb Reg.HV_STAT_AT_TARGET
    (decide (x.ref = 256 * x.target)) h).wrI Reg.HV_LEVEL_TARGET x.target h
def State.hst (s : State) (h : Nat) : Nat := s.rd Reg.HV_STAT_STATE h
def State.setHst (s : State) (h st : Nat) : State := s.wr Reg.HV_STAT_STATE st h

/-- The HVPWM pins are held inactive (R302, R331, R342). -/
def State.hvHeld (s : State) : Bool := s.allHeld || s.intlkAny fun i => s.on Reg.IO_INTLK_ROUTE_HV_ALL i

/-- STOP_RAMP of channel `h`: 0 acts as 1. -/
def State.stopRamp (s : State) (h : Nat) : Nat := max 1 (s.lv Reg.HV_RAMP_STOP_RAMP h)

/-- Channel `h` goes to OFF with its output inactive at once (R290). -/
def State.hvOff (s : State) (h : Nat) : State :=
  if s.hst h = Hst.off then s
  else (s.setHst h Hst.off).setHv h { s.hvs h with duty := 0, blank := 0, soft := 0, offAfter := false, trips := 0, quiet := false }

/-- Channel `h` trips for source `src` (R290): its output stays inactive until REARM. -/
def State.hvTrip (s : State) (h src : Nat) : State :=
  if s.hst h = Hst.off then s
  else (s.setHst h Hst.tripped).setHv h
    { s.hvs h with duty := 0, blank := 0, soft := 0, offAfter := false, trips := setBit (s.hvs h).trips src true, quiet := true }

/-- The target of channel `h` becomes REST along STOP_RAMP: a local abandonment names it in HV_REST (R290). -/
def State.hvRest (s : State) (h : Nat) : State :=
  if s.hst h = Hst.run ∨ s.hst h = Hst.blank then
    (s.setHst h Hst.run).setHv h { s.hvs h with target := s.lvI Reg.HV_RAMP_REST h, ramp := s.stopRamp h, blank := 0 }
  else s

/-- Step 2 of R121 on channel `h` (R290). -/
def State.hvZero (s : State) (h : Nat) : State :=
  if s.hst h = Hst.run ∨ s.hst h = Hst.blank then
    (s.setHst h Hst.down).setHv h { s.hvs h with target := 0, ramp := s.stopRamp h, blank := 0, soft := 0 }
  else s

/-- Channel `h` is laid up or disabled (R290, R364): it ramps to 0 first; in TRIPPED it stays until its sources are cleared, in DOWN it goes OFF once its reference is 0 (log 19). -/
def State.hvLeave (s : State) (h : Nat) : State :=
  if s.hst h = Hst.off then s
  else if s.hst h = Hst.tripped then s.setHv h { s.hvs h with target := 0, ramp := s.stopRamp h }
  else if (s.hvs h).ref = 0 then s.hvOff h
  else
    (if s.hst h = Hst.blank then s.setHst h Hst.run else s).setHv h
      { s.hvs h with target := 0, ramp := s.stopRamp h, offAfter := true, blank := 0 }

/-- A commit leaves EN = 1 on channel `h` (R290). -/
def State.hvStart (s : State) (h : Nat) : State :=
  if s.hst h = Hst.off then
    (s.setHst h Hst.run).setHv h
      { s.hvs h with target := s.lvI Reg.HV_RAMP_REST h, ref := 0, duty := 0, blank := 0, soft := 0, offAfter := false }
  else if (s.hvs h).offAfter then s.setHv h { s.hvs h with offAfter := false, target := s.lvI Reg.HV_RAMP_REST h }
  else s

/-- A source that tripped channel `h` is cleared (R290); with the last one the channel leaves TRIPPED. -/
def State.hvClear (s : State) (h src : Nat) : State :=
  if s.hst h = Hst.tripped then
    let t := setBit (s.hvs h).trips src false
    let s := s.setHv h { s.hvs h with trips := t }
    if t = 0 then s.setHst h (if s.lon Reg.HV_CFG_EN h && !s.fenced (78 + h) then Hst.down else Hst.off) else s
  else s

/-! ### Heaters -/

def Htr.init : Htr := ⟨0, false, false, 0, false, none, none, none, none, 0⟩
def State.htrs (s : State) (k : Nat) : Htr := tget Htr.init s.htr k
def State.setHtr (s : State) (k : Nat) (x : Htr) : State := { s with htr := tput Htr.init s.htr k x }
def State.tst (s : State) (k : Nat) : Nat := s.rd Reg.HTR_STAT_STATE k

/-- The HTRG pin of heater `k` is held inactive (R302, R303, R331, R342). -/
def State.htrHeld (s : State) (k : Nat) : Bool :=
  s.allHeld || (s.intlkAny fun i => bitOf (s.rd Reg.IO_INTLK_ROUTE_HTR i) k) ||
    (List.range 8).any fun j => bitOf (s.rd Reg.THM_HW_STAT_FUS_HOLD) j && bitOf (s.rd Reg.THM_FUS_CMP_HTR_MASK j) k

/-- The output of heater `k` is active (R294, R295): it fires, is not held by OFF = 1, and its pin is not held. -/
def State.htrOn (s : State) (k : Nat) : Bool := (s.htrs k).fire && !(s.htrs k).hold && !s.htrHeld k

/-- The output of heater `k` turns inactive, and nothing of its firing waits. -/
def State.htrQuiet (s : State) (k : Nat) : State :=
  s.setHtr k { s.htrs k with fire := false, unitOn := false, onAt := none, offAt := none, pulseEnd := none }

/-- Heater `k` goes to OFF at once: EN committed 0, lay-up, boom or Moored (R296). -/
def State.htrOff (s : State) (k : Nat) : State :=
  if s.tst k = Tst.off then s
  else
    let s := (s.htrQuiet k).wr Reg.HTR_STAT_STATE Tst.off k
    s.setHtr k { s.htrs k with trips := 0 }

/-- Step 4 of R121 on heater `k` (R296). -/
def State.htrDown (s : State) (k : Nat) : State :=
  if s.tst k = Tst.run then (s.htrQuiet k).wr Reg.HTR_STAT_STATE Tst.down k else s

/-- Heater `k` trips for source `src` (R296). -/
def State.htrTrip (s : State) (k src : Nat) : State :=
  if s.tst k = Tst.off then s
  else
    let s := (s.htrQuiet k).wr Reg.HTR_STAT_STATE Tst.tripped k
    s.setHtr k { s.htrs k with trips := setBit (s.htrs k).trips src true }

/-- A commit leaves EN = 1 on heater `k` (R296). -/
def State.htrStart (s : State) (k : Nat) : State :=
  if s.tst k = Tst.off then
    (s.wr Reg.HTR_STAT_STATE Tst.run k).setHtr k { s.htrs k with acc := s.lv Reg.HTR_ACC_ACC_INIT k, half := none }
  else s

/-- A source that tripped heater `k` is cleared (R296). -/
def State.htrClear (s : State) (k src : Nat) : State :=
  if s.tst k = Tst.tripped then
    let t := setBit (s.htrs k).trips src false
    let s := s.setHtr k { s.htrs k with trips := t }
    if t = 0 then s.wr Reg.HTR_STAT_STATE (if s.lon Reg.HTR_CFG_EN k && !s.fenced (110 + k) then Tst.down else Tst.off) k else s
  else s

/-! ### The mains phase axis -/

/-- AX38's count (R292): 65,536 per tracked period from the last crossing while locked, held otherwise. -/
def State.mainsPos (s : State) : Nat :=
  let m := s.mains
  if s.on Reg.MAINS_STAT_LOCKED ∧ m.period ≠ 0 then (m.base + (s.now - m.baseAt) * 65536 / m.period) % pos40 else m.base

end Sys2Proof.Machine
end

