-- ==== Sys2Proof/Machine/Boom.lean ====
section
/-! DEFINITION. What a boom does to its unit (R335): the unit is fenced, pending commits that name it end (R73), and its
outputs go as the unit's chapter says. -/

namespace Sys2Proof.Machine

/-- A QUAY_COMMIT that named the units `us` completes: its record, and the last status of those units. -/
def State.commitDone (s : State) (j : Job) (us status : Nat) (data : Nat := 0) : State :=
  ((bitsOf us 122).foldl (fun s u => s.wr Reg.GEN_QUAY_STAT_LAST_STATUS status u) s).complete j status data

/-- Finish pending commit `c` with `status` (R73). Heads that have taken its levels, or may have, are rewritten where it does not apply
(R191). -/
def State.endCommit (s : State) (c : Commit) (status : Nat) (data : Nat := 0) : State :=
  let s := if status = St.ok then s else (bitsOf c.heads 6).foldl (fun s n =>
    (s.wr Reg.BL_STAT_HEAD_SYNC 0 n).setBl n { s.bls n with stale := true }) s
  { s with commits := s.commits.eraseP fun x => x.job == c.job }.commitDone c.job c.units status data

/-- The pending commits that name unit `u` complete with FENCED (R73). -/
def State.fenceCommits (s : State) (u : Nat) : State :=
  (s.commits.filter fun c => bitOf c.units u).foldl (fun s c => s.endCommit c St.fenced) s

/-- The outputs of boomed unit `u` go as the table of R335 says. -/
def State.boomOutputs (s : State) (u : Nat) : State :=
  if u < 6 then s.stnStop u 0
  else if u < 22 then (s.motHalt (u - 6) 4).drvHalt (u - 6) true
  else if u < 38 then s.stpHalt (u - 22) 4
  else if u < 62 then s
  else if u < 78 then
    let (b, s) := s.takeFree 2
    s.migrate (u - 62) (b == 1)
  else if u < 110 then s.hvOff (u - 78)
  else if u < 114 then s.htrOff (u - 110)
  else s

/-- Boom commit unit `u` (R335): fenced, its pending commits FENCED (R73), its outputs stopped. -/
def State.boom (s : State) (u : Nat) : State :=
  if s.isBoomed u then s else ((s.setBoomed u true).fenceCommits u).boomOutputs u

/-! ### Fenlink nodes -/

def FNode.init : FNode := ⟨0, false, 0, 0, 0, 0, 0, 0, 0, 0, none, [], none, false⟩
def State.fnodes (s : State) (p a : Nat) : FNode := tget FNode.init s.fnode (p * 256 + a)
def State.setFnode (s : State) (p a : Nat) (x : FNode) : State := { s with fnode := tput FNode.init s.fnode (p * 256 + a) x }

/-- A Fenlink record (R326). -/
def State.flRec (s : State) (p a kind status data : Nat) : State :=
  s.produce (s.rd Reg.RING_EVT_ROUTE_FENLINK) (mkRec 7 status (p + 4 * a + 2 ^ 10 * kind) 0 data)

/-- A node's tally is retired (R322, R324): it is no longer admitted. -/
def State.flRetire (s : State) (p a : Nat) : State :=
  let t := s.rd Reg.FL_NODE_TALLY_TALLY p a
  if t = 0 then s
  else
    let s := s.setFnode p a { s.fnodes p a with retired := t, admitAt := none, sent := none }
    let s := if s.on Reg.FL_NODE_ADMITTED p a then s.wr Reg.FL_STAT_ADMITTED (s.rd Reg.FL_STAT_ADMITTED p - 1) p else s
    ((s.wr Reg.FL_NODE_TALLY_TALLY 0 p a).wr Reg.FL_NODE_ADMITTED 0 p a).wr Reg.FL_NODE_MISSES 0 p a

/-- Boom a Fenlink node (R324): its tally is retired, its inputs hold, no further frames, a BOOMED record. -/
def State.boomNode (s : State) (port node : Nat) : State :=
  if s.on Reg.FL_NODE_BOOMED port node then s
  else
    let t := s.rd Reg.FL_NODE_TALLY_TALLY port node
    let s := s.flRetire port node
    let s := s.wr Reg.FL_NODE_BOOMED 1 port node
    (s.wr Reg.FL_STAT_BOOMED (s.rd Reg.FL_STAT_BOOMED port + 1) port).flRec port node 4 St.ok t

end Sys2Proof.Machine
end

