-- ==== Sys2Proof/Machine/Faults.lean ====
section
/-! DEFINITION. Raising a fault source (R329–R333) with the reaction of its class, the laser enables (R201), and the violations
of R30 and R75. -/

namespace Sys2Proof.Machine

/-! ### Laser enables (R201) -/

/-- An open interlock is routed to station `n` (R342). -/
def State.intlkOpen (s : State) (f : Fld) (n : Nat) : Bool :=
  (List.range 8).any fun i => bitOf (s.rd Reg.IO_INTLK_STAT_OPEN) i && bitOf (s.rd f i) n

/-- LENs is called for (R201, R302, R331); it is low on a station laid up, once its exposure has ended (R364). -/
def State.lenWanted (s : State) (n : Nat) : Bool :=
  !s.intlkOpen Reg.IO_INTLK_ROUTE_STN n && !s.aLatched && !s.allHeld && !(s.isLaid n && (s.stns n).expo.isNone) && ((s.bls n).upSeen || s.lv Reg.BL_CFG_PORT n == 2)

/-- LENs falls (R201): while exposing, LASER_CUT, the exposure ends at the line boundary, and boarding is refused. The head of a direct
port is no longer ready (R192). -/
def State.lenFall (s : State) (n : Nat) : State :=
  let s := s.wr Reg.BL_STAT_LEN 0 n
  let s := if s.lv Reg.BL_CFG_PORT n = 2 then s.baseLost n else s
  let x := s.stns n
  if x.expo.isNone then s
  else
    let s := (s.setStn n { x with stop := setBit x.stop 1 true, cutRefuse := true }).setCause Src.laserCut n true
    let s := s.collect Src.laserCut n 0 0
    if s.cls Src.laserCut = 1 then s.boom n else s

/-- Bring LENs of station `n` to what R201 calls for. -/
def State.lenOne (s : State) (n : Nat) : State :=
  let w := s.lenWanted n
  if w = s.on Reg.BL_STAT_LEN n then s
  else if w then
    ((s.wr Reg.BL_STAT_LEN 1 n).setStn n { s.stns n with cutRefuse := false }).setCause Src.laserCut n false
  else s.lenFall n

/-- Bring every LENs up to date; a second pass follows a LASER_CUT of class A, which is latched by the first (R331). -/
def State.lensUpdate (s : State) : State := (List.range 12).foldl (fun s n => s.lenOne (n % 6)) s

/-- Bring LENs of station `n` up to date, and every one where its fall has latched a class A fault. -/
def State.lenUpdate (s : State) (n : Nat) : State :=
  let s := s.lenOne n
  if s.aLatched then s.lensUpdate else s

/-! ### Leaving TRIPPED -/

/-- An open interlock that routes drives, steppers, high voltage or heater `k` (R342). -/
def State.intlkHolds (s : State) (f : Fld) (k : Nat) : Bool :=
  (List.range 8).any fun i => bitOf (s.rd Reg.IO_INTLK_STAT_OPEN) i && bitOf (s.rd f i) k

/-- A source has been cleared: drive and stepper channels that only it had tripped leave TRIPPED for OFF (R217, R245), high-voltage
channels and heaters leave under R290 and R296. Until DIE_HOLD is 0, and every interlock that routes a channel is closed, those sources
hold it. -/
def State.tripsClear (s : State) (src : Nat) : State :=
  if src = Src.dieTrip ∧ s.on Reg.THM_HW_STAT_DIE_HOLD then s
  else
    let held (f : Fld) (k : Nat) : Bool := src == Src.intlkOpen && s.intlkHolds f k
    let s := (List.range 16).foldl (fun s n =>
      let t := setBit (s.drvs n).trips src false
      if s.dst n ≠ Dst.tripped ∨ !bitOf (s.drvs n).trips src ∨ held Reg.IO_INTLK_ROUTE_DRV_ALL 0 then s
      else (s.setDrv n { s.drvs n with trips := t }).wr Reg.DRV_STAT_STATE (if t = 0 then Dst.off else Dst.tripped) n) s
    let s := (List.range 16).foldl (fun s k =>
      let t := setBit (s.stps k).trips src false
      if s.rd Reg.STP_STAT_STATE k ≠ 3 ∨ !bitOf (s.stps k).trips src ∨ held Reg.IO_INTLK_ROUTE_STP_ALL 0 then s
      else (s.setStp k { s.stps k with trips := t }).wr Reg.STP_STAT_STATE (if t = 0 then 0 else 3) k) s
    let s := (List.range 32).foldl (fun s h =>
      if !bitOf (s.hvs h).trips src ∨ held Reg.IO_INTLK_ROUTE_HV_ALL 0 then s else s.hvClear h src) s
    (List.range 4).foldl (fun s k =>
      if !bitOf (s.htrs k).trips src ∨ held Reg.IO_INTLK_ROUTE_HTR k ∨ (src = Src.htrOver ∧ s.hasCause Src.htrOver (110 + k)) then s
      else s.htrClear k src) s

/-! ### Raising -/

/-- A fault of class C or milder charged to a drive or stepper channel stops its motion axis and the channel (R217, R232). The
sources whose reaction is TRIPPED are excepted (R217). -/
def State.faultStop (s : State) (src unit : Nat) : State :=
  if 6 ≤ unit ∧ unit < 38 ∧ s.cls src ≤ 1 ∧ src ≠ Src.drvOc ∧ src ≠ Src.drvGate ∧ src ≠ Src.drvBusUv ∧ src ≠ Src.stpShort then s.motStop (unit - 6) 4
  else s

/-- Raise a fault source (R331): collected; class C or milder stops the channel it is charged to; under class C the unit it
names is boomed; a class A latch cuts every LENs (R201). -/
def State.raise (s : State) (src unit : Nat) (inst : Nat := 0) (info : Nat := 0) : State :=
  let s := (s.collect src unit inst info).faultStop src unit
  let s := if s.cls src = 1 then
      if unit < 122 then s.boom unit
      else if 0xF0 ≤ unit ∧ unit < 0xF4 then s.boomNode (unit - 0xF0) inst
      else s
    else s
  if s.aLatched then s.lensUpdate else s

/-- Raise a source whose cause lasts: the cause turns live and the source is raised. -/
def State.raiseLive (s : State) (src unit : Nat) (inst : Nat := 0) (info : Nat := 0) : State :=
  (s.setCause src unit true inst).raise src unit inst info

/-- A write of a locked register (R75). `src` is 0 PF0, 1 PF1, 2 QUAY_STAGE, 3 ferryman. -/
def State.lockViol (s : State) (off src : Nat) : State :=
  let s := s.cnt Reg.GEN_LOCK_VIOL_COUNT
  let s := if s.on Reg.GEN_LOCK_VIOL_VALID then s
    else ((s.wr Reg.GEN_LOCK_VIOL_OFFSET off).wr Reg.GEN_LOCK_VIOL_SRC src).wr Reg.GEN_LOCK_VIOL_VALID 1
  s.raise Src.lockViol Src.noUnit 0 off

/-- An access through a function that does not own its target (R30). -/
def State.pfViol (s : State) (off bar pf : Nat) (write : Bool) : State :=
  let s := if s.on Reg.HOSTIF_VIOL_VALID then s
    else ((((s.wr Reg.HOSTIF_VIOL_OFFSET off).wr Reg.HOSTIF_VIOL_BAR bar).wr Reg.HOSTIF_VIOL_PF pf).wb Reg.HOSTIF_VIOL_WRITE write).wr
      Reg.HOSTIF_VIOL_VALID 1
  s.raise Src.pfAccess Src.noUnit 0 off

end Sys2Proof.Machine
end

