-- ==== Sys2Proof/Machine/Operands.lean ====
section
/-! DEFINITION. Operand forms: who may reach a register (R29, R30, R353), the opcodes the chapters define (R43, R44), the
header check, unit masks, tide entries (R83, R84, R89, R92, R139) and ranges modulo the wraps of R77 and R103. -/

namespace Sys2Proof.Machine

/-! ### Register accesses -/

/-- The function that owns the target of a BAR0 offset (R30), `none` where both functions are served or nothing is mapped. -/
def State.ownerOf (s : State) (off : Nat) : Option Nat :=
  if 0x4000 ≤ off ∧ off < 0x5000 then some (s.ownSq ((off - 0x4000) / 0x40))
  else if 0x5000 ≤ off ∧ off < 0x5400 then some (s.ownEq ((off - 0x5000) / 0x40))
  else match blockOf off with
    | none => none
    | some b => if b < 2 then none else some (s.ownBlk b)

/-- No access is taken in reset. Until GANGWAY closes, and after a failed boot, only GEN answers the functions (R353, R358). -/
def State.barOpen (s : State) (src : Port) (off : Nat) : Bool :=
  !s.boot.rstLow && (decide (src = .ferryman) || decide (off < 0x1000) || (s.on Reg.GEN_GANGWAY_CLOSED && s.rd Reg.GEN_BOOT_STAT_STAGE != 5))

/-- In Moored only GEN, HOSTIF, RING, THERM, SEQ, FAULT and PWRMODE stay reachable: the channel blocks are gated (R311). -/
def State.asleep (s : State) (off : Nat) : Bool :=
  s.rd Reg.PWR_STAT_MODE == 2 && (match blockOf off with
    | none => false
    | some b => !([0, 1, 2, 19, 20, 22, 23, 26].contains b))

/-- Let an access through: dropped while BAR0 is closed (R353), refused and captured where the function does not own the target
(R30), noted where the block sleeps (R311), otherwise `k`. -/
def State.access (s : State) (src : Port) (off : Nat) (write : Bool) (k : State → State) : State :=
  if !s.barOpen src off then s
  else match portPf src with
    | some p =>
      match s.ownerOf off with
      | some o => if o ≠ p then s.pfViol off 0 p write else if s.asleep off then s.wr Reg.PWR_STAT_ASLEEP_ACCESS 1 else k s
      | none => if s.asleep off then s.wr Reg.PWR_STAT_ASLEEP_ACCESS 1 else k s
    | none => k s

/-! ### Descriptor headers -/

/-- The opcodes that the chapters define (R43). -/
def opcodes : List Nat :=
  [0x00, 0x01, 0x02, 0x03, 0x04, 0x05, 0x08, 0x09, 0x20, 0x21, 0x22, 0x23, 0x44, 0x48, 0x4A, 0x4C, 0x50, 0x51, 0x52, 0x56,
   0x60, 0x61, 0x62, 0x63, 0x80, 0x81, 0x82, 0xA0, 0xC0, 0xC1, 0xC2, 0xC4, 0xC5, 0xC8]

/-- A header passes the checks of R44 other than SEQ, at a place of its chain where `link` is due. -/
def headerOk (d : Desc) (link : Nat) : Bool :=
  opcodes.contains (dOpc d) && dget d 1 2 6 == 0 && dget d 14 0 16 == 0 &&
    !(decide (1 ≤ dOpc d) && decide (dOpc d ≤ 0x1F) && dCrx d == 0) && dLink d == link

/-! ### Positions -/

/-- a is ahead of b, behind b, at or ahead of b (R77). -/
def posAhead (a b : Nat) : Bool := let d := (a + pos40 - b % pos40) % pos40; decide (1 ≤ d) && decide (d < 2 ^ 39)
def posDist (a b : Nat) : Nat := (a + pos40 - b % pos40) % pos40
def posReached (s p : Nat) : Bool := decide (posDist s p < 2 ^ 39)
/-- The signed distance a − b of two positions. -/
def posDiff (a b : Nat) : Int := signed 40 (posDist a b)

/-- The next multiple of `r` ahead of position `p`; 0 after the last below 2^40 (R71). -/
def nextMultiple (p r : Nat) : Nat := let m := (p / r + 1) * r; if m < pos40 then m else 0

/-- The encoder port that feeds an axis (R76): a drive channel's, or that of AX40–AX63. -/
def State.axisPort (s : State) (ax : Nat) : Option Nat :=
  if ax < 16 then some (s.lv Reg.DRV_CFG_ENC_PORT ax) else if 40 ≤ ax then some (s.lv Reg.AXIS_CFG_PORT ax) else none
/-- The rate of an axis's reported position in 1/256 count/s (R78, R255): its port's SPEED, negated where INVERT is 1. -/
def State.axisRate (s : State) (ax : Nat) : Int :=
  match s.axisPort ax with
  | some p => if s.lon Reg.AXIS_CFG_INVERT ax then -s.rdI Reg.ENC_SPEED_SPEED p else s.rdI Reg.ENC_SPEED_SPEED p
  | none => if 16 ≤ ax ∧ ax < 32 then s.rdI Reg.MOT_VEL_VEL ax else 0

/-- Line numbers are 24 bits (R103). -/
def lineOff (n first : Nat) : Nat := (n + 2 ^ 24 - first % 2 ^ 24) % 2 ^ 24

/-! ### Tide entries -/

/-- The entry that 128 bits spell (R83). -/
def entryOf (v : Nat) : TEntry where
  pos := field v 0 40
  axis := field v 40 6
  action := field v 46 6
  late := field v 52 1 == 1
  eq := field v 53 4
  target := field v 57 7
  arg := field v 64 32
  crx := field v 96 32

/-- The entry carried in a descriptor from byte `byte` (R83). -/
def entryAt (d : Desc) (byte : Nat) : TEntry := entryOf (dget d byte 0 128)

/-- The segment that 128 bits spell (R227), and the entry of a node list (R321) beside the node's other state. -/
def segRaw (v : Nat) : Seg := ⟨field v 0 40, field v 40 24, field v 64 32, field v 96 12, field v 108 1 == 1, field v 109 1 == 1⟩
def nodeRaw (old : FNode) (v : Nat) : FNode :=
  { old with id := field v 0 32, en := field v 32 1 == 1, dir := field v 40 8, wake := field v 48 8, ev := field v 56 8,
             slot := field v 64 6, every := field v 72 3, phase := field v 80 7, delay := field v 88 8 }

/-- TARGET and ARG lie in the action's range, and the action is defined and not manifest-only (R84, R89, R139). -/
def entryOk (e : TEntry) : Bool :=
  match e.action with
  | 0x00 => e.target == 0 && e.arg == 0
  | 0x01 => decide (e.arg < 4)
  | 0x02 => decide (e.arg < 2 ^ 17) && e.arg % 2 ^ 16 != 0
  | 0x03 => decide (e.target < 32) && decide (e.arg % 256 < 64) && decide (e.arg < 512)
  | 0x04 => e.target == 0
  | 0x05 => e.target == 0
  | 0x06 => decide (40 ≤ e.target) && decide (e.target ≤ 63)
  | 0x16 => decide (e.target < 16) && decide (e.arg % 8 < 6) && decide (1 ≤ field e.arg 4 12) &&
      decide (field e.arg 16 12 < field e.arg 4 12) && decide (e.arg < 2 ^ 28)
  | 0x20 => decide (e.target < 32)
  | 0x21 => decide (e.target < 4) && decide (e.arg < 2 ^ 17)
  | 0x28 => decide (e.target < 32) && decide (e.arg < 4096)
  | 0x29 => decide (e.target < 32) && e.arg == 0
  | 0x30 => true
  | 0x38 => decide (e.target < 8) && decide (e.arg < 2)
  | _ => false

/-- The commit unit that fences an action (R92), `none` where it is never fenced by a unit. -/
def State.targetUnit (s : State) (e : TEntry) : Option Nat :=
  match e.action with
  | 0x11 => some e.target
  | 0x12 => some e.target
  | 0x20 => some (78 + e.target)
  | 0x21 => some (110 + e.target)
  | 0x28 => some (6 + e.target)
  | 0x29 => some (6 + e.target)
  | 0x30 => some (62 + s.lv Reg.LOOP_CFG_CAP e.target)
  | 0x06 => some (38 + s.lv Reg.AXIS_CFG_PORT e.target)
  | 0x01 => if 64 ≤ e.target then some (114 + s.lv Reg.IO_PTMAP_PORT (e.target - 64)) else none
  | 0x02 => if 64 ≤ e.target then some (114 + s.lv Reg.IO_PTMAP_PORT (e.target - 64)) else none
  | _ => none

/-- A Fenlink node is boomed or laid up (R92, R324, R364). -/
def State.nodeFenced (s : State) (port node : Nat) : Bool :=
  s.on Reg.FL_NODE_BOOMED port node || tget false s.nodeLaid (port * 256 + node)

/-- The target unit of an entry's action is boomed or laid up (R92). -/
def State.entryFenced (s : State) (e : TEntry) : Bool :=
  (match s.targetUnit e with | some u => s.fenced u | none => false) ||
    (decide (e.action = 1 ∨ e.action = 2) && decide (64 ≤ e.target) &&
      s.nodeFenced (s.lv Reg.IO_PTMAP_PORT (e.target - 64)) (s.lv Reg.IO_PTMAP_NODE (e.target - 64)))

end Sys2Proof.Machine
end

