-- ==== Sys2Proof/Machine/Cross.lean ====
section
/-! DEFINITION. What the rows of chapters 4 and 5 share: the tide table's contents (R83, R85, R91, R94), the link budget (R107),
crossing records (R122), the end of exposure on a station (R111, R114), the return to drafted (R98), abandonment (R120, R121)
and jams (R117–R119). -/

namespace Sys2Proof.Machine

/-! ### The tide table -/

def State.entry? (s : State) (i : Nat) : Option TEntry := tget none s.tide i
def State.armed (s : State) (i : Nat) : Bool := tget false s.tideArmed i
def State.occupied (s : State) (i : Nat) : Bool := (s.entry? i).isSome

/-- Every entry in the table, in ascending index. -/
def State.entries (s : State) : List (Nat × TEntry) := s.tide.filterMap fun p => p.2.map fun e => (p.1, e)

/-- Entry `e` is written at free index `i` (R85), with its owner's byte (R83). -/
def State.putEntry (s : State) (i : Nat) (e : TEntry) (arm : Bool) : State :=
  let own := match s.live? e.crx with
    | some c => c.slot
    | none => 0xFF
  let s := { s with tide := tput none s.tide i (some e), tideArmed := tput false s.tideArmed i arm, tideOwner := tput 0xFF s.tideOwner i own }
  (s.wr Reg.AXIS_ENTRIES_COUNT (s.rd Reg.AXIS_ENTRIES_COUNT e.axis + 1) e.axis).wr Reg.TIDE_STAT_OCCUPIED (s.rd Reg.TIDE_STAT_OCCUPIED + 1)

/-- The entry at index `i` leaves the table. -/
def State.delEntry (s : State) (i : Nat) : State :=
  match s.entry? i with
  | none => s
  | some e =>
    let s := { s with tide := tput none s.tide i none, tideArmed := tput false s.tideArmed i false, tideOwner := tput 0xFF s.tideOwner i 0xFF }
    (s.wr Reg.AXIS_ENTRIES_COUNT (s.rd Reg.AXIS_ENTRIES_COUNT e.axis - 1) e.axis).wr Reg.TIDE_STAT_OCCUPIED (s.rd Reg.TIDE_STAT_OCCUPIED - 1)

/-- A tide record (R94). -/
def State.tideRec (s : State) (i : Nat) (e : TEntry) (status data : Nat) : State :=
  s.produce e.eq (mkRec 2 status (i % 2 ^ 13) e.crx data)

/-- DATA of a late, missed, fenced or refused record (R94). -/
def lateData (e : TEntry) (sAx : Nat) : Nat := sAx + 2 ^ 40 * e.axis + 2 ^ 46 * e.action

/-- The ACTION defect of an owned entry (R115). -/
def State.actionDefect (s : State) (i : Nat) (e : TEntry) (status : Nat) : State :=
  if e.crx = 0 ∨ e.action = 0x10 ∨ e.action = 0x15 then s else s.defect e.crx 7 0x07 i status

/-- The pending TIDE commit that carries TAG `tag` ends with `status`, nothing applied (R73). -/
def State.dropCommit (s : State) (tag status : Nat) : State :=
  match s.commits.find? fun c => c.bound == 4 && dTag c.job.d == tag with
  | none => s
  | some c => s.endCommit c status

/-- The pending commit of a COMMIT entry that is removed unfired ends with `status` (R73). -/
def State.dropAction (s : State) (e : TEntry) (status : Nat) : State := if e.action = 0x05 then s.dropCommit e.arg status else s

/-- Index and entry of everything crossing `crx` owns that has not been performed (R91): in the table in ascending index, decided,
then issued and still to be performed at this edge. -/
def State.owned (s : State) (crx : Nat) : List (Nat × TEntry) :=
  (s.entries.filter fun x => x.2.crx == crx) ++ (((s.decided ++ s.issued).filter fun d => d.e.crx == crx).map fun d => (d.idx, d.e))

/-- The MOTION_START actions that wait for a sample (R226). -/
def State.motHeld (s : State) : List Decided :=
  s.mot.flatMap fun e => e.2.reqs.filterMap fun q => match q.1 with
    | .tide d => some d
    | .desc _ => none

/-- TIDE_INSERTs whose behind entries have all had their records complete (R89). -/
def State.tideSettle (s : State) : State :=
  let waits (w : TideWait) : Bool := w.idxs.any fun x => (s.decided ++ s.issued ++ s.motHeld).any fun d => d.idx == x.1 && d.time == x.2
  (s.tideWaits.filter fun w => !waits w).foldl (fun s w => s.complete w.job St.ok w.data) { s with tideWaits := s.tideWaits.filter waits }

/-- The entries of crossing `crx` leave the table and the wait for issue without records; a pending TIDE commit of one of them
ends with `status` (R73, R91). -/
def State.dropOwned (s : State) (crx status : Nat) : State :=
  let es := s.owned crx
  let s := (s.entries.filter fun x => x.2.crx == crx).foldl (fun s x => s.delEntry x.1) s
  let s := { s with decided := s.decided.filter fun d => d.e.crx != crx, issued := s.issued.filter fun d => d.e.crx != crx }
  (es.foldl (fun s x => s.dropAction x.2 status) s).tideSettle

/-- As its crossing ends, each remaining entry is removed with a MISSED record (R91, R116). -/
def State.missOwned (s : State) (crx : Nat) : State :=
  let es := s.owned crx
  let s := s.dropOwned crx St.missed
  es.foldl (fun s x =>
    (s.cnt Reg.TIDE_MISSED_COUNT).tideRec x.1 x.2 St.missed (lateData x.2 (s.rd Reg.AXIS_SCHED x.2.axis))) s

/-! ### Crossings -/

/-- Lines per inch of a resolution code (R102). -/
def lpiOf (c : Nat) : Nat := match c with | 0 => 2400 | 1 => 1200 | _ => 600

/-- The row bytes of a part's planes and its bytes per line (R102). -/
def Part.rowL (p : Part) : Nat := (p.width * p.lvlBits + 7) / 8
def Part.rowT (p : Part) : Nat := if p.tags then (p.width * 2 + 7) / 8 else 0
def Part.last (p : Part) : Nat := (p.first + p.lines + 2 ^ 24 - 1) % 2 ^ 24

/-- A crossing's demand on station `n` in B·µm/s·lines/in (R107). -/
def State.stnDemand (s : State) (c : Crossing) (n : Nat) : Nat :=
  match c.parts.find? fun p => p.stn == n with
  | none => 0
  | some p => (p.rowL + p.rowT) * c.speed * lpiOf (s.lv Reg.STN_SCAN_CFG_LPI n)

/-- HOSTIF_BUDGET_USED over a set of crossings: rounded half up (R107). -/
def State.budget (s : State) (cs : List Crossing) : Nat :=
  let d := ((List.range 6).map fun n => cs.foldl (fun m c => max m (s.stnDemand c n)) 0).sum
  (2 * d + 25400000000) / 50800000000

/-- The crossings that are boarding, boarded or cast off (R97). -/
def State.liveCrx (s : State) : List Crossing := s.crossings.filter fun c => decide (c.state ≤ 3)

def State.budgetShow (s : State) : State := s.wr Reg.HOSTIF_BUDGET_USED_USED (s.budget s.liveCrx)

/-- A crossing state change asks for a chart (R53). -/
def State.chartChange (s : State) : State :=
  if s.on Reg.CHART_CTL_EN && s.on Reg.CHART_CTL_ON_CHANGE then { s with chartWant := true } else s

/-- The details of a crossing as its record carries them (R114). -/
def Crossing.allDetails (c : Crossing) : List Nat :=
  if c.overflow = 0 then c.details else c.details ++ [mkDetail 7 0x1F c.overflow 0]

/-- S of a crossing's CAST_AXIS and the axis (R122). -/
def State.castData (s : State) (c : Crossing) : Nat := s.rd Reg.AXIS_SCHED c.castAxis + 2 ^ 40 * c.castAxis

/-- The PART records of a crossing's details (R122). -/
def State.partRecs (s : State) (c : Crossing) (status n : Nat) : Nat → List Nat → State
  | _, [] => s
  | k, d :: ds => (s.produce c.eq (mkRec 1 status (c.state + 8 * k + 2 ^ 9 * n) c.crx d)).partRecs c status n (k + 1) ds

/-- A crossing's record (R122): the main record and, for spoiled and abandoned, its details. -/
def State.crxRecord (s : State) (c : Crossing) (status data : Nat) : State :=
  let ds := if c.state = 5 ∨ c.state = 6 then c.allDetails else []
  (s.produce c.eq (mkRec 1 status (c.state + 2 ^ 9 * ds.length) c.crx data)).partRecs c status ds.length 1 ds

/-- Replace the part of station `n`. -/
def Crossing.setPart (c : Crossing) (p : Part) : Crossing :=
  { c with parts := c.parts.map fun q => if q.stn == p.stn then p else q }

/-! ### Shares and raster lighters -/

def RLt.init : RLt := ⟨0, [], 0⟩
def State.rlts (s : State) (l : Nat) : RLt := tget RLt.init s.rlt l
def State.setRlt (s : State) (l : Nat) (x : RLt) : State := { s with rlt := tput RLt.init s.rlt l x }

/-- Words of station `n`'s share (R165). -/
def State.shareWords (s : State) (n : Nat) : Nat := s.lv Reg.STN_HOLD_CFG_HOLD_SIZE n * 2048

/-- A line is in the share (R166): both rows written, the last word at an earlier edge. -/
def State.lineIn (s : State) (h : HLine) : Bool := h.gotL && h.gotT && !h.absent && decide (h.time < s.now)

/-- FILL of station `n` (R167): lines in the share at this edge and not yet emitted. -/
def State.fillOf (s : State) (n : Nat) : Nat :=
  let x := s.stns n
  let out (h : HLine) : Bool := x.expo.any fun e => e.crx == h.crx && e.ahead.contains h.off
  (x.lines.filter fun h => s.lineIn h && !out h).length

/-- FILL and FREE of station `n` (R167). -/
def State.shareShow (s : State) (n : Nat) : State :=
  let x := s.stns n
  (s.wr Reg.STN_HOLD_STAT_FILL (s.fillOf n) n).wr Reg.STN_HOLD_FREE_FREE
    (s.shareWords n - (x.lines.map fun h => h.wl + h.wt).sum) n

/-- The lines of crossing `crx` leave station `n`'s share (R108, R112). -/
def State.feedDrop (s : State) (n crx : Nat) : State :=
  let x := s.stns n
  (s.setStn n { x with lines := x.lines.filter fun h => h.crx != crx }).shareShow n

/-- A raster lighter latches its CRC and crossing, and signals its vector where IRQ_EN is 1 (R345). -/
def State.latchCrc (s : State) (l : Nat) : State :=
  let r := s.rlts l
  if r.crx = 0 then s
  else
    let s := ((s.wr Reg.LT_RCRC_CRC r.crc l).wr Reg.LT_RCRX_CRX r.crx l).setRlt l { r with crx := 0, crc := 0 }
    if s.on Reg.LT_CFG_IRQ_EN l then s.signal 0 l else s

/-- A crossing ends: lighters still on it latch (R345). -/
def State.endLighters (s : State) (crx : Nat) : State :=
  (List.range 12).foldl (fun s l => if (s.rlts l).crx = crx then s.latchCrc l else s) s

/-! ### The end of exposure on a station -/

/-- How an exposure ends: all lines passed, TRUNCATED (R111), STATION_FENCED or STOPPED (R114, R115). -/
inductive ExpEnd where
  | complete | truncated | fenced | stopped
deriving DecidableEq, Repr

/-- The detail of lines not yet emitted or dropped, `front` passed and `ahead` beyond (R114). -/
def Crossing.endDetail (c : Crossing) (p : Part) (front : Nat) (ahead : List Nat) (how : ExpEnd) : Crossing :=
  if p.lines ≤ front then c
  else match how with
    | .complete => c
    | .truncated => c.defect p.stn 0x05 (p.first + front) p.last
    | .fenced => c.defect p.stn 0x06 (p.first + front) p.last
    | .stopped => c.defect p.stn 0x08 ((p.first + (ahead.foldl (fun m k => max m (k + 1)) front) + 2 ^ 24 - 1) % 2 ^ 24) p.last

/-- The exposure of a live crossing on station `n` is over: its detail, its part done, its lines out of the share (R111). -/
def State.partDone (s : State) (crx n front : Nat) (ahead : List Nat) (how : ExpEnd) : State :=
  match s.live? crx with
  | none => s.feedDrop n crx
  | some c =>
    match c.parts.find? fun p => p.stn == n with
    | none => s
    | some p =>
      if p.done then s
      else (s.setCrx ((c.endDetail p front ahead how).setPart { p with done := true })).feedDrop n crx

/-- F_target of station `n` (R141); a shared pair without drum trim has no fine actuator. -/
def State.fTargetUpdate (s : State) (n : Nat) : State :=
  let x := s.stns n
  let r := s.rdI Reg.STN_REG_OFS_R n
  let d := r - 64 * x.wLast
  let t := if s.lon Reg.STN_POLY_PAIR_SHARE n && !s.lon Reg.STN_REG_TRIM_TRIM_EN n then 0
    else if -48 ≤ d ∧ d ≤ 47 then d else r - 64 * ((r + 32) / 64)
  s.setStn n { x with fTarget := t }

/-- Exposure has ended on station `n`: F_target is set (R141), and a characterisation pass may begin (R196). -/
def State.afterExpo (s : State) (n : Nat) : State :=
  let s := s.fTargetUpdate n
  if s.lv Reg.BL_CFG_PORT n = 1 then s.setBl n { s.bls n with charNext := some 0 } else s

/-- Station `n` ends the exposure it has (R111). -/
def State.endExpo (s : State) (n : Nat) (how : ExpEnd) : State :=
  let x := s.stns n
  match x.expo with
  | none => s
  | some e => ((s.setStn n { x with expo := none, stop := 0 }).partDone e.crx n e.front e.ahead how).afterExpo n

/-- The stations that expose crossing `crx`, as a mask. -/
def State.exposing (s : State) (crx : Nat) : Nat :=
  (List.range 6).foldl (fun m n => match (s.stns n).expo with
    | some e => if e.crx = crx then setBit m n true else m
    | none => m) 0

/-- A station stop takes effect (R392): STOPPED where an abandonment of the crossing is among the causes or runs, else
STATION_FENCED. -/
def State.stopNow (s : State) (n : Nat) : State :=
  let x := s.stns n
  match x.expo with
  | none => s
  | some e =>
    let ab := bitOf x.stop 3 || bitOf x.stop 4 || (match s.live? e.crx with | some c => c.abandon.isSome | none => false)
    s.endExpo n (if ab then .stopped else .fenced)

/-! ### Return to drafted -/

/-- A boarding crossing returns to drafted with `status` (R98): entries removed, reservations released, record, chain. -/
def State.toDrafted (s : State) (c : Crossing) (status : Nat) : State :=
  let s := s.dropOwned c.crx status
  let s := c.parts.foldl (fun s p => s.feedDrop p.stn c.crx) s
  let s := ({ s with crossings := s.crossings.filter fun x => !(x.crx == c.crx && decide (x.state ≤ 3)) }).endLighters c.crx
  let c := { c with state := 0 }
  let s := (s.budgetShow.crxRecord c status (s.castData c)).chartChange
  c.chain.foldl (fun s j => s.complete j status) s

/-! ### Abandonment -/

/-! Cause codes of R122. -/
namespace Cause
def ebb : Nat := 0x01
def faultA : Nat := 0x02
def faultB : Nat := 0x03
def refLoss : Nat := 0x04
def jam : Nat := 0x05
def jamBehind : Nat := 0x06
def jamAxis : Nat := 0x07
def castMissed : Nat := 0x08
def host : Nat := 0x09
def tideEcc : Nat := 0x0A
def tableEcc : Nat := 0x0B
end Cause

/-- The status with which a cause returns a boarding crossing to drafted (R98). -/
def draftStatus (cause : Nat) : Nat :=
  if Cause.jam ≤ cause ∧ cause ≤ Cause.jamAxis then St.fenced
  else if cause = Cause.tideEcc ∨ cause = Cause.tableEcc then St.ecc
  else St.refusedState

/-- A crossing's unbegun parts end, its entries go, its windows close: steps 1 and 2 of R120. -/
def State.abandonCore (s : State) (c : Crossing) (cause : Nat) : State :=
  let mask := s.exposing c.crx
  let s := (bitsOf mask 6).foldl (fun s n => s.stnStop n 3) s
  let lost := (s.owned c.crx).length
  let s := s.dropOwned c.crx St.abandoned
  let s := (c.parts.filter fun p => !bitOf mask p.stn).foldl (fun s p => s.feedDrop p.stn c.crx) s
  match s.live? c.crx with
  | none => s
  | some c => s.setCrx
    { c with abandon := some cause, lost := lost, expMask := mask,
             parts := c.parts.map fun p => if bitOf mask p.stn then p else { p with done := true },
             wins := c.wins.map fun w => { w with closed := true } }

/-- Local abandonment of a boarded or cast-off crossing at this edge (R120, steps 1–4). -/
def State.localAbandon (s : State) (c : Crossing) (cause : Nat) : State :=
  if c.abandon.isSome then s
  else
    let s := s.abandonCore c cause
    let s := (bitsOf c.hvRest 32).foldl (fun s h => s.hvRest h) s
    if Cause.jam ≤ cause ∧ cause ≤ Cause.jamAxis then (bitsOf c.stopAxes 32).foldl (fun s m => s.motStop m 4) s else s

/-- Abandon the live crossing of an id, or return it to drafted where it is boarding (R98). -/
def State.abandonCrx (s : State) (crx cause : Nat) : State :=
  match s.live? crx with
  | none => s
  | some c => if c.state = 1 then s.toDrafted c (draftStatus cause) else s.localAbandon c cause

/-- Step 5 of R120: SUMMARY, the record, reservations released. -/
def State.abandonEnd (s : State) (c : Crossing) : State :=
  let cause := c.abandon.getD 0
  let c := { c.defect 7 0x09 c.lost c.expMask with state := 6, status := St.abandoned, stateTime := s.stamp }
  let s := ((s.setCrx c).endLighters c.crx).budgetShow
  (s.crxRecord c St.abandoned (s.castData c + 2 ^ 46 * cause)).chartChange

/-- A crossing lands or spoils (R116). -/
def State.landEnd (s : State) (c : Crossing) : State :=
  let sp := !c.details.isEmpty
  let s := s.missOwned c.crx
  let c := { c with state := if sp then 5 else 4, status := if sp then St.spoiled else St.ok, stateTime := s.stamp }
  let s := ((s.setCrx c).endLighters c.crx).budgetShow
  (s.crxRecord c (if sp then St.spoiled else St.ok) (s.castData c)).chartChange

/-! ### Windows and jams -/

/-- Crossing `c` cast off after `j`, or has not cast off (R118). -/
def castAfter (j c : Crossing) : Bool := decide (c.state ≠ 3) || (decide (j.state = 3) && decide (j.castSeq < c.castSeq))

/-- The set of R118 grows by the crossings that share a stop axis with a boarded or cast-off member, at most `n` times. -/
def growJam (cs : List Crossing) : Nat → List (Nat × Nat) → List (Nat × Nat)
  | 0, set => set
  | n + 1, set =>
    let axes := (cs.filter fun c => c.state != 1 && set.any fun x => x.1 == c.crx).foldl (fun m c => m ||| c.stopAxes) 0
    growJam cs n (set ++ ((cs.filter fun c => !(set.any fun x => x.1 == c.crx) && (c.stopAxes &&& axes) != 0).map fun c =>
      (c.crx, Cause.jamAxis)))

/-- The first window of a crossing not yet closed, or window 0 (R118). -/
def Crossing.firstWin (c : Crossing) : Nat := ((c.wins.find? fun w => !w.closed).map (·.id)).getD 0

/-- Insert a crossing by its place in the cast-off order. -/
def castIns (c : Crossing) : List Crossing → List Crossing
  | [] => [c]
  | d :: ds => if c.castSeq < d.castSeq then c :: d :: ds else d :: castIns c ds

/-- The cast-off order of R117: crossings cast off first, in that order, then the others in boarding order. -/
def castOrder (cs : List Crossing) : List Crossing :=
  (cs.filter fun c => c.state == 3).foldr castIns [] ++ cs.filter fun c => c.state == 2

/-- A jam against crossing `j`: its WINDOW detail, then the set of R118 is abandoned; the segments jam (R119). -/
def State.jam (s : State) (j : Crossing) (win b : Nat) : State :=
  let cs := s.liveCrx.filter fun c => c.abandon.isNone
  let behind := (cs.filter fun c => c.crx != j.crx && castAfter j c && (c.segMask &&& j.segMask) != 0).map fun c => (c.crx, Cause.jamBehind)
  let set := growJam cs cs.length ((j.crx, Cause.jam) :: behind)
  let s := s.defect j.crx 7 0x0A win b
  let s := (set.filter fun x => x.1 != j.crx).foldl (fun s x =>
    match s.live? x.1 with
    | some c => if c.state = 1 then s else s.setCrx (c.defect 7 0x0A c.firstWin 2)
    | none => s) s
  let segs := (cs.filter fun c => c.state != 1 && set.any fun x => x.1 == c.crx).foldl (fun m c => m ||| c.segMask) 0
  let s := { s with jams := s.jams ++ ((bitsOf segs 32).map fun k => (k, j.crx)) }
  set.foldl (fun s x => s.abandonCrx x.1 x.2) s

/-- Window `id` of crossing `crx` closes (R117): unsatisfied, it is a jam. -/
def State.closeWin (s : State) (crx id : Nat) : State :=
  match s.live? crx with
  | none => s
  | some c =>
    match c.wins.find? fun w => w.id == id && !w.closed with
    | none => s
    | some w =>
      let s := s.setCrx { c with wins := c.wins.map fun v => if v.id == id then { v with closed := true, wait := none } else v }
      if w.sat then s else s.jam c id 0

/-- The windows on `sensor` of crossings that no abandonment has taken, in the order of R117. -/
def State.winsOn (s : State) (sensor : Nat) : List (Crossing × Win) :=
  (castOrder (s.crossings.filter fun c => (c.state == 2 || c.state == 3) && c.abandon.isNone)).flatMap fun c =>
    (c.wins.filter fun w => w.sensor == sensor).map fun w => (c, w)

/-- An edge that lies inside no window (R117, second and third case). The next window still to open is the lowest of the first
crossing that has one, in cast-off order; only a covering edge raises STRAY_SHEET (logs 78, 79). -/
def State.edgeOutside (s : State) (sensor : Nat) (covered : Bool) : State :=
  match (s.winsOn sensor).find? fun x => !x.2.opened && !x.2.closed with
  | some (c, w) => if w.sense = !covered then s.jam c w.id 1 else s
  | none =>
    if s.liveCrx.any fun c => c.abandon.isNone && c.wins.any fun w => w.sensor == sensor && !w.closed then s
    else if covered then s.raise Src.straySheet Src.noUnit sensor else s

/-- Window `w` of crossing `c` is satisfied. -/
def State.satisfy (s : State) (c : Crossing) (w : Win) : State :=
  s.setCrx { c with wins := c.wins.map fun v => if v.id == w.id then { v with sat := true } else v }

/-- A sheet-sensor edge judged at its arrival (R117). -/
def State.sheetJudge (s : State) (sensor : Nat) (covered : Bool) : State :=
  let op := (s.winsOn sensor).filter fun x => x.2.opened && !x.2.closed
  match op.find? fun x => !x.2.sat && x.2.sense == !covered with
  | some (c, w) => s.satisfy c w
  | none => if op.isEmpty then s.edgeOutside sensor covered else s

end Sys2Proof.Machine
end

