-- ==== Sys2Proof/Machine/Ecc.lean ====
section
/-! DEFINITION. The SECDED code of the stores (R18–R22): what a read of a word finds, what a write of a word does, and the
consequences of an uncorrectable word (R21). A word is known by its store (0 the Hold, 1 the tide table, 2 the table SRAMs, 3 the
fabric, 4 the ferryman SRAM) and its index; a word of several tables of store 2 has the index of `tableWord` (log 21). -/

namespace Sys2Proof.Machine

def wordKey (st w : Nat) : Nat := st * 2 ^ 32 + w

/-- Words of a store (R18, log 21). -/
def storeWords (st : Nat) : Nat :=
  match st with | 0 => 1572864 | 1 => 4096 | 2 => 8056 | 3 => 0 | _ => 32768

/-! The tables of store 2 in the order R18 names them: mapping and waveform tables (R171, R172), segments (R227), microsteps
(R241), feed-forward tables (R270), blocks (R265), node lists (R321). -/
def mapWord (stn set : Nat) : Nat := 4 * stn + set
def waveWord (stn set c : Nat) : Nat := 24 + 16 * stn + 4 * set + c / 4
def segWord (i : Nat) : Nat := 120 + i / 2
def ustepWord (i : Nat) : Nat := 2168 + i / 16
def ffWord (t i : Nat) : Nat := 2424 + 128 * t + i / 8
def blockWord (i : Nat) : Nat := 6520 + i / 4
def nodeWord (p a : Nat) : Nat := 7544 + 128 * p + a / 2

/-- Count and raise a corrected error in word `w` of store `st` (R20). -/
def State.eccCe (s : State) (st w : Nat) : State :=
  (s.cnt Reg.DIAG_ECC_CE_CE_COUNT st).raise Src.eccCe Src.noUnit st w
/-- Count and raise an uncorrectable error (R21). -/
def State.eccUe (s : State) (st w : Nat) : State :=
  ((s.cnt Reg.DIAG_ECC_UE_UE_COUNT st).wr Reg.DIAG_ECC_ADDR_UE_WORD w st).raise Src.eccUe Src.noUnit st w

/-! A word with three or more flipped bits that is taken for good, or corrected wrongly, holds other data (R18): a free word `v`. -/

/-- The entry at tide index `i`, if any, becomes the one that `v` spells; its occupancy and owner stand in other SRAMs (R83). -/
def State.spoilEntry (s : State) (i v : Nat) : State :=
  match s.entry? i with
  | none => s
  | some e =>
    let s := s.wr Reg.AXIS_ENTRIES_COUNT (s.rd Reg.AXIS_ENTRIES_COUNT e.axis - 1) e.axis
    let n := entryOf (v % 2 ^ 128)
    { s with tide := tput none s.tide i (some n) }.wr Reg.AXIS_ENTRIES_COUNT (s.rd Reg.AXIS_ENTRIES_COUNT n.axis + 1) n.axis

/-- Word `w` of the table SRAMs holds `v`. -/
def State.spoilTable (s : State) (w v : Nat) : State :=
  let cut (k b i : Nat) : Nat := field v (b * (i % k)) b
  if w < 24 then
    (s.wr Reg.STN_DOT_MAP_MAP_LO (cut 8 32 0) (w / 4) (w % 4)).wr Reg.STN_DOT_MAP_MAP_HI (cut 8 32 1) (w / 4) (w % 4)
  else if w < 120 then
    let n := (w - 24) / 16
    let c0 := 4 * ((w - 24) % 16)
    (List.range 4).foldl (fun s i =>
      (s.wr Reg.STN_WAVE_SUB01 (cut 8 32 (2 * i)) n (c0 + i)).wr Reg.STN_WAVE_SUB23 (cut 8 32 (2 * i + 1)) n (c0 + i)) s
  else if w < 2168 then
    let i := 2 * (w - 120)
    { s with segs := tputs Seg.init s.segs i [segRaw (cut 2 128 0), segRaw (cut 2 128 1)] }
  else if w < 2424 then
    { s with ustep := tputs none s.ustep (16 * (w - 2168)) ((List.range 16).map fun i => some (cut 16 16 i)) }
  else if w < 6520 then { s with ff := tputs 0 s.ff (8 * (w - 2424)) ((List.range 8).map (cut 8 32)) }
  else if w < 7544 then { s with block := tputs 0 s.block (4 * (w - 6520)) ((List.range 4).map (cut 4 64)) }
  else
    let a := 2 * (w - 7544)
    { s with fnode := tputs FNode.init s.fnode a [nodeRaw (tget FNode.init s.fnode a) (cut 2 128 0),
        nodeRaw (tget FNode.init s.fnode (a + 1)) (cut 2 128 1)] }

/-- Word `w` of store `st` holds a free word (R18); the data of the ferryman's SRAM is not modelled (log 21). -/
def State.spoilWord (s : State) (st w : Nat) : State :=
  let (v, s) := s.takeFree (2 ^ 256)
  match st with
  | 0 => { s with hold := tput 0 s.hold w v }
  | 1 => (s.spoilEntry (2 * w) v).spoilEntry (2 * w + 1) (v / 2 ^ 128)
  | 2 => s.spoilTable w v
  | _ => s

/-- A read of word `w` of store `st` (R18, R20, R21): 0 good, 1 corrected and written back, 2 uncorrectable and poisoned. A word with
three or more flipped bits may be taken for any of the three, a free value decides which, and its data is then not what was
written (R18). -/
def State.eccRead (s : State) (st w : Nat) : Nat × State :=
  let k := wordKey st w
  let n := (tget [] s.flips k).length
  let ue (s : State) : Nat × State := (2, ({ s with poison := tput false s.poison k true, flips := tput [] s.flips k [] }).eccUe st w)
  let ce (s : State) : Nat × State := (1, ({ s with flips := tput [] s.flips k [] }).eccCe st w)
  if tget false s.poison k then ue s
  else match n with
    | 0 => (0, s)
    | 1 => ce s
    | 2 => ue s
    | _ =>
      let (v, s) := s.takeFree 3
      if v = 0 then (0, { s with flips := tput [] s.flips k [] }.spoilWord st w)
      else if v = 1 then
        let (r, s) := ce s
        (r, s.spoilWord st w)
      else ue s

/-- An armed injection meets a write to store `st` (R22): the bits it flips; ARM clears itself. -/
def State.injectBits (s : State) (st : Nat) : List Nat × State :=
  let b := s.rd Reg.DIAG_ECC_INJ_BIT
  let m := s.rd Reg.DIAG_ECC_INJ_MODE
  if s.on Reg.DIAG_ECC_INJ_ARM && s.rd Reg.DIAG_ECC_INJ_STORE == st then
    (if 265 < b then [] else if m = 1 then [b] else if m = 2 then [b, (b + 1) % 266] else [], s.wr Reg.DIAG_ECC_INJ_ARM 0)
  else ([], s)

/-- A transfer on the fabric meets an armed injection (R20–R22): 0 clean, 1 corrected, 2 uncorrectable; the injection is used. -/
def State.fabricTake (s : State) : Nat × State :=
  let (bits, s) := s.injectBits 3
  (bits.length, s)

/-! ### Reads of host memory for table loads and the ferryman (R19–R22, R56, R343, R391) -/

/-- The status of a failed host read (R229, R241, R275, R322, R359, R370). -/
def readStatus : ReadEnd → Nat
  | .poisoned => St.ecc
  | _ => St.timeout

/-- A load of lighter `l` that read host memory completes (R343, R349): the bytes it wrote are counted, or its failed read. -/
def State.loadDone (s : State) (l : Nat) (wrote : Option Nat) (j : Job) (status : Nat) (data : Nat := 0) : State :=
  let s := match wrote with
    | some n => s.cnt Reg.LT_BYTES l 0 n
    | none => s.cnt Reg.LT_ERR_READ_FAIL l
  let s := s.complete j status data
  if s.on Reg.LT_CFG_IRQ_EN l then s.signalAfter j.eq 0 l else s

/-- Lighter `l` reads `len` bytes at `src` for descriptor `j`, with what the read returned, and `k` uses them. While a reset of the function
is requested no transfer starts: the descriptor stays accepted, as `s0` has it (R56). While Bus Master Enable is 0 it waits, and ends
with DOMAIN_DOWN after DRAIN_US (R391). An injection armed for the fabric meets the transfer (R22). `bad` is what a failed read does
to the load's target. -/
def State.loadRead (s s0 : State) (l : Nat) (j : Job) (src len : Nat) (data : ReadRes) (k : List Byte → State → State)
    (bad : State → State := id) : State :=
  let f := s.pf j.pf
  if f.flr then s0
  else if !f.bme then
    if s.now < f.offAt + s.drainNs then s0 else (s.cnt Reg.LT_ERR_ABORTS l).complete j St.domainDown
  else
    let s := s.emitReads j.pf src len
    match data with
    | .fail how => (bad s).loadDone l none j (readStatus how)
    | .ok bs =>
      let (inj, s) := s.fabricTake
      if inj = 2 then (bad (s.eccUe 3 0x1000)).loadDone l none j St.ecc
      else k bs (if inj = 1 then s.eccCe 3 0x1000 else s)

/-- Word `w` of store `st` is written in full with valid check bits (R19, R21); an armed injection corrupts it (R22). -/
def State.eccWrite (s : State) (st w : Nat) : State :=
  let (bits, s) := s.injectBits st
  let k := wordKey st w
  { s with poison := tput false s.poison k false, flips := tput [] s.flips k bits }

/-- A write of part of word `w` reads it first (R21): whether the word was uncorrectable, so that its other parts are written as zero,
whether that was not known before, and the state with the word written. -/
def State.eccPart (s : State) (st w : Nat) : Bool × Bool × State :=
  if tget false s.poison (wordKey st w) then (true, false, s.eccWrite st w)
  else
    let (k, s) := s.eccRead st w
    (k == 2, k == 2, s.eccWrite st w)

/-- Bits of a word flip (R22): a bit that flips twice is whole again. -/
def State.upset (s : State) (st w : Nat) (bits : List Nat) : State :=
  let k := wordKey st w
  let old := tget [] s.flips k
  let new := bits.foldl (fun l b => if l.contains b then l.filter (· != b) else l ++ [b]) old
  { s with flips := tput [] s.flips k new }

/-! ### Consequences (R21) -/

/-- Both entries of tide word `w` go. The word has one ECC record: at the ring of the first entry that a crossing owns, else at
ERR_EQ (R94, log 91). Then the owners, which the owner bytes tell (R83), are abandoned or return to drafted. -/
def State.tideEcc (s : State) (w : Nat) : State :=
  let es := [2 * w, 2 * w + 1].filterMap fun i => (s.entry? i).map fun e => (tget 0xFF s.tideOwner i, e)
  let s := [2 * w, 2 * w + 1].foldl (fun s i => s.delEntry i) s
  let s := es.foldl (fun s x => s.dropAction x.2 St.ecc) s
  let s := match es.find? fun x => x.1 != 0xFF with
    | some x => s.produce x.2.eq (mkRec 2 St.ecc (2 * w) x.2.crx (2 * w))
    | none => s.produce (s.lv Reg.TIDE_CFG_ERR_EQ) (mkRec 2 St.ecc (2 * w) 0 (2 * w))
  es.foldl (fun s x =>
    match s.liveCrx.find? fun c => c.slot == x.1 with
    | some c => s.abandonCrx c.crx Cause.tideEcc
    | none => s) s

/-- Every crossing that names station `n` with dot-code set `k` is abandoned or returns to drafted; the set is bad (R21, R176). -/
def State.dotSetEcc (s : State) (n k : Nat) : State :=
  let s := s.wr Reg.STN_DOT_STAT_SET_BAD (setBit (s.rd Reg.STN_DOT_STAT_SET_BAD n) k true) n
  (s.liveCrx.filter fun c => c.parts.any fun p => p.stn == n && p.dotSet == k).foldl (fun s c => s.abandonCrx c.crx Cause.tableEcc) s

/-- Station `n` reads word `w` of the tables of its dot-code set `k` (R19–R21, R176): whether the data may be used. -/
def State.dotRead (s : State) (n k w : Nat) : Bool × State :=
  if (tget [] s.flips (wordKey 2 w)).isEmpty && !tget false s.poison (wordKey 2 w) then (true, s)
  else
    let (r, s) := s.eccRead 2 w
    if r = 2 then (false, s.dotSetEcc n k) else (true, s)

/-- Crossings that hold an entry for unit `u`, or name it in STOP_AXES or HV_REST: those that use it (R21). -/
def State.usesUnit (s : State) (c : Crossing) (u : Nat) : Bool :=
  (s.owned c.crx).any (fun x => s.targetUnit x.2 == some u) ||
    (decide (6 ≤ u) && decide (u < 38) && bitOf c.stopAxes (u - 6)) || (decide (78 ≤ u) && decide (u < 110) && bitOf c.hvRest (u - 78)) ||
    (decide (u < 6) && bitOf c.stations u)

/-- Unit `u` refuses boarding: a table word it met as uncorrectable has not been rewritten (R21). -/
def State.unitRefuses (s : State) (u : Nat) : Bool := s.unitBad.any fun x => x.1 == u && tget false s.poison (wordKey 2 x.2)

/-- Word `w` of the table SRAMs that unit `u` reads is uncorrectable: the crossings that use the unit end (R21). -/
def State.unitTableEcc (s : State) (u w : Nat) : State :=
  let s := if s.unitBad.contains (u, w) then s else { s with unitBad := s.unitBad ++ [(u, w)] }
  (s.liveCrx.filter fun c => s.usesUnit c u).foldl (fun s c => s.abandonCrx c.crx Cause.tableEcc) s

/-- Unit `u` reads word `w` of the table SRAMs: whether the data may be used (R18, R21). -/
def State.tableRead (s : State) (u w : Nat) : Bool × State :=
  if (tget [] s.flips (wordKey 2 w)).isEmpty && !tget false s.poison (wordKey 2 w) then (true, s)
  else
    let (k, s) := s.eccRead 2 w
    if k = 2 then (false, s.unitTableEcc u w) else (true, s)

/-- Loop `l` meets the uncorrectable word `w` (R284): it stops as an orphan, its capstan raises CAP_LOOP_ECC, and R21 applies to the
crossings that use the drive, high-voltage and heater channels that read it. -/
def State.loopEcc (s : State) (l w : Nat) : State :=
  if s.on Reg.LOOP_STAT_ECC l then s
  else
    let s := ((s.wr Reg.LOOP_STAT_ECC 1 l).orphan l).setLoop l { s.loops l with pend := none }
    let us := ((List.range 16).filter fun n => s.lon Reg.DRV_CFG_EN n && s.lv Reg.DRV_CAP_CAP_LOOP n == l && s.lv Reg.DRV_CFG_SRC n == 2).map (6 + ·) ++
      ((List.range 32).filter fun h => s.lon Reg.HV_CFG_EN h && s.lv Reg.HV_CFG_LOOP h == l).map (78 + ·) ++
      ((List.range 4).filter fun k => s.lon Reg.HTR_CFG_EN k && s.lv Reg.HTR_CFG_LOOP k == l).map (110 + ·)
    let s := us.foldl (fun s u => s.unitTableEcc u w) s
    s.raise Src.capLoopEcc (62 + s.lv Reg.LOOP_CFG_CAP l)

end Sys2Proof.Machine
end

