-- ==== Sys2Proof/Machine/Measure.lean ====
section
/-! DEFINITION. Arithmetic of the drive channels' measurements (R206, R207, R218): the sinc3 filter, square roots, sines and angles.
Results that the manual does not round are rounded by `Config.rnd` and its kin (log 10). -/

namespace Sys2Proof

/-! ### Rounded quotients -/

/-- Rounded to the nearest integer; a half goes up or down as `Config.rndUp` says (log 10). -/
def nearest (num : Int) (den : Nat) : Int :=
  let f := (2 * num + den).fdiv (2 * den)
  if (2 * num + den) % (2 * den) = 0 ∧ !Config.rndUp num den then f - 1 else f

/-- Rounded to the nearest integer, halves away from zero. -/
def halfAway (num : Int) (den : Nat) : Int :=
  if num < 0 then -((2 * -num + den) / (2 * den)) else (2 * num + den) / (2 * den)

/-! ### Square roots -/

/-- Bits `k` − 1 to 0 of the integer square root of `n` above `r`. -/
def isqrtBits (n : Nat) : Nat → Nat → Nat
  | 0, r => r
  | k + 1, r => isqrtBits n k (if (r + 2 ^ k) * (r + 2 ^ k) ≤ n then r + 2 ^ k else r)

/-- The integer square root. -/
def isqrt (n : Nat) : Nat := isqrtBits n (n.log2 / 2 + 1) 0

/-- √n as an integer: the root below or above it where it is not exact. -/
def rndSqrt (n : Nat) : Nat :=
  let r := isqrt n
  if r * r = n then r else if Config.rndUp n 0 then r + 1 else r

/-- num / (den × √3) as an integer, with den positive: the integer below or above it. -/
def rndSqrt3 (num : Int) (den : Nat) : Int :=
  if num = 0 ∨ den = 0 then 0
  else
    let r : Int := isqrt (num.natAbs * num.natAbs / (3 * den * den))
    (if 0 ≤ num then r else -r - 1) + (if Config.rndUp num (2 * den) then 1 else 0)

/-! ### Sines and angles -/

/-- π × 10^18. -/
def pi18 : Nat := 3141592653589793238

/-- Terms of the sine series from `t` on, in 2^-48: x² in 2^-48, the next odd number. -/
def sinSeries (x2 : Int) : Nat → Int → Nat → Int
  | 0, _, _ => 0
  | k + 1, t, j => t + sinSeries x2 k (-(t * x2) / 2 ^ 48 / ((j + 1) * (j + 2) : Nat)) (j + 2)

/-- The sine of `r` / 65,536 turn in 2^-48, for r up to a quarter turn. -/
def sinQuarter (r : Nat) : Int :=
  let x : Int := r * 1768559438007110 / 65536
  sinSeries (x * x / 2 ^ 48) 12 x 1

/-- The sine of `t` / 65,536 turn in 2^-48. -/
def sin16 (t : Nat) : Int :=
  let r := t % 16384
  match t / 16384 % 4 with
  | 0 => sinQuarter r
  | 1 => sinQuarter (16384 - r)
  | 2 => -sinQuarter r
  | _ => -sinQuarter (16384 - r)
def cos16 (t : Nat) : Int := sin16 (t + 16384)

/-- Bits `k` − 1 to 0 of the angle of (a, b), which lies in the half turn from 0, above `t`. -/
def angleBits (a b : Int) : Nat → Nat → Nat
  | 0, t => t
  | k + 1, t => angleBits a b k (if 0 ≤ cos16 (t + 2 ^ k) * b - sin16 (t + 2 ^ k) * a then t + 2 ^ k else t)

/-- The angle of (a, b) in 2^-16 turn, cut to an integer. -/
def angle16 (a b : Int) : Nat :=
  if b < 0 ∨ (b = 0 ∧ a < 0) then 32768 + angleBits (-a) (-b) 15 0 else angleBits a b 15 0

/-! ### The sinc3 filter (R206) -/

/-- Sums of `r` neighbours. -/
def boxcar (r : Nat) (xs : List Int) : List Int := (List.range (xs.length + 1 - r)).map fun i => ((xs.drop i).take r).sum

/-- The output of a sinc3 filter of decimation `osr` for the last 3 × osr − 2 bits of its stream, oldest first: a 16-bit signed code in which all
ones are full scale. -/
def sinc3 (osr : Nat) (bits : List Bool) : Int :=
  let xs := (bits.drop (bits.length - (3 * osr - 2))).map fun b => if b then (1 : Int) else -1
  let v := (boxcar osr (boxcar osr (boxcar osr xs))).headD 0
  max (-32768) (min 32767 (Config.rnd (32768 * v) (osr * osr * osr)))

end Sys2Proof
end

