-- ==== Sys2Proof/Machine/Hv.lean ====
section
/-! DEFINITION. High-voltage channels, heaters and the mains phase (R286–R297). -/

namespace Sys2Proof.Machine

/-- OUT0 of loop `l`, signed (R273): a loop that is not enabled publishes 0. -/
def State.loopOut0 (s : State) (l : Nat) : Int := if s.lon Reg.LOOP_CFG_EN l then s.rdI Reg.LOOP_OUT_OUT l 0 else 0

/-- `v` clamped to [lo, hi]; lo where lo exceeds hi. -/
def clampI (v lo hi : Int) : Int := max lo (min v hi)

/-! ### High-voltage channels -/

/-- A PWM period starts (R286, R289) as the last one ends: the cycles the output is active in it; none in DOWN after a trip (R290). -/
def hvPwmPeriodEff (h : Nat) (s : State) : State :=
  if 32 ≤ h ∨ s.now < (s.hvs h).endAt then s
  else
    let x := s.hvs h
    let st := s.hst h
    let ceil := s.rd Reg.HV_CEIL_D_DUTY_CEIL h
    let soft := s.lv Reg.HV_ARC_ARC_SOFT h
    let lim := if x.soft = 0 ∨ soft ≤ x.soft then ceil else ceil * x.soft / soft
    let d := (clampI (s.loopOut0 (s.lv Reg.HV_CFG_LOOP h)) 0 (min ceil lim)).toNat
    let live := (st = Hst.run ∨ (st = Hst.down ∧ x.ref ≠ 0 ∧ !x.quiet)) ∧ !s.hvHeld
    s.setHv h { x with
      duty := if live then d * s.lv Reg.HV_PWM_PERIOD h / 4096 else 0, startAt := s.now, endAt := s.now + 2 * s.lv Reg.HV_PWM_PERIOD h,
      blank := if st = Hst.blank then x.blank - 1 else x.blank,
      soft := if st = Hst.run ∧ x.soft ≠ 0 then (if x.soft < soft then x.soft + 1 else 0) else x.soft }

def execHvPwmPeriod (h : Nat) (s : State) : Host.Outcome State Fault Refusal := .next (hvPwmPeriodEff h s)

/-- A conversion of the feedback of channel `h` reads `code` (R286, R288): beyond V_TRIP the channel trips. -/
def hvOverEff (h code : Nat) (s : State) : State :=
  if 32 ≤ h then s
  else
    let mv : Int := ((code : Int) - s.lv Reg.HV_FB_FB_ZERO h) * s.lv Reg.HV_FB_FB_MV h
    let s := s.wrI Reg.HV_LEVEL_FB_V (Config.rnd mv 1000) h
    if s.hst h ≠ Hst.off ∧ s.rd Reg.HV_CEIL_D_V_TRIP h * 1000 < mv.natAbs then
      if s.hasCause Src.hvOver (78 + h) && s.hst h == Hst.tripped then s
      else (s.hvTrip h Src.hvOver).raiseLive Src.hvOver (78 + h)
    else s.setCause Src.hvOver (78 + h) false

def execHvOver (h code : Nat) (s : State) : Host.Outcome State Fault Refusal := .next (hvOverEff h code s)

/-- An arc (R289): the output goes inactive, RUN and BLANK enter BLANK anew; past ARC_MAX in ARC_WIN the channel is boomed whatever
the class of HV_ARC. -/
def hvArcEff (h : Nat) (s : State) : State :=
  if 32 ≤ h then s
  else
    let x := s.hvs h
    let arcs := s.now :: x.arcs.filter fun t => decide (s.now < t + 1000000 * max 1 (s.lv Reg.HV_ARC_ARC_WIN h))
    let s := s.cnt Reg.HV_CNT_ARCS h
    let run := s.hst h = Hst.run ∨ s.hst h = Hst.blank
    let s := (if run then s.setHst h Hst.blank else s).setHv h
      { x with duty := 0, arcs := arcs, blank := if run then max 1 (s.lv Reg.HV_ARC_ARC_BLANK h) else x.blank,
               soft := if run then 0 else x.soft }
    if s.lv Reg.HV_ARC_ARC_MAX h < arcs.length then (s.boom (78 + h)).raise Src.hvArc (78 + h) else s

def execHvArc (h : Nat) (s : State) : Host.Outcome State Fault Refusal := .next (hvArcEff h s)

/-- ARC_BLANK periods have passed without a further arc (R289, R290). -/
def arcBlankEndEff (h : Nat) (s : State) : State :=
  if 32 ≤ h ∨ s.hst h ≠ Hst.blank ∨ (s.hvs h).blank ≠ 0 then s
  else (s.setHst h Hst.run).setHv h { s.hvs h with soft := if s.lv Reg.HV_ARC_ARC_SOFT h = 0 then 0 else 1 }

def execArcBlankEnd (h : Nat) (s : State) : Host.Outcome State Fault Refusal := .next (arcBlankEndEff h s)

/-- HV_CTL.REARM (R290). -/
def hvRearmEff (src : Port) (h : Nat) (s : State) : State :=
  if 32 ≤ h then s
  else s.access src (Reg.HV_CTL_REARM.addr h 0) true fun s =>
    if s.hst h = Hst.down ∧ !s.abLatched ∧ !(s.hvs h).offAfter then
      (s.setHst h Hst.run).setHv h { s.hvs h with target := s.lvI Reg.HV_RAMP_REST h, soft := 0, quiet := false }
    else s

def execHvRearm (src : Port) (h : Nat) (s : State) : Host.Outcome State Fault Refusal := .next (hvRearmEff src h s)

/-- HV_STEP on channel `h` (R287): performed or not. A level beyond the ceilings is clamped, counted and raised. -/
def State.hvStepTo (s : State) (h : Nat) (level : Int) (ramp : Nat) : Bool × State :=
  if s.hst h = Hst.down ∨ s.hst h = Hst.tripped then (false, s)
  else
    let t := clampI level (-(s.rd Reg.HV_CEIL_V_V_CEIL_NEG h : Int)) (s.rd Reg.HV_CEIL_V_V_CEIL_POS h)
    let s := s.setHv h { s.hvs h with target := t, ramp := ramp }
    (true, if t = level then s else (s.cnt Reg.HV_CNT_CEIL_HITS h).raise Src.hvCeil (78 + h))

/-- A parameter word of a loop is written (R274). -/
def State.setParam (s : State) (l i : Nat) (v : Int) : State :=
  { s with lparam := tput 0 s.lparam (l * 256 + i % 256) (unsigned 32 v) }

/-- The reference of channel `h` at a base-period edge (R287): moved by RAMP / 160 V in whole 1/256 V (log 162), clamped, written to its
loop; at 0 a channel that is leaving goes OFF. -/
def State.hvReference (s : State) (h : Nat) : State :=
  if s.hst h = Hst.off then s
  else
    let x := s.hvs h
    let goal := 256 * x.target
    let step : Int := x.ramp * 8 / 5
    let r := if x.ramp = 0 then goal else if x.ref < goal then min goal (x.ref + step) else max goal (x.ref - step)
    let r := clampI r (-256 * (s.rd Reg.HV_CEIL_V_V_CEIL_NEG h : Int)) (256 * s.rd Reg.HV_CEIL_V_V_CEIL_POS h)
    let s := s.setHv h { x with ref := r, duty := if s.hst h = Hst.down ∧ r = 0 then 0 else x.duty }
    let s := s.setParam (s.lv Reg.HV_CFG_LOOP h) (s.lv Reg.HV_CFG_REF_IDX h)
      (s.lv Reg.HV_FB_FB_ZERO h + (if s.lv Reg.HV_FB_FB_MV h = 0 then Config.quotientBy0 r else nearest (r * 1000) (256 * s.lv Reg.HV_FB_FB_MV h)))
    if x.offAfter ∧ r = 0 ∧ s.hst h ≠ Hst.tripped then s.hvOff h else s

/-! ### Heaters -/

/-- HTR_STEP on heater `k` (R294): performed or not. -/
def State.htrStepTo (s : State) (k arg : Nat) : Bool × State :=
  if s.tst k = Tst.down ∨ s.tst k = Tst.tripped then (false, s)
  else
    let off := bitOf arg 16
    let s := s.setHtr k { s.htrs k with sp := signed 16 (arg % 65536), hold := off }
    (true, s)

/-- The sensor of heater `k` reads above TEMP_CEIL or is broken (R296). -/
def State.htrBad (s : State) (k : Nat) : Bool :=
  let i := s.lv Reg.HTR_CFG_SENSOR k
  s.on Reg.THM_SENS_STAT_BROKEN i || decide (s.rdI Reg.HTR_CEIL_TEMP_CEIL k < s.rdI Reg.THM_SENS_STAT_TEMP i)

/-- Heater `k` at a base-period edge: the trip of R296, and its set-point in its loop (R294). -/
def State.htrPeriod (s : State) (k : Nat) : State :=
  let bad := s.htrBad k
  let s :=
    if s.tst k = Tst.off then s.setCause Src.htrOver (110 + k) false
    else if s.tst k = Tst.tripped then
      let s := s.setCause Src.htrOver (110 + k) (bad && bitOf (s.htrs k).trips Src.htrOver)
      if !bad && bitOf (s.htrs k).trips Src.htrOver && !bitOf (s.rd Reg.FLT_LATCH) Src.htrOver then s.htrClear k Src.htrOver else s
    else if bad then (s.htrTrip k Src.htrOver).raiseLive Src.htrOver (110 + k)
    else s
  if s.tst k = Tst.off then s else s.setParam (s.lv Reg.HTR_CFG_LOOP k) (s.lv Reg.HTR_CFG_REF_IDX k) (s.htrs k).sp

/-- The firing of heater `k` whose position AX38 has reached (R295): the output turns active, as a level or a pulse. -/
def State.htrDue (s : State) (k : Nat) : State :=
  let x := s.htrs k
  match x.onAt with
  | none => s
  | some p =>
    if !posReached s.mainsPos p then s
    else
      let pulse := s.lon Reg.HTR_CFG_MODE k || s.lon Reg.HTR_CFG_OUT_KIND k
      s.setHtr k { x with fire := true, onAt := none,
                          pulseEnd := if pulse then some (s.now + 1000 * max 1 (s.lv Reg.HTR_FIRE_GATE_US k)) else none }

/-- Bits `k` − 1 to 0 of the largest firing angle above `a` whose power fraction (π − α + sin 2α / 2) / π is at least d / 4,096. -/
def fireBits (d : Nat) : Nat → Nat → Nat
  | 0, a => a
  | k + 1, a =>
    let x := a + 2 ^ k
    fireBits d k (if 16 * (pi18 : Int) * d * 2 ^ 48 ≤ (32768 - x : Int) * 2 * pi18 * 2 ^ 48 + sin16 (2 * x) * 32768 * 10 ^ 18 then x else a)

/-- The firing angle in AX38 counts of demand `d`, found to one count (R295): the count below or above it. -/
def fireAngle (d : Nat) : Nat := fireBits d 15 0 + (if Config.rndUp d 4096 then 1 else 0)

/-- A half-cycle boundary (R294, R295): heater `k` forms its demand and spends it in bursts or by phase. -/
def heaterHalfCycleEff (k : Nat) (s : State) : State :=
  let s := if k < 4 then s.takeThr k else s
  if 4 ≤ k ∨ s.tst k ≠ Tst.run then s
  else if !s.on Reg.MAINS_STAT_LOCKED then
    ((s.htrQuiet k).cnt Reg.HTR_CNT_NOSYNC_HALVES k).raiseLive Src.htrNosync (110 + k)
  else
    let x := s.htrs k
    let hI := s.mainsPos / 32768
    if x.half = some hI then s
    else
      let s := s.setCause Src.htrNosync (110 + k) false
      let out := (clampI (s.loopOut0 (s.lv Reg.HTR_CFG_LOOP k)) 0 4095).toNat
      let d := min (out * s.rd Reg.THM_THR_THR k / 256) (s.rd Reg.HTR_CEIL_DUTY_CEIL k)
      let s := s.wr Reg.HTR_STAT_DEMAND d k
      let b := (hI * 32768 + s.lv Reg.HTR_FIRE_FIRE_OFS k) % pos40
      if s.lon Reg.HTR_CFG_MODE k then
        let a := if 4095 ≤ d then 0 else fireAngle d
        let s := s.setHtr k { x with half := some hI, onAt := if d = 0 then none else some ((b + a) % pos40) }
        (if d = 0 ∨ x.hold then s else s.cnt Reg.HTR_CNT_HALVES_ON k).htrDue k
      else
        let unit := !s.lon Reg.HTR_CFG_BURST_UNIT k || hI % 2 == 0
        let on := if unit then decide (4096 ≤ x.acc + d) else x.unitOn
        let acc := if unit then (if on then x.acc + d - 4096 else x.acc + d) else x.acc
        let pulse := s.lon Reg.HTR_CFG_OUT_KIND k
        let s := s.setHtr k
          { x with half := some hI, acc := acc, unitOn := on,
                   onAt := if on ∧ (pulse ∨ !x.unitOn) then some b else none,
                   offAt := if !on ∧ x.unitOn ∧ !pulse then some b else if on then none else x.offAt }
        (if on && !x.hold then s.cnt Reg.HTR_CNT_HALVES_ON k else s).htrDue k

def execHeaterHalfCycle (k : Nat) (s : State) : Host.Outcome State Fault Refusal := .next (heaterHalfCycleEff k s)

/-- A gate pulse, or a level's on period, ends (R295). -/
def heaterGateEndEff (k : Nat) (s : State) : State :=
  if 4 ≤ k then s
  else
    let x := s.htrs k
    let lvl : Bool := match x.offAt with
      | some p => posReached s.mainsPos p
      | none => false
    let pls : Bool := match x.pulseEnd with
      | some t => decide (t ≤ s.now)
      | none => false
    if lvl ∨ pls then
      s.setHtr k { x with fire := false, offAt := if lvl then none else x.offAt, pulseEnd := if pls then none else x.pulseEnd }
    else s

def execHeaterGateEnd (k : Nat) (s : State) : Host.Outcome State Fault Refusal := .next (heaterGateEndEff k s)

/-- HTR_CTL.REARM (R296). -/
def htrRearmEff (src : Port) (k : Nat) (s : State) : State :=
  if 4 ≤ k then s
  else s.access src (Reg.HTR_CTL_REARM.addr k 0) true fun s =>
    if s.tst k = Tst.down ∧ !s.abLatched then
      (s.wr Reg.HTR_STAT_STATE Tst.run k).setHtr k { s.htrs k with acc := s.lv Reg.HTR_ACC_ACC_INIT k, half := none }
    else s

def execHtrRearm (src : Port) (k : Nat) (s : State) : Host.Outcome State Fault Refusal := .next (htrRearmEff src k s)

/-! ### The mains phase axis -/

/-- 40–70 Hz in ns (R292). -/
def mainsOk (d : Nat) : Bool := decide (14285714 ≤ d) && decide (d ≤ 25000000)

/-- In-window crossings to lock (R292, R293): below 2 act as 2; 3 after a loss of lock on A1. -/
def State.lockN (s : State) : Nat := if s.mains.lostOnce then 3 else max 2 (s.rd Reg.MAINS_CFG_LOCK_N)

/-- The least position at or ahead of `held` with phase `ph` (R293). -/
def relockPos (held ph : Nat) : Nat := held + (ph + 65536 - held % 65536) % 65536

/-- An accepted rising edge of ZCROSS (R292): the crossing occurred ZC_DELAY µs earlier. -/
def zcrossEdgeEff (s : State) : State :=
  let m := s.mains
  let tc := s.now - 1000 * s.rd Reg.MAINS_CFG_ZC_DELAY
  match m.last with
  | none => { s with mains := { m with last := some tc, good := 0 } }
  | some t =>
    let d := tc - t
    let locked := s.on Reg.MAINS_STAT_LOCKED
    let n := if m.period = 0 then 0 else (2 * d + m.period) / (2 * m.period)
    let off := if d < n * m.period then n * m.period - d else d - n * m.period
    let inWin := 1 ≤ n ∧ off * 256 ≤ max 1 (s.rd Reg.MAINS_CFG_WIN) * m.period
    if inWin ∧ (locked ∨ n = 1) then
      let per := if n = 1 then Config.mainsPeriod m.period d else m.period
      let s1 := s.wrI Reg.MAINS_STAT_PERIOD (Config.rnd per 10000)
      if locked then
        let p := (s.mainsPos + 32768) / 65536 * 65536 % pos40
        { s1 with mains := { m with period := per, last := some tc, good := m.good + 1, base := p, baseAt := tc } }
      else if s.lockN ≤ m.good + 1 then
        let ph := if per = 0 then 0 else (s.now - tc) * 65536 / per % 65536
        let s1 := (s1.wr Reg.MAINS_STAT_LOCKED 1).setCause Src.mainsLost Src.noUnit false
        { s1 with mains := { m with period := per, last := some tc, good := m.good + 1,
                                    base := (relockPos m.base ph + pos40 - ph) % pos40, baseAt := tc } }
      else { s1 with mains := { m with period := per, last := some tc, good := m.good + 1 } }
    else if locked then s
    else { s with mains := { m with period := if mainsOk d then d else 0, last := some tc, good := 0 } }

def execZcrossEdge (s : State) : Host.Outcome State Fault Refusal := .next (zcrossEdgeEff s)

/-- Two cycles without an in-window crossing (R292): lock is lost, AX38 holds; A1 discards its period estimate (R293). -/
def mainsLostEff (s : State) : State :=
  let m := s.mains
  match m.last with
  | none => s
  | some t =>
    if !s.on Reg.MAINS_STAT_LOCKED ∨ s.now ≤ t + 2 * m.period + max 1 (s.rd Reg.MAINS_CFG_WIN) * m.period / 256 then s
    else
      let s := { s with mains := { m with period := 0, last := none, good := 0, lostOnce := true, base := s.mainsPos, baseAt := s.now } }
      (s.wr Reg.MAINS_STAT_LOCKED 0).raiseLive Src.mainsLost Src.noUnit

def execMainsLost (s : State) : Host.Outcome State Fault Refusal := .next (mainsLostEff s)

end Sys2Proof.Machine
end

