-- ==== Sys2Proof/Machine/Capstan.lean ====
section
/-! DEFINITION. Capstans and control laws (R262–R285): the blocks, releases and publications at the base-period edges, the
watchdog, and the loads of blocks, parameters and feed-forward tables. -/

namespace Sys2Proof.Machine

/-! ### Arithmetic (R264) -/

def satMax : Int := 2147483647

/-- A 32-bit word as a value: −2^31 reads as −2,147,483,647. -/
def word32 (w : Nat) : Int := max (-satMax) (signed 32 w)

/-- A product shifted right by `k`, to nearest with halves away from zero. -/
def shiftRnd (x : Int) (k : Nat) : Int :=
  let h : Int := 2 ^ (k - 1)
  if 0 ≤ x then (x + h) / 2 ^ k else -((-x + h) / 2 ^ k)

/-- What a running sample has made so far: signals, state words, outputs, program index of its first saturation, a clamp, the
region; and the index of the block that runs. -/
structure LawCtx where
  sig : Tbl Int
  words : Tbl Nat
  outs : List (Nat × Int)
  sat : Option Nat
  lim : Bool
  region : Nat
  at_ : Nat
deriving DecidableEq, Repr

/-- Saturate, noting it (R264). -/
def LawCtx.clip (c : LawCtx) (x : Int) : Int × LawCtx :=
  if x < -satMax then (-satMax, { c with sat := c.sat.or (some c.at_) })
  else if satMax < x then (satMax, { c with sat := c.sat.or (some c.at_) })
  else (x, c)

def LawCtx.add (c : LawCtx) (a b : Int) : Int × LawCtx := c.clip (a + b)
def LawCtx.sub (c : LawCtx) (a b : Int) : Int × LawCtx := c.clip (a - b)
/-- x × k in Q16.16. -/
def LawCtx.mulQ (c : LawCtx) (x k : Int) : Int × LawCtx := c.clip (shiftRnd (x * k) 16)
/-- Clamp to [lo, hi], setting LIMIT where it acts; lo where lo exceeds hi (R268). -/
def LawCtx.limit (c : LawCtx) (x lo hi : Int) : Int × LawCtx :=
  let y := clampI x lo hi
  (y, if y = x ∧ lo ≤ hi then c else { c with lim := true })

def LawCtx.get (c : LawCtx) (i : Nat) : Int := if i = 0 then 0 else tget 0 c.sig i
def LawCtx.set (c : LawCtx) (i : Nat) (v : Int) : LawCtx := if i = 0 then c else { c with sig := tput 0 c.sig i v }
def LawCtx.word (c : LawCtx) (i : Nat) : Int := word32 (tget 0 c.words i)
def LawCtx.setWord (c : LawCtx) (i : Nat) (v : Int) : LawCtx := { c with words := tput 0 c.words i (unsigned 32 v) }

/-! ### Sources (R267, R270, R272) -/

/-- The speed of an axis in 1/256 count/s (R267). -/
def State.axisSpeed (s : State) (ax : Nat) : Int :=
  match s.axisPort ax with
  | some p => s.rdI Reg.ENC_SPEED_SPEED p
  | none => if 16 ≤ ax ∧ ax < 32 then (s.mots ax).v else 0

/-- The reading of temperature sensor `i` as a loop sees it: 32,767 where broken (R267, R300). -/
def State.loopTemp (s : State) (i : Nat) : Int :=
  if 48 ≤ i ∨ s.on Reg.THM_SENS_STAT_BROKEN i then 32767 else s.rdI Reg.THM_SENS_STAT_TEMP i

/-- The decimation of the channel's filters. -/
def State.osr (s : State) (n : Nat) : Nat := 2 ^ (4 + min 4 (s.lv Reg.DRV_SDSEL_OSR n))

/-- The sinc3 output of bitstream `i` (R206, R267), at the decimation of the lowest drive channel that selects it. -/
def State.loopSd (s : State) (rd : Readings) (i : Nat) : Int :=
  let bits := rd.sd.getD i []
  match (List.range 16).find? fun n => s.lv Reg.DRV_SDSEL_IA_SEL n == i || s.lv Reg.DRV_SDSEL_IB_SEL n == i || s.lv Reg.DRV_SDSEL_VBUS_SEL n == i with
  | some n => sinc3 (s.osr n) bits
  | none => max (-32768) (min 32767 (Config.sdUnselected bits))

/-- Duty and frequency of GPIO input `i` from its last three edges: 0 where it shows no edge for 100 ms (R267). -/
def State.loopPin (s : State) (rd : Readings) (i : Nat) (freq : Bool) : Int :=
  match rd.gpio[i]? with
  | none => 0
  | some (r0, f, r1) =>
    if r1 ≤ r0 ∨ max f r1 + 100000000 ≤ s.now then 0
    else if freq then Config.rnd 1000000000 (r1 - r0 : Nat)
    else Config.rnd ((f - r0 : Nat) * 65535) (r1 - r0 : Nat)

/-- How many indexes the source `aux` of an INPUT block has (R267). -/
def sourceSize (aux : Nat) : Nat :=
  match aux with
  | 0x00 => 2 ^ 32
  | 0x01 => 64
  | 0x02 | 0x03 | 0x04 => 48
  | 0x05 => 512
  | 0x06 | 0x07 => 16
  | _ => 64

/-- The raw reading r of an INPUT block (R267): `ix` is P[PBASE]; a free value at an index that the source does not have (log 157). -/
def State.lawInput (s : State) (rd : Readings) (aux : Nat) (ix : Nat) : Int :=
  if sourceSize aux ≤ ix then clampI (Config.noReading aux ix) (-satMax) satMax
  else match aux with
  | 0x00 => word32 ix
  | 0x01 => s.axisSpeed (ix % 64)
  | 0x02 => rd.adc.getD ix 0
  | 0x03 => s.loopSd rd ix
  | 0x04 => s.loopTemp ix
  | 0x05 => s.rdI Reg.LOOP_OUT_OUT (ix % 128) (ix / 128 % 4)
  | 0x06 => s.rdI Reg.DRV_TORQUE_TORQUE (ix % 16)
  | 0x07 => s.rd Reg.DRV_VBUS_VBUS (ix % 16)
  | 0x08 => s.loopPin rd ix false
  | _ => s.loopPin rd ix true

/-- Entry `i` of feed-forward table `t`. -/
def State.ffEntry (s : State) (t i : Nat) : Int := word32 (tget 0 s.ff (t * 1024 + i))

/-! ### Blocks (R266) -/

/-- Σ of products by Q2.30 coefficients at full width, rounded and saturated once (R269). -/
def LawCtx.mac (c : LawCtx) (ts : List (Int × Int)) : Int × LawCtx := c.clip (shiftRnd ((ts.map fun t => t.1 * t.2).sum) 30)

/-- Interpolation between entries a and b of a table at fraction `f` of 2^16 (R270). -/
def LawCtx.interp (c : LawCtx) (a b : Int) (f : Nat) : Int × LawCtx :=
  let (d, c) := c.sub b a
  let (m, c) := c.mulQ d f
  c.add a m

/-- One block `b` of loop `l`'s program at the release edge (R266–R273). `p i` is P[PBASE + i] with the schedule's offset. -/
def State.runBlock (s : State) (rd : Readings) (l : Nat) (c : LawCtx) (b : Nat) : LawCtx :=
  let dst := field b 6 5
  let a := c.get (field b 11 5)
  let b2 := c.get (field b 16 5)
  let c3 := c.get (field b 21 5)
  let aux := field b 40 8
  let base := field b 26 8 + (if field b 48 1 = 1 then c.region * aux else 0)
  let pw (i : Nat) : Nat := tget 0 s.lparam (l * 256 + (base + i) % 256)
  let p (i : Nat) : Int := word32 (pw i)
  let sb := field b 34 6
  match blkType b with
  | 0x01 =>
    let (y, c) := c.mulQ (s.lawInput rd aux (pw 0)) (p 1)
    c.set dst y
  | 0x02 =>
    let (x, c) := c.mulQ a (p 0)
    let (y, c) := c.mulQ b2 (p 1)
    let (z, c) := c.mulQ c3 (p 2)
    let (t, c) := c.add x y
    let (t, c) := c.add t z
    c.set dst t
  | 0x03 =>
    let e := a
    let i0 := c.word sb
    let lo := p 3
    let hi := p 4
    let (pe, c) := c.mulQ e (p 0)
    let (ki, c) := c.mulQ e (p 1)
    let (de, c) := c.sub e (c.word (sb + 1))
    let (d, c) := c.mulQ de (p 2)
    let sum (c : LawCtx) (i : Int) : Int × LawCtx :=
      let (t, c) := c.add pe i
      let (t, c) := c.add t d
      c.add t b2
    let (u, c) := sum c i0
    let upd : Bool := (decide (lo ≤ u) && decide (u ≤ hi)) || (decide (u < lo) && decide (0 < ki)) || (decide (hi < u) && decide (ki < 0))
    let (t, c) := if upd then c.add i0 ki else (i0, c)
    let (i1, c) := if upd then c.limit t lo hi else (i0, c)
    let (u, c) := sum c i1
    let (y, c) := c.limit u lo hi
    ((c.setWord sb i1).setWord (sb + 1) e).set dst y
  | 0x04 =>
    let x1 := c.word sb
    let x2 := c.word (sb + 1)
    let y1 := c.word (sb + 2)
    let y2 := c.word (sb + 3)
    let (y, c) := c.mac [(p 0, a), (p 1, x1), (p 2, x2), (-(p 3), y1), (-(p 4), y2)]
    ((((c.setWord sb a).setWord (sb + 1) x1).setWord (sb + 2) y).setWord (sb + 3) y1).set dst y
  | 0x05 =>
    let (y, c) := c.mac [(p 0, a), (p 1, c.word sb), (-(p 2), c.word (sb + 1))]
    ((c.setWord sb a).setWord (sb + 1) y).set dst y
  | 0x06 =>
    let (d, c) := c.sub a (p 0)
    let (u0, c) := c.clip (d * p 1)
    let u := (clampI u0 0 (1023 * 65536)).toNat
    let t := aux % 32
    let i := u / 65536
    if i = 1023 then c.set dst (s.ffEntry t 1023)
    else
      let (y, c) := c.interp (s.ffEntry t i) (s.ffEntry t (i + 1)) (u % 65536)
      c.set dst y
  | 0x07 =>
    let ax := pw 0 % 64
    let t := aux % 32
    let d := ((s.rd Reg.AXIS_SCHED ax : Int) - p 2) % (pw 1 : Int)
    let u := (Config.rnd (d * 67108864) (pw 1) % 67108864).toNat
    let (y, c) := c.interp (s.ffEntry t (u / 65536)) (s.ffEntry t ((u / 65536 + 1) % 1024)) (u % 65536)
    let (y, c) := c.mulQ y (p 3)
    if bitOf aux 5 then
      let v := s.axisSpeed ax
      let rev : Bool := match s.axisPort ax with
        | some q => s.on Reg.ENC_STAT_REVERSING q
        | none => false
      c.set dst (if v = 0 ∨ rev then 0 else if v < 0 then -y else y)
    else c.set dst y
  | 0x08 =>
    let r := tget 0 c.words sb % 8
    let hyst := p 7
    let (hi, c) := if r < 7 then c.add (p r) hyst else (0, c)
    let (lo, c) := if 0 < r then c.sub (p (r - 1)) hyst else (0, c)
    let r := if r < 7 ∧ hi ≤ a then r + 1 else if 0 < r ∧ a < lo then r - 1 else r
    { c.setWord sb r with region := r }
  | 0x09 =>
    match aux % 4 with
    | 3 =>
      let m := pw 0 % 64
      let sl := pw 0 / 256 % 64
      let sm := s.rd Reg.AXIS_SCHED m
      let ss := s.rd Reg.AXIS_SCHED sl
      let fresh := (s.loops l).fresh
      let m0 := if fresh then sm else (tget 0 c.words sb * 2 ^ 32 + tget 0 c.words (sb + 1)) % pos40
      let l0 := if fresh then ss else (tget 0 c.words (sb + 2) * 2 ^ 32 + tget 0 c.words (sb + 3)) % pos40
      let c := if fresh then { c with words := tputs 0 c.words sb [sm / 2 ^ 32, sm % 2 ^ 32, ss / 2 ^ 32, ss % 2 ^ 32] } else c
      let ratio := signed 64 (pw 1 * 2 ^ 32 + pw 2)
      let (y, c) := c.clip (Config.rnd (posDiff sm m0 * ratio) (2 ^ 32) + s.rdI Reg.LOOP_TRIM_TRIM l - posDiff ss l0 * 256)
      let (v, c) := c.clip (Config.rnd (s.axisRate m * ratio) (2 ^ 40))
      let c := c.set dst y
      if dst = 31 then c else c.set (dst + 1) v
    | mode =>
      let r := s.lawInput rd (if mode = 0 then 0x02 else if mode = 1 then 0x09 else 0x08) (pw 0)
      let (d, c) := c.sub r (p 1)
      let (g, c) := c.mulQ d (p 3)
      let (y, c) := c.add (p 2) g
      c.set dst y
  | 0x0A =>
    let (y, c) := c.limit a (p 0) (p 1)
    c.set dst y
  | 0x0B => { c with outs := c.outs ++ [(aux % 4, a)] }
  | _ => c

/-- The signals and state words of loop `l` as they stand (R264). -/
def State.lawStart (s : State) (l : Nat) : LawCtx where
  sig := (List.range 32).foldl (fun t i => tput 0 t i (s.rdI Reg.LOOP_SIG l i)) []
  words := (List.range 64).foldl (fun t i => tput 0 t i (tget 0 s.lword (l * 64 + i))) []
  outs := []
  sat := none
  lim := false
  region := s.rd Reg.LOOP_STAT_REGION l
  at_ := 0

/-- The whole program of loop `l` on the snapshot of its release edge (R263). -/
def State.runLaw (s : State) (rd : Readings) (l : Nat) : LawCtx :=
  (List.range (s.lv Reg.LOOP_PROG_COUNT l)).foldl
    (fun c i => s.runBlock rd l { c with at_ := i } (s.blk (s.lv Reg.LOOP_PROG_FIRST l + i))) (s.lawStart l)

/-- The words of the law-program and feed-forward tables that loop `l` reads (R284). -/
def State.lawWords (s : State) (l : Nat) : List Nat :=
  let is := (List.range (s.lv Reg.LOOP_PROG_COUNT l)).map (s.lv Reg.LOOP_PROG_FIRST l + ·)
  (is.map blockWord ++ (is.filter fun i => blkType (s.blk i) == 6 || blkType (s.blk i) == 7).flatMap fun i =>
    (List.range 128).map fun w => ffWord (field (s.blk i) 40 5) (8 * w)).eraseDups

/-- The release edge of loop `l` (R263): its sample runs on the snapshot; an uncorrectable word stops the loop (R284). -/
def State.release (s : State) (rd : Readings) (l : Nat) : State :=
  let (bad, s) := (s.lawWords l).foldl (fun (x : Option Nat × State) w =>
    if (tget [] x.2.flips (wordKey 2 w)).isEmpty && !tget false x.2.poison (wordKey 2 w) then x
    else
      let (k, s) := x.2.eccRead 2 w
      (if k = 2 then some w else x.1, s)) (none, s)
  match bad with
  | some w => s.loopEcc l w
  | none =>
    let c := s.runLaw rd l
    s.setLoop l { s.loops l with
      pend := some ⟨s.rd Reg.LOOP_STAT_TALLY l, c.sig, c.words, c.outs, c.sat, c.lim, c.region, false⟩ }

/-! ### Completion and publication -/

/-- A capstan's tag is accepted for loop `l` (R281): it equals the loop's TALLY, and the capstan is not dead. -/
def State.tagOk (s : State) (l tally : Nat) : Bool :=
  s.rd Reg.LOOP_STAT_TALLY l == tally && !s.isBoomed (62 + s.lv Reg.LOOP_CFG_CAP l)

/-- The blocks of loop `l` have finished (R263): signals, state and flags are written to the loop store under the tag (R281). -/
def loopSampleCompleteEff (l : Nat) (s : State) : State :=
  if 128 ≤ l then s
  else
    let x := s.loops l
    match x.pend with
    | none => s
    | some q =>
      if q.done then s
      else if !s.tagOk l q.tally then s
      else
        let s := (List.range 32).foldl (fun s i => s.wrI Reg.LOOP_SIG (if i = 0 then 0 else tget 0 q.sig i) l i) s
        let s := { s with lword := (List.range 64).foldl (fun t i => tput 0 t (l * 64 + i) (tget 0 q.words i)) s.lword }
        let s := s.wr Reg.LOOP_STAT_REGION q.region l
        let s := match q.sat with
          | some b => if s.on Reg.LOOP_STAT_ARITH_SAT l then s else (s.wr Reg.LOOP_STAT_ARITH_SAT 1 l).wr Reg.LOOP_STAT_SAT_BLOCK b l
          | none => s
        let s := if q.lim then s.wr Reg.LOOP_STAT_LIMIT 1 l else s
        let s := s.wr Reg.LOOP_CNT_SAMPLES (s.rd Reg.LOOP_CNT_SAMPLES l + 1) l
        s.setLoop l { x with pend := some { q with done := true }, fresh := false }

def execLoopSampleComplete (l : Nat) (s : State) : Host.Outcome State Fault Refusal := .next (loopSampleCompleteEff l s)

/-- A missed sample of loop `l` (R263). -/
def State.missSample (s : State) (l : Nat) : State := (s.wr Reg.LOOP_STAT_DEADLINE 1 l).cnt Reg.LOOP_CNT_MISSES l

/-- The edge that ends loop `l`'s base period (R263): its outputs are published, or its sample is discarded whole and missed. On A1 silicon
the first sample after a migration may be counted as missed although it completed (R283). -/
def State.endSample (s : State) (l : Nat) : State :=
  let x := s.loops l
  match x.pend with
  | none => s
  | some q =>
    let s := s.setLoop l { x with pend := none, moved := false }
    if q.done then
      let s := q.outs.foldl (fun s o => s.wrI Reg.LOOP_OUT_OUT o.2 l o.1) s
      if x.moved then
        let (b, s) := s.takeFree 2
        if b = 1 then s.missSample l else s
      else s
    else s.missSample l

/-- A held or immediate write of loop `l`'s parameters, state or references (R272, R274, R276). -/
def State.applyHeld (s : State) (l : Nat) (h : Held) : State :=
  match h with
  | .param i v => { s with lparam := tput 0 s.lparam (l * 256 + i) v }
  | .clear =>
    let s := (List.range 32).foldl (fun s i => s.wr Reg.LOOP_SIG 0 l i) s
    { s with lword := (List.range 64).foldl (fun t i => tput 0 t (l * 64 + i) 0) s.lword }.wr Reg.LOOP_STAT_REGION 0 l
  | .rezero ax off =>
    if (s.loops l).fresh then s
    else (List.range (s.lv Reg.LOOP_PROG_COUNT l)).foldl (fun s i =>
      let b := s.blk (s.lv Reg.LOOP_PROG_FIRST l + i)
      if blkType b = 9 ∧ field b 40 2 = 3 then
        let sb := l * 64 + field b 34 6
        let ofs := if field b 48 1 = 1 then s.rd Reg.LOOP_STAT_REGION l * field b 40 8 else 0
        let pw := tget 0 s.lparam (l * 256 + (field b 26 8 + ofs) % 256)
        let bump (s : State) (k : Nat) : State :=
          let v := (tget 0 s.lword k * 2 ^ 32 + tget 0 s.lword (k + 1) + off) % pos40
          { s with lword := tputs 0 s.lword k [v / 2 ^ 32, v % 2 ^ 32] }
        let s := if pw % 64 = ax then bump s sb else s
        if pw / 256 % 64 = ax then bump s (sb + 2) else s
      else s) s

/-- Writes to loop `l` at this edge (R274): held while its sample runs. -/
def State.loopWrite (s : State) (l : Nat) (hs : List Held) : State :=
  let x := s.loops l
  match x.pend with
  | some q => if q.done then hs.foldl (fun s h => s.applyHeld l h) s else s.setLoop l { x with held := x.held ++ hs }
  | none => hs.foldl (fun s h => s.applyHeld l h) s

/-- Apply what was held for loop `l` (R274). -/
def State.flushHeld (s : State) (l : Nat) : State :=
  let hs := (s.loops l).held
  hs.foldl (fun s h => s.applyHeld l h) (s.setLoop l { s.loops l with held := [] })

/-! ### The watchdog -/

/-- A dead capstan gives beats or writes again (R281): stale, reported once. -/
def State.goStale (s : State) (c : Nat) : State :=
  if s.rd Reg.CAP_STAT_STATE c ≠ Cst.dead then s
  else ((s.wr Reg.CAP_STAT_STATE Cst.stale c).capReport c 3 St.staleTally (s.rd Reg.CAP_TALLY_TALLY c)).raise Src.capStale (62 + c)

/-- The judgement of capstan `c` at a period end (R279): `some byBeats` where it is dead; `miss`: a sample of its loops missed, `work`:
it had work. -/
def State.judgeCap (s : State) (c : Nat) (beat work miss : Bool) : Option Bool × State :=
  let x := s.caps c
  let x : Cap := ⟨if beat then 0 else x.miss + 1, if work then (if miss then x.late + 1 else 0) else x.late⟩
  let s := (s.setCap c x).wb Reg.CAP_STAT_BEAT beat c
  let byBeats := decide (s.lv Reg.CAP_CFG_WD_BEATS c + 1 ≤ x.miss)
  if byBeats ∨ max 1 (s.lv Reg.CAP_CFG_WD_MISS c) ≤ x.late then (some byBeats, s) else (none, s)

/-- Capstan `c` is declared dead (R279, R280): boomed whatever the class of CAP_DEAD, its loops moved. -/
def State.capDeath (s : State) (c : Nat) (byBeats : Bool) : State :=
  let s := (s.cnt Reg.CAP_CNT_DEATHS c).setCap c Cap.init
  ((s.fenceCommits (62 + c)).migrate c byBeats).raise Src.capDead (62 + c)

/-- A base-period edge (R262, R263, R274, R279–R281, R287, R294, R296): samples end and publish, beats and deadlines are judged,
dead capstans' loops move in ascending order, held writes apply, references and set-points are written, loops are released. -/
def capstanPeriodEff (beats : Nat) (rd : Readings) (s : State) : State :=
  if s.now % 6250 ≠ 0 ∨ s.capAt = some s.now ∨ s.rd Reg.PWR_STAT_MODE = 2 then s
  else
    let k := s.now / 6250
    let s := { s with capAt := some s.now }
    let s0 := s
    let s := (List.range 128).foldl (fun s l => s.endSample l) s
    let missed (c : Nat) : Bool := (s0.loopsOf c).any fun l => match (s0.loops l).pend with | some q => !q.done | none => false
    let worked (c : Nat) : Bool := (s0.loopsOf c).any fun l => (s0.loops l).pend.isSome
    let (dead, s) := (List.range 16).foldl (fun (x : List (Nat × Bool) × State) c =>
      let s := x.2
      if s.isLaid (62 + c) ∨ !s.lon Reg.CAP_CFG_EN c then x
      else if s.isBoomed (62 + c) then (x.1, if bitOf beats c then s.goStale c else s)
      else match s.judgeCap c (bitOf beats c && !missed c) (worked c) (missed c) with
        | (some b, s) => (x.1 ++ [(c, b)], s)
        | (none, s) => (x.1, s)) ([], s)
    let s := dead.foldl (fun s d => s.setBoomed (62 + d.1) true) s
    let s := dead.foldl (fun s d => s.capDeath d.1 d.2) s
    let s := (List.range 128).foldl (fun s l => s.flushHeld l) s
    let s := (List.range 32).foldl (fun s h => s.hvReference h) s
    let s := (List.range 4).foldl (fun s h => s.htrPeriod h) s
    (List.range 128).foldl (fun s l =>
      if s.lon Reg.LOOP_CFG_EN l && !s.on Reg.LOOP_STAT_ORPHAN l && !s.fenced (62 + s.lv Reg.LOOP_CFG_CAP l) &&
          (k + s.lv Reg.LOOP_CFG_PHASE l) % 2 ^ s.lv Reg.LOOP_CFG_RATE_SHIFT l == 0 then s.release rd l else s) s

def execCapstanPeriod (beats : Nat) (rd : Readings) (s : State) : Host.Outcome State Fault Refusal :=
  .next (capstanPeriodEff beats rd s)

/-- A write tagged with a retired tally (R281): discarded and counted; the first is reported. -/
def staleEff (c : Nat) (s : State) : State :=
  if 16 ≤ c ∨ !(s.rd Reg.CAP_STAT_STATE c == Cst.dead || s.rd Reg.CAP_STAT_STATE c == Cst.stale) then s
  else (s.cnt Reg.CAP_CNT_STALE_WRITES c).goStale c

def execStale (c : Nat) (s : State) : Host.Outcome State Fault Refusal := .next (staleEff c s)

/-! ### Loads -/

/-- Little-endian words of `n` bytes each. -/
def leWords (n : Nat) : Nat → List Byte → List Nat
  | 0, _ => []
  | k + 1, bs => ((bs.take n).foldr (fun b v => b.toNat + 256 * v) 0) :: leWords n k (bs.drop n)

/-- TYPE defined and no reserved bit (R275). -/
def blockOk (b : Nat) : Bool := decide (1 ≤ blkType b) && decide (blkType b ≤ 11) && field b 49 15 == 0

/-- Blocks `first` to `first + n` − 1 lie in an enabled loop's program. -/
def State.inProgram (s : State) (first n : Nat) : Bool :=
  (List.range 128).any fun l => s.lon Reg.LOOP_CFG_EN l && decide (s.lv Reg.LOOP_PROG_FIRST l < first + n) &&
    decide (first < s.lv Reg.LOOP_PROG_FIRST l + s.lv Reg.LOOP_PROG_COUNT l)

/-- What an uncorrectable word of the table SRAMs does, found by a read that no unit made for itself (R21, R176, R284). -/
def State.tableWordEcc (s : State) (w : Nat) : State :=
  if w < 24 then s.dotSetEcc (w / 4) (w % 4)
  else if w < 120 then s.dotSetEcc ((w - 24) / 16) ((w - 24) / 4 % 4)
  else if w < 2424 then s
  else if w < 7544 then
    ((List.range 128).filter fun l => s.lon Reg.LOOP_CFG_EN l && (s.lawWords l).contains w).foldl (fun s l => s.loopEcc l w) s
  else s

/-- Entries `lo` to `lo + n` − 1 of a table are written whose SECDED words hold `per` entries each (R21): a word written in part is
read first, and `clear` makes its entries zero where it was uncorrectable. -/
def State.tableWrite (s : State) (wordOf : Nat → Nat) (per lo n : Nat) (clear : Nat → State → State) : State :=
  ((List.range n).map fun i => wordOf (lo + i)).eraseDups.foldl (fun s w =>
    if ((List.range n).filter fun i => wordOf (lo + i) == w).length = per then s.eccWrite 2 w
    else
      let (bad, new, s) := s.eccPart 2 w
      let s := if new then s.tableWordEcc w else s
      if bad then clear w s else s) s

/-- LAW_LOAD (R275). -/
def lawLoadEff (n : Nat) (data : ReadRes) (s0 : State) : State :=
  s0.withDesc n 0x50 fun j s =>
    let first := dget j.d 16 0 12
    let cnt := dget j.d 18 0 11
    let src := dget j.d 24 0 64
    if dCrx j.d ≠ 0 ∨ dget j.d 16 12 4 ≠ 0 ∨ dget j.d 18 11 5 ≠ 0 ∨ !dZero j.d 20 24 ∨ !dZero j.d 32 64 ∨ 1024 < cnt ∨
        4096 < first + cnt ∨ src % 8 ≠ 0 then s.complete j St.badDesc
    else if cnt = 0 then s.complete j St.ok
    else s.loadRead s0 12 j src (8 * cnt) data fun bs s =>
      let bl := leWords 8 cnt bs
      match bl.findIdx? fun b => !blockOk b with
      | some i => s.loadDone 12 (some 0) j St.badDesc (first + i)
      | none =>
        if s.inProgram first cnt then s.loadDone 12 (some 0) j St.refusedState
        else
          let s := s.tableWrite blockWord 4 first cnt fun w s =>
            { s with block := tputs 0 s.block (4 * (w - 6520)) [0, 0, 0, 0] }
          { s with block := tputs 0 s.block first bl }.loadDone 12 (some (8 * cnt)) j St.ok

def execLawLoad (n : Nat) (data : ReadRes) (s : State) : Host.Outcome State Fault Refusal := .next (lawLoadEff n data s)

/-- LAW_PARAM_SET (R276). -/
def lawParamSetEff (n : Nat) (data : ReadRes) (s0 : State) : State :=
  s0.withDesc n 0x51 fun j s =>
    let l := dget j.d 16 0 7
    let first := dget j.d 17 0 8
    let cnt := dget j.d 18 0 9
    let src := dget j.d 24 0 64
    if dCrx j.d ≠ 0 ∨ dget j.d 18 9 7 ≠ 0 ∨ !dZero j.d 20 24 ∨ !dZero j.d 32 64 ∨ 256 < first + cnt ∨ src % 4 ≠ 0 then
      s.complete j St.badDesc
    else
      let put (s : State) (ws : List Nat) (fin : State → State) : State :=
        let hs := (ws.zipIdx.map fun x => Held.param (first + x.2) x.1) ++ (if dget j.d 16 7 1 = 1 then [Held.clear] else [])
        fin (s.loopWrite l hs)
      if cnt = 0 then put s [] fun s => s.complete j St.ok
      else s.loadRead s0 12 j src (4 * cnt) data fun bs s => put s (leWords 4 cnt bs) fun s => s.loadDone 12 (some (4 * cnt)) j St.ok

def execLawParamSet (n : Nat) (data : ReadRes) (s : State) : Host.Outcome State Fault Refusal := .next (lawParamSetEff n data s)

/-- An enabled loop's LOOKUP or FEEDFWD block names table `t` (R277). -/
def State.tableUsed (s : State) (t : Nat) : Bool :=
  (List.range 128).any fun l => s.lon Reg.LOOP_CFG_EN l && (List.range (s.lv Reg.LOOP_PROG_COUNT l)).any fun i =>
    let b := s.blk (s.lv Reg.LOOP_PROG_FIRST l + i)
    (blkType b == 6 || blkType b == 7) && field b 40 5 == t

/-- FF_TABLE_LOAD (R277). -/
def ffTableLoadEff (n : Nat) (data : ReadRes) (s0 : State) : State :=
  s0.withDesc n 0x52 fun j s =>
    let t := dget j.d 16 0 5
    if dCrx j.d ≠ 0 ∨ dget j.d 16 5 3 ≠ 0 ∨ !dZero j.d 17 24 ∨ !dZero j.d 32 64 ∨ dget j.d 24 0 64 % 4 ≠ 0 then s.complete j St.badDesc
    else s.loadRead s0 12 j (dget j.d 24 0 64) 4096 data fun bs s =>
      if s.tableUsed t then s.loadDone 12 (some 0) j St.refusedState
      else
        let s := (List.range 128).foldl (fun s w => s.eccWrite 2 (ffWord t (8 * w))) s
        { s with ff := tputs 0 s.ff (t * 1024) (leWords 4 1024 bs) }.loadDone 12 (some 4096) j St.ok

def execFfTableLoad (n : Nat) (data : ReadRes) (s : State) : Host.Outcome State Fault Refusal := .next (ffTableLoadEff n data s)

/-- LAW_PARAM (R274): performed, or its refusal. -/
def State.lawParamStatus (s : State) (l : Nat) : Nat :=
  if !s.lon Reg.LOOP_CFG_EN l then St.refusedState else if s.on Reg.LOOP_STAT_ORPHAN l then St.fenced else St.ok

/-- The parameter write of a LAW_PARAM (R274): the value is sign-extended from 24 bits. -/
def State.lawParamWrite (s : State) (l arg : Nat) : State :=
  s.loopWrite l [.param (arg % 256) (unsigned 32 (signed 24 (arg / 256)))]

end Sys2Proof.Machine
end

