-- ==== Sys2Proof/Machine/Chopper.lean ====
section
/-! DEFINITION. The chopper's phases of a stepper coil (R243). -/

namespace Sys2Proof.Machine

/-- A coil of a channel. -/
def Stp.coil (x : Stp) (b : Bool) : Coil := if b then x.b else x.a
/-- The legs of a coil's bridge whose high side its phase turns on: bit 0 leg 1, bit 1 leg 2 (R243). -/
def Coil.legs (c : Coil) : Nat :=
  match c.phase with
  | 1 => if c.neg then 2 else 1
  | 2 => if c.neg then 1 else 2
  | _ => 0

/-- Store a coil; the time at which its bridge switches starts the dead time (R243). -/
def State.setCoil (s : State) (k : Nat) (b : Bool) (c : Coil) : State :=
  let o := (s.stps k).coil b
  let c := if c.legs = o.legs then c else { c with was := o.legs, swAt := s.now }
  s.setStp k (if b then { s.stps k with b := c } else { s.stps k with a := c })

/-- The present entry of a coil: magnitude and sign (R240). -/
def State.coilEntry (s : State) (k : Nat) (b : Bool) : Nat := s.rd (if b then Reg.STP_REF_REF_B else Reg.STP_REF_REF_A) k
def entryMag (e : Nat) : Nat := e % 2048
def entryNeg (e : Nat) : Bool := decide (2048 ≤ e)

/-- The current reference of a coil in DAC codes (R242). -/
def State.coilRef (s : State) (k : Nat) (b : Bool) : Nat :=
  entryMag (s.coilEntry k b) * (if s.rd Reg.STP_STAT_STATE k = 2 then s.lv Reg.STP_CUR_I_HOLD k else s.lv Reg.STP_CUR_I_RUN k) / 2047

def tripField (b : Bool) : Fld := if b then Reg.STP_STAT_B_TRIP else Reg.STP_STAT_A_TRIP

/-- Start an ON phase in the entry's sign, or hold both low sides at magnitude 0 (R243). -/
def State.coilOn (s : State) (k : Nat) (b : Bool) : State :=
  let e := s.coilEntry k b
  let c := (s.stps k).coil b
  let s := s.wr (tripField b) 0 k
  if entryMag e = 0 then s.setCoil k b { c with phase := 0, start := s.now, shorts := 0 }
  else s.setCoil k b { c with phase := 1, start := s.now, neg := entryNeg e, allFast := false }

/-- Start an OFF phase (R243). -/
def State.coilOff (s : State) (k : Nat) (b allFast : Bool) : State :=
  let c := (s.stps k).coil b
  s.setCoil k b { c with phase := if allFast || decide (s.lv Reg.STP_CHOP_FAST k ≠ 0) then 2 else 3, start := s.now, allFast := allFast }

/-- A coil meets a new entry at a sample (R243): sign change during ON, magnitude 0, and leaving it. -/
def State.coilSample (s : State) (k : Nat) (b : Bool) : State :=
  let c := (s.stps k).coil b
  let e := s.coilEntry k b
  if s.rd Reg.STP_STAT_STATE k = 0 ∨ s.rd Reg.STP_STAT_STATE k = 3 then s
  else if entryMag e = 0 then (if c.phase = 0 then s else s.coilOn k b)
  else if c.phase = 0 then s.coilOn k b
  else if c.phase = 1 ∧ entryNeg e ≠ c.neg then s.coilOff k b true
  else s

end Sys2Proof.Machine
end

