-- ==== Sys2Proof/Machine/Motion.lean ====
section
/-! DEFINITION. Motion axes (R226–R239): the profile engine at the 6.25 µs sample grid, segments, moves, stops, limits, homing
and their descriptors. p is held in 2^-16 count and v in 1/256 count/s; where the manual states a quotient and not its rounding,
`Config.rnd` rounds it (log 10). -/

namespace Sys2Proof.Machine

/-- Samples per second (R226). -/
def rate : Int := 160000
def p56 : Nat := 2 ^ 56

/-! ### Kinematics: displacement in 2^-16 count and velocity in 1/256 count/s after `n` samples -/

/-- From v0 towards vt at `a` counts/s², then on at vt. -/
def towards (v0 vt : Int) (a n : Nat) : Int × Int :=
  let dv := vt - v0
  let sg : Int := if dv < 0 then -1 else 1
  let ad : Int := dv.natAbs
  if a = 0 ∨ ad * rate ≤ n * 256 * a then
    (Config.rnd ((v0 - vt) * ad * rate + 512 * a * vt * n) (2 * a * rate), vt)
  else
    (Config.rnd (512 * rate * v0 * n + sg * 65536 * a * n * n) (2 * rate * rate),
     v0 + sg * Config.rnd (256 * a * n) rate)

/-- The speed at which a move of displacement `d` turns from acceleration to deceleration (R230). -/
def peak (d v0 : Int) (vmax a : Nat) : Nat := min vmax (rndSqrt (a * d + v0 * v0 / 2).toNat)

/-- A move forward by `d` to rest under VMAX and ACCEL, from a speed v0 that may still point backward (R230): displacement, velocity,
arrived. -/
def trapezoid (d v0 : Int) (vmax a n : Nat) : Int × Int × Bool :=
  let vp : Int := if (vmax : Int) < v0 then vmax else peak d v0 vmax a
  let dv : Int := (vp - v0).natAbs
  let sg : Int := if vp < v0 then -1 else 1
  let d2 : Int := 2 * a * d - (v0 + vp) * dv - vp * vp
  let t : Int := n * 512 * a * vp
  let total : Int := rate * (2 * vp * dv + d2 + 2 * vp * vp)
  if a = 0 then (d, 0, true)
  else if n * 256 * a < dv * rate then
    (Config.rnd (512 * rate * v0 * n + sg * 65536 * a * n * n) (2 * rate * rate), v0 + sg * Config.rnd (256 * a * n) rate, false)
  else if vp = 0 ∨ total ≤ t then (d, 0, true)
  else if t ≤ rate * (2 * vp * dv + d2) then
    (Config.rnd ((v0 + vp) * dv * rate + 512 * a * vp * n - 2 * vp * dv * rate) (2 * a * rate), vp, false)
  else
    let r := total - t
    (d - Config.rnd (r * r) (8 * a * vp * vp * rate * rate), Config.rnd r (2 * vp * rate), false)

/-- The cubic of R228 at sample `i` of `dur`: displacement from the start towards δ, and velocity. -/
def hermite (δ v0 v1 : Int) (dur i : Nat) : Int × Int :=
  if dur ≤ i then (δ, v1)
  else
    let n : Int := i
    let N : Int := dur
    (Config.rnd (δ * (3 * n * n * N - 2 * n * n * n) * rate + 256 * N * (v0 * (n * n * n - 2 * n * n * N + n * N * N) + v1 * (n * n * n - n * n * N)))
      (rate * N * N * N),
     Config.rnd (δ * 6 * rate * (n * N - n * n) + 256 * N * (v0 * (3 * n * n - 4 * n * N + N * N) + v1 * (3 * n * n - 2 * n * N)))
      (256 * N * N * N))

/-- The stopping point displacement σ·v² / (2·a) in 2^-16 count (R231). -/
def stopDist (v : Int) (a : Nat) : Int := if a = 0 then 0 else Config.rnd (v * v.natAbs) (2 * a)

def addPos (p : Nat) (d : Int) : Nat := ((p + d) % p56).toNat

/-! ### Limits and readiness -/

def State.limLo (s : State) (m : Nat) : Nat := s.lv Reg.MOT_LIM_LO_LO_LIM_LO_LO m + 2 ^ 32 * s.lv Reg.MOT_LIM_LO_HI_LIM_LO_HI m
def State.limHi (s : State) (m : Nat) : Nat := s.lv Reg.MOT_LIM_HI_LO_LIM_HI_LO m + 2 ^ 32 * s.lv Reg.MOT_LIM_HI_HI_LIM_HI_HI m

/-- A position lies in the allowed interval (R234). -/
def State.inLimits (s : State) (m x : Nat) : Bool :=
  !s.lon Reg.MOT_CFG_LIM_EN m || decide (posDist x (s.limLo m) ≤ posDist (s.limHi m) (s.limLo m))

/-- The deceleration a stop of axis `m` uses, in counts/s² (R234). -/
def State.stopDecel (s : State) (m : Nat) : Nat :=
  if 16 ≤ m then s.lv Reg.MOT_STOP_DECEL_STOP_DECEL m else s.lv Reg.DRV_DECEL_DECEL m * s.lv Reg.DRV_COUNTS_COUNTS_REV m / 60

/-- The channel of motion axis `m` is enabled for motion (R230). -/
def State.motEnabled (s : State) (m : Nat) : Bool :=
  if m < 16 then s.lon Reg.DRV_CFG_EN m && s.lv Reg.DRV_CFG_SRC m == 1 else s.lon Reg.STP_CFG_EN (m - 16)

/-- The commit unit of a motion axis's channel: DRV m, STP m − 16 (R226). -/
def motUnit (m : Nat) : Nat := 6 + m

/-- A command to axis `m` is refused (R230, R233): `none` where it may run. -/
def State.motRefusal (s : State) (m : Nat) : Option Nat :=
  if s.fenced (motUnit m) then some St.fenced
  else if !s.motEnabled m || s.mst m == Mst.stopping || decide (5 ≤ s.mst m) then some St.refusedState
  else none

/-! ### Starting -/

/-- The pulses of a catch (R218): three winding shorts. -/
def State.catchPulses (s : State) (n : Nat) : State :=
  s.emit (.pulses n (s.lv Reg.DRV_OC_OC_LIMIT n / 2) (List.replicate 3 (0, 0, 1000 * max 1 (s.lv Reg.DRV_BRAKE_T_SHORT n))))

/-- The twelve pulses of pass 1 of an angle search (R219): at 0°, 30° and on; the odd ones half along each neighbour. -/
def State.searchPulses (s : State) (n : Nat) : State :=
  s.emit (.pulses n (s.lv Reg.DRV_IPD_IPD_LIMIT n) ((List.range 12).map fun j =>
    (j / 2 + 1, (j + 1) / 2 % 6 + 1, 1000 * max 1 (s.lv Reg.DRV_IPD_T_PULSE n))))

/-- A drive start on behalf of a motion command (R217), in Drive.lean's terms: a drive in OFF or HELD leaves it; a stop at the same edge
leaves it stopping (R221). -/
def State.drvBegin (s : State) (n : Nat) (fwd : Bool) : State :=
  let d := s.drvs n
  let go (st : Nat) : State :=
    let s := if st = Dst.catch_ then s.catchPulses n else if st = Dst.search then s.searchPulses n else s
    (s.wr Reg.DRV_STAT_STATE st n).setDrv n
      { d with fwd := fwd, catches := 0, searches := 0, retryAt := none, findOnly := false, searchS := s.rd Reg.AXIS_SCHED n,
               sumE := 0, ramped := if st = Dst.run then 20000 * s.rdI Reg.DRV_SPEED_SPEED n else 0 }
  let fromOff : State :=
    if s.lon Reg.DRV_CFG_CATCH_EN n then go Dst.catch_
    else if s.on Reg.DRV_STAT_ANGLE_VALID n then go Dst.run else go Dst.search
  if s.fenced (6 + n) then s
  else if s.dst n = Dst.off then fromOff
  else if s.dst n = Dst.held then
    if s.lv Reg.DRV_CFG_STOP_MODE n = 0 then s.wr Reg.DRV_STAT_STATE Dst.run n else fromOff
  else if s.dst n = Dst.stopping ∧ !d.offAfter ∧ d.haltAt ≠ some s.now then
    (s.wr Reg.DRV_STAT_STATE Dst.run n).setDrv n { d with fwd := fwd, ramped := 20000 * s.rdI Reg.DRV_SPEED_SPEED n }
  else s

/-- Axis `m` reads segment `k` of its profile: an uncorrectable word stops the axis with reason 4 (R21, log 22). -/
def State.segRead (s : State) (m k : Nat) : State :=
  let (ok, s) := s.tableRead (motUnit m) (segWord k)
  if ok then s else s.motStopNow m 4

/-- A command reaches axis `m`, which takes it at its next sample (R226, R238). -/
def State.motAsk (s : State) (m : Nat) (src : MotSrc) (c : MotCmd) : State :=
  s.setMot m { s.mots m with reqs := (s.mots m).reqs ++ [(src, c)] }

/-- The refusal of a profile start: R230, and R234 where p lies outside the limits. -/
def State.profileRefusal (s : State) (m : Nat) : Option Nat :=
  match s.motRefusal m with
  | some r => some r
  | none => if s.inLimits m (s.mots m).count then none else some St.refusedState

/-- AX16 + k holds entries of a boarded or cast-off crossing (R235). -/
def State.homeEntries (s : State) (m : Nat) : Bool :=
  decide (16 ≤ m) && s.tide.any fun e => match e.2 with
    | some te => te.axis == m && s.crossings.any fun c => c.crx == te.crx && (c.state == 2 || c.state == 3)
    | none => false

/-- The refusal of a command at its sample (R230, R234, R235). -/
def State.cmdRefusal (s : State) (m : Nat) : MotCmd → Option Nat
  | .profile _ => s.profileRefusal m
  | .move target _ _ =>
    match s.motRefusal m with
    | some r => some r
    | none => if s.inLimits m target then none else some St.overlap
  | .home _ =>
    match s.profileRefusal m with
    | some r => some r
    | none => if s.mst m ≠ Mst.idle ∨ !s.lon Reg.MOT_CFG_REVERSIBLE m ∨ s.homeEntries m then some St.refusedState else none

/-- The target is behind (R231): not ahead of the stopping point; at rest p itself is not behind on a non-reversible axis, and
nothing is behind on a reversible one. -/
def targetBehind (p : Nat) (v : Int) (a target : Nat) (rev : Bool) : Bool :=
  let d := signed 56 ((target * 65536 + p56 - addPos p (stopDist v a)) % p56)
  if v = 0 ∧ (rev ∨ d = 0) then false else !decide (0 < d)

/-- Axis `m` begins a command from its p and v of this sample (R230, R236); a running command ends with reason 2. -/
def State.motBegin (s : State) (m : Nat) (j : Option Job) : State :=
  let s := s.motComplete m 2
  let x := s.mots m
  s.setMot m { x with p0 := x.p, v0 := x.v, i := 0, job := j, turning := false, behind := false, arrived := false, home := none,
                      inposBy := none }

/-- A profile starts at segment `first` (R230). -/
def State.profileStart (s : State) (m first : Nat) (j : Option Job) : State :=
  let s := ((s.motBegin m j).wr Reg.MOT_STAT_STATE Mst.profile m).wr Reg.MOT_STAT_SEG first m
  (if m < 16 then s.drvBegin m true else s).segRead m first

/-- A move starts (R230, R231). -/
def State.moveStart (s : State) (m target vmax accel : Nat) (j : Option Job) : State :=
  let s := s.motBegin m j
  let x := s.mots m
  let behind := targetBehind x.p x.v accel target (s.lon Reg.MOT_CFG_REVERSIBLE m)
  let s := (s.setMot m { x with target := target, vmax := vmax, accel := accel, turning := behind,
                                behind := behind && !s.lon Reg.MOT_CFG_REVERSIBLE m }).wr Reg.MOT_STAT_STATE Mst.move m
  if m < 16 then s.drvBegin m (!posAhead x.count target) else s

/-- Homing starts (R235): where the switch already reads as reached it starts with the approach, and p1 is where it stands. -/
def State.homeStart (s : State) (m : Nat) (h : Home) (j : Option Job) : State :=
  let reached := h.level != h.sense
  let s := s.motBegin m j
  let s := s.setMot m { s.mots m with home := some { h with p1 := if reached then some (s.rd Reg.AXIS_SCHED m) else none } }
  let s := s.wr Reg.MOT_STAT_STATE (if reached then Mst.homeApproach else Mst.homeSeek) m
  if m < 16 then s.drvBegin m (h.dir == reached) else s

/-! ### Descriptors -/

/-- MOTION_RUN (R230). -/
def motionRunEff (n : Nat) (s : State) : State :=
  s.withDesc n 0x60 fun j s =>
    if dCrx j.d ≠ 0 ∨ !(dget j.d 16 5 3 == 0 && dZero j.d 17 18 && dget j.d 18 12 4 == 0 && dZero j.d 20 64) then
      s.complete j St.badDesc
    else s.motAsk (dget j.d 16 0 5) (.desc j) (.profile (dget j.d 18 0 12))

def execMotionRun (n : Nat) (s : State) : Host.Outcome State Fault Refusal := .next (motionRunEff n s)

/-- The largest speed of an axis: v is a signed 32-bit number (R226). -/
def vTop : Nat := 2 ^ 31 - 1

/-- MOTION_MOVE (R230, R231); a REL target counts from p at acceptance. -/
def motionMoveEff (n : Nat) (s : State) : State :=
  s.withDesc n 0x61 fun j s =>
    let m := dget j.d 16 0 5
    let t := dget j.d 24 0 40
    let target := if dget j.d 16 5 1 = 1 then ((s.mots m).count + t) % pos40 else t
    let vmax := dget j.d 32 0 32
    let a := dget j.d 36 0 32
    if dCrx j.d ≠ 0 ∨ vmax = 0 ∨ a = 0 ∨
        !(dget j.d 16 6 2 == 0 && dZero j.d 17 24 && dget j.d 24 40 24 == 0 && dZero j.d 40 64) then s.complete j St.badDesc
    else s.motAsk m (.desc j) (.move target (min vmax vTop) a)

def execMotionMove (n : Nat) (s : State) : Host.Outcome State Fault Refusal := .next (motionMoveEff n s)

/-- MOTION_STOP (R232): it completes when every named axis is IDLE or its channel OFF. -/
def motionStopEff (n : Nat) (s : State) : State :=
  s.withDesc n 0x62 fun j s =>
    let mask := dget j.d 16 0 32
    if dCrx j.d ≠ 0 ∨ !dZero j.d 20 64 then s.complete j St.badDesc
    else
      let s := (bitsOf mask 32).foldl (fun s m => s.motStop m 3) s
      if (bitsOf mask 32).all s.motQuiet then s.complete j St.ok
      else { s with stopWaits := s.stopWaits ++ [⟨j, mask, s.now + 10000000000⟩] }

def execMotionStop (n : Nat) (s : State) : Host.Outcome State Fault Refusal := .next (motionStopEff n s)

/-- Ten seconds pass (R232): the first MOTION_STOP of ring `n` whose bound is over completes with TIMEOUT. -/
def motionStopTimeoutEff (n : Nat) (s : State) : State :=
  match s.stopWaits.find? fun w => w.job.ring == n && decide (w.deadline ≤ s.now) with
  | none => s
  | some w => ({ s with stopWaits := s.stopWaits.filter fun y => y.job != w.job }).complete w.job St.timeout

def execMotionStopTimeout (n : Nat) (s : State) : Host.Outcome State Fault Refusal := .next (motionStopTimeoutEff n s)

/-- MOTION_HOME (R235); `level`: the filtered level of INPUT. -/
def motionHomeEff (n : Nat) (level : Bool) (s : State) : State :=
  s.withDesc n 0x63 fun j s =>
    let ms := dget j.d 44 0 32
    let h : Home :=
      { dir := dget j.d 16 5 1 == 1, sense := dget j.d 16 6 1 == 1, input := dget j.d 17 0 7, level := level,
        vFast := min vTop (dget j.d 20 0 32), vSlow := min vTop (dget j.d 24 0 32), chatter := dget j.d 28 0 32,
        homePos := dget j.d 32 0 40, maxTravel := dget j.d 40 0 32, deadline := s.now + 1000000 * (if ms = 0 then 10000 else ms),
        p1 := none, p2 := none, travel := 0, total := 0, ending := false }
    if dCrx j.d ≠ 0 ∨ h.vFast = 0 ∨ h.vSlow = 0 ∨
        !(dget j.d 16 7 1 == 0 && dget j.d 17 7 1 == 0 && dZero j.d 18 20 && dget j.d 32 40 24 == 0 && dZero j.d 48 64) then
      s.complete j St.badDesc
    else s.motAsk (dget j.d 16 0 5) (.desc j) (.home h)

def execMotionHome (n : Nat) (level : Bool) (s : State) : Host.Outcome State Fault Refusal := .next (motionHomeEff n level s)

/-- End homing with TIMEOUT (R235): the axis stops. -/
def State.homeFail (s : State) (m : Nat) : State :=
  let x := s.mots m
  match x.job with
  | none => s.motStop m 3
  | some j => ((s.setMot m { x with job := none }).motStop m 3).complete j St.timeout (2 ^ 8 * x.count)

/-- MAX_TRAVEL or TIMEOUT_MS is exceeded (R235). -/
def homeTimeoutEff (m : Nat) (s : State) : State :=
  match (s.mots m).home with
  | none => s
  | some h =>
    if 5 ≤ s.mst m ∧ (h.deadline ≤ s.now ∨ (h.maxTravel ≠ 0 ∧ h.maxTravel * 65536 < h.total)) then s.homeFail m else s

def execHomeTimeout (m : Nat) (s : State) : Host.Outcome State Fault Refusal := .next (homeTimeoutEff m s)

/-- INPOS_MS after the profile's arrival (R230): TIMEOUT, and the axis stays IDLE. -/
def inposTimeoutEff (m : Nat) (s : State) : State :=
  let x := s.mots m
  match x.inposBy, x.job with
  | some t, some j =>
    if s.now < t then s
    else (((s.setMot m { x with job := none }).complete j St.timeout (2 ^ 8 * x.count)).motIdle m 0)
  | _, _ => s

def execInposTimeout (m : Nat) (s : State) : Host.Outcome State Fault Refusal := .next (inposTimeoutEff m s)

/-! ### The parts of a sample -/

/-- v as the axis holds it: a signed 32-bit number (R226). -/
def vSat (v : Int) : Int := max (-(vTop : Int) - 1) (min vTop v)

/-- p and v of axis `m` at this sample (R226, R231): on a non-reversible axis a negative v is clamped and counted, and p never goes back;
homing adds up the travel. -/
def State.motSet (s : State) (m p : Nat) (v : Int) : State :=
  let x := s.mots m
  let δ := signed 56 ((p + p56 - x.p) % p56)
  if !s.lon Reg.MOT_CFG_REVERSIBLE m then
    (if v < 0 then s.cnt Reg.MOT_CNT_NEG_CLAMP m else s).setMot m { x with p := if v < 0 ∨ δ < 0 then x.p else p, v := vSat (max 0 v) }
  else
    let h := x.home.map fun h => { h with travel := if h.p1.isSome then h.travel + δ.natAbs else 0, total := h.total + δ.natAbs }
    s.setMot m { x with p := p, v := vSat v, home := h }

/-- p and v of axis `m` at sample `x.i` of what it runs (R228–R235). -/
def State.motCompute (s : State) (m : Nat) : State :=
  let x := s.mots m
  let slow : Int → Int × Int := fun vt => towards x.v0 vt (s.lv Reg.MOT_STOP_DECEL_STOP_DECEL m) x.i
  let put : Int × Int → State := fun dv => s.motSet m (addPos x.p0 dv.1) dv.2
  match s.mst m with
  | 1 =>
    let g := tget Seg.init s.segs (s.rd Reg.MOT_STAT_SEG m)
    let δ : Int := signed 56 ((g.endPos * 65536 + (if g.rel then 0 else p56 - x.p0)) % p56)
    if g.dur = 0 then s else put (hermite δ x.v0 (signed 32 g.endVel) g.dur x.i)
  | 2 =>
    if x.turning then put (towards x.v0 0 x.accel x.i)
    else if x.arrived then s
    else
      let δ := signed 56 ((x.target * 65536 + p56 - x.p0) % p56)
      let sg : Int := if x.v0 = 0 ∧ δ < 0 then -1 else 1
      let (d, v, arrived) := trapezoid (sg * δ) x.v0 x.vmax x.accel x.i
      let s := put (sg * d, sg * v)
      if arrived then s.setMot m { s.mots m with arrived := true } else s
  | 3 => put (Config.rnd (256 * x.v0 * x.i) rate, x.v0)
  | 4 => put (slow 0)
  | 5 => put (slow (match x.home with
    | none => 0
    | some h => if h.dir then -h.vFast else h.vFast))
  | 6 => put (slow 0)
  | 7 => put (slow (match x.home with
    | none => 0
    | some h => if h.ending then 0 else if h.dir then h.vSlow else -h.vSlow))
  | _ => s

/-- A drive axis follows its rotor (R226, R233): p is S of AXm; v is 0, or the encoder speed while STOPPING. What has not begun begins
from there. -/
def State.motFollow (s : State) (m : Nat) : State :=
  let x := s.mots m
  let v : Int := if s.mst m = Mst.stopping then s.rdI Reg.ENC_SPEED_SPEED (s.lv Reg.DRV_CFG_ENC_PORT m) else 0
  let p := s.rd Reg.AXIS_SCHED m * 65536
  s.setMot m { x with p := p, v := v, p0 := if x.i = 0 then p else x.p0, v0 := if x.i = 0 then 0 else x.v0 }

/-- Axis `m` comes to this sample (R226): a drive that is not in RUN, or stops, is followed, and the time of its segment does not advance
up to the sample at which it enters RUN; otherwise the next sample of what it runs. -/
def State.motAdvance (s : State) (m : Nat) : State :=
  let x := s.mots m
  if m < 16 ∧ (s.dst m ≠ Dst.run ∨ s.mst m = Mst.stopping) then (s.setMot m { x with held := true }).motFollow m
  else if x.held then (s.setMot m { x with held := false }).motFollow m
  else if s.mst m = Mst.idle then s
  else (s.setMot m { x with i := x.i + 1 }).motCompute m

/-- A limit of axis `m` is reached (R234): the stopping point leaves the allowed interval. -/
def State.limitHit (s : State) (m : Nat) : Bool :=
  let x := s.mots m
  let running := (s.mst m == Mst.profile || s.mst m == Mst.move || s.mst m == Mst.cruise) && x.v != 0
  running && s.inLimits m x.count && !s.inLimits m (addPos x.p (stopDist x.v (s.stopDecel m)) / 65536)

/-- Axis `m` stops at this sample where it reaches a limit (R234). -/
def State.motLimit (s : State) (m : Nat) : State :=
  if s.limitHit m then ((s.cnt Reg.MOT_CNT_LIMIT_STOPS m).motStopNow m 5).raise Src.motLimit (motUnit m) else s

/-- What axis `m` runs goes on from its p and v of this sample. -/
def State.motFrom (s : State) (m : Nat) : State :=
  let x := s.mots m
  s.setMot m { x with p0 := x.p, v0 := x.v, i := 0 }

/-- Segment `k` of the profile of axis `m` starts (R228). -/
def State.segBegin (s : State) (m k : Nat) : State := ((s.wr Reg.MOT_STAT_SEG k m).motFrom m).segRead m k

/-- The present segment of axis `m`. -/
def State.seg (s : State) (m : Nat) : Seg := tget Seg.init s.segs (s.rd Reg.MOT_STAT_SEG m)

/-- The profile of axis `m` ends in CRUISE at its present v (R228). -/
def State.cruise (s : State) (m : Nat) : State := ((s.wr Reg.MOT_STAT_STATE Mst.cruise m).motFrom m).motComplete m 1

/-- Zero-duration segments are passed, and the profile of axis `m` ends with LOOP at the last of `k` (R228). -/
def State.segZero (m : Nat) : Nat → State → State
  | 0, s => s.motStopNow m 6
  | k + 1, s =>
    let g := s.seg m
    if g.dur ≠ 0 ∨ s.mst m ≠ Mst.profile then s
    else if g.last then (if (s.mots m).v = 0 then s.motIdle m 0 else s.cruise m)
    else State.segZero m k (s.segBegin m g.next)

/-- The boundaries of a profile at this sample (R228): the end of a segment, then zero-duration ones, 16 at most. -/
def State.segEnd (s : State) (m : Nat) : State :=
  let g := s.seg m
  if g.dur = 0 then State.segZero m 16 s
  else if (s.mots m).i < g.dur then s
  else if !g.last then State.segZero m 16 (s.segBegin m g.next)
  else if g.endVel = 0 then s.motIdle m 0
  else (s.setMot m { s.mots m with v := signed 32 g.endVel }).cruise m

/-- |S − TARGET| ≤ INPOS, which only drive axes are held to (R230). -/
def State.within (s : State) (m : Nat) : Bool :=
  decide (16 ≤ m) || decide ((posDiff (s.rd Reg.AXIS_SCHED m) (s.mots m).target).natAbs ≤ s.lv Reg.MOT_INPOS_INPOS m)

/-- A move at this sample (R230, R231): turned round, ended at rest with TARGET_BEHIND, arrived, or in position. -/
def State.moveEnd (s : State) (m : Nat) : State :=
  let x := s.mots m
  if x.turning then
    (if x.v ≠ 0 then s
     else if !x.behind then s.setMot m { x with p0 := x.p, v0 := 0, i := 0, turning := false }
     else match x.job with
      | none => s.motIdle m 0
      | some j => ((s.setMot m { x with job := none }).complete j St.targetBehind (2 ^ 8 * x.count)).motIdle m 0)
  else if !x.arrived then s
  else if s.within m then s.motIdle m 0
  else s.setMot m { x with inposBy := some (x.inposBy.getD (s.now + 1000000 * max 1 (s.lv Reg.MOT_INPOS_INPOS_MS m))) }

/-- Homing at this sample (R235): the seek turns at p1, the turn ends at rest, the approach decelerates after p2 and ends at rest. -/
def State.homeNext (s : State) (m : Nat) : State :=
  let x := s.mots m
  match x.home with
  | none => s
  | some h =>
    if s.mst m = Mst.homeSeek then (if h.p1.isSome then (s.wr Reg.MOT_STAT_STATE Mst.homeTurn m).motFrom m else s)
    else if s.mst m = Mst.homeTurn then (if x.v = 0 then (s.wr Reg.MOT_STAT_STATE Mst.homeApproach m).motFrom m else s)
    else match h.p2 with
      | none => s
      | some p2 =>
        if !h.ending then (s.setMot m { x with home := some { h with ending := true } }).motFrom m
        else if x.v ≠ 0 then s
        else match x.job with
          | none => s.motIdle m 0
          | some j => ((s.setMot m { x with job := none }).complete j St.ok p2).motIdle m 0

/-- The boundaries of axis `m` at this sample (R236, R238). -/
def State.motBounds (s : State) (m : Nat) : State :=
  match s.mst m with
  | 1 => s.segEnd m
  | 2 => s.moveEnd m
  | 4 =>
    let rest := if m < 16 then s.dst m == Dst.held || s.dst m == Dst.off || s.dst m == Dst.tripped else (s.mots m).v == 0
    if rest then s.motIdle m (s.mots m).reason else s
  | 5 => s.homeNext m
  | 6 => s.homeNext m
  | 7 => s.homeNext m
  | _ => s

/-- The registers of axis `m` show its sample; IN_POS: a move has arrived and is in position (R230). -/
def State.motShow (s : State) (m : Nat) : State :=
  let x := s.mots m
  let s := ((s.wr Reg.MOT_POS x.count m).wr Reg.MOT_POS_HI_FRAC (x.p % 65536) m).wrI Reg.MOT_VEL_VEL x.v m
  (s.wb Reg.MOT_STAT_OUTSIDE (!s.inLimits m x.count) m).wb Reg.MOT_STAT_IN_POS (x.arrived && s.within m) m

/-- The entries of the reset sine and of a table set (R240, R241). -/
def sineEntry (i : Nat) : Nat := Reg.sine (i % 1024)
def State.ustepEntry (s : State) (t i : Nat) : Nat := (tget none s.ustep (t * 1024 + i % 1024)).getD (sineEntry i)

/-- The coils of channel `k` take their entries at address `a` of set `t` (R240); an uncorrectable word is not used (R21, log 22). -/
def State.coilRefs (s : State) (k t a : Nat) : State :=
  let (okA, s) := s.tableRead (22 + k) (ustepWord (1024 * t + a % 1024))
  let s := if okA then s.wr Reg.STP_REF_REF_A (s.ustepEntry t a) k else s
  let (okB, s) := s.tableRead (22 + k) (ustepWord (1024 * t + (a + 256) % 1024))
  if okB then s.wr Reg.STP_REF_REF_B (s.ustepEntry t (a + 256)) k else s

/-- q of stepper channel `k` at this sample (R240, R242, R245): its address with the slew limit, the coils' entries, HOLD. -/
def State.stpSample (s : State) (k : Nat) : State :=
  let x := s.stps k
  let q := (s.mots (16 + k)).count
  let dq := posDiff q x.q
  let slew := decide (255 < dq.natAbs)
  let step : Int := if dq < 0 then -255 else 255
  let raw := if slew then ((x.addr + step) % 1024).toNat else (q + s.lv Reg.STP_CFG_USTEP_OFS k) % 1024
  let a := raw / 2 ^ s.lv Reg.STP_CFG_MS_SHIFT k * 2 ^ s.lv Reg.STP_CFG_MS_SHIFT k
  let s := s.setStp k { x with q := q, qAt := if dq = 0 then x.qAt else s.now, addr := raw }
  let s := (s.wr Reg.STP_STAT_ADDR a k).coilRefs k (s.lv Reg.STP_CFG_TABLE k) a
  let s := if dq ≠ 0 ∧ s.rd Reg.STP_STAT_STATE k = 2 then s.wr Reg.STP_STAT_STATE 1 k else s
  if slew ∧ s.rd Reg.STP_STAT_STATE k ≠ 0 then (s.cnt Reg.STP_CNT_SLEW_CLAMP k).raise Src.stpSlew (22 + k) else s

/-! ### Segment loads -/

/-- Little-endian number of a byte list. -/
def leNat : List Byte → Nat
  | [] => 0
  | b :: bs => b.toNat + 256 * leNat bs

/-- A segment of 16 bytes (R227), `none` where R229 refuses it. -/
def segOf (v : Nat) : Option Seg :=
  let g := segRaw v
  if field v 110 18 ≠ 0 ∨ (g.dur = 0 ∧ (g.endPos ≠ 0 ∨ g.endVel ≠ 0)) then none else some g

/-- Cut a byte list into entries of `w` bytes. -/
def entries (w : Nat) : Nat → List Byte → List Nat
  | 0, _ => []
  | n + 1, bs => leNat (bs.take w) :: entries w n (bs.drop w)

/-- The first entry that `f` refuses. -/
def firstBad {α : Type} (f : Nat → Option α) : Nat → List Nat → Option Nat
  | _, [] => none
  | i, v :: vs => if (f v).isNone then some i else firstBad f (i + 1) vs

/-- A segment index is pinned (R229): the present segment of a running profile, or the one its NEXT names. -/
def State.segPinned (s : State) (i : Nat) : Bool :=
  (List.range 32).any fun m => s.mst m == Mst.profile &&
    (s.rd Reg.MOT_STAT_SEG m == i || (let g := tget Seg.init s.segs (s.rd Reg.MOT_STAT_SEG m); !g.last && g.next == i))

/-- MOTION_SEG_LOAD (R229), with what its source read returned. -/
def motionSegLoadEff (n : Nat) (data : ReadRes) (s0 : State) : State :=
  s0.withDesc n 0x4A fun j s =>
    let first := dget j.d 16 0 12
    let cnt := dget j.d 18 0 11
    if dCrx j.d ≠ 0 ∨ 4096 < first + cnt ∨ 1024 < cnt ∨ dget j.d 24 0 4 ≠ 0 ∨
        !(dget j.d 16 12 4 == 0 && dget j.d 18 11 5 == 0 && dZero j.d 20 24 && dZero j.d 32 64) then s.complete j St.badDesc
    else if cnt = 0 then s.complete j St.ok
    else s.loadRead s0 12 j (dget j.d 24 0 64) (16 * cnt) data fun bs s =>
      let es := entries 16 cnt bs
      match firstBad segOf first es with
      | some i => s.loadDone 12 (some 0) j St.badDesc i
      | none =>
        if (List.range cnt).any fun k => s.segPinned (first + k) then s.loadDone 12 (some 0) j St.refusedState
        else
          let s := s.tableWrite segWord 2 first cnt fun w s =>
            { s with segs := tputs Seg.init s.segs (2 * (w - 120)) [Seg.init, Seg.init] }
          ({ s with segs := tputs Seg.init s.segs first (es.map fun v => (segOf v).getD Seg.init) }).loadDone 12 (some (16 * cnt)) j St.ok

def execMotionSegLoad (n : Nat) (data : ReadRes) (s : State) : Host.Outcome State Fault Refusal := .next (motionSegLoadEff n data s)

end Sys2Proof.Machine
end

