-- ==== Sys2Proof/Machine/Lighter.lean ====
section
/-! DEFINITION. The general lighters LT14–LT31 (R346–R351): acceptance, blocks of up to Max Read Request Size and 4,096 B (log 30), the CRC, acknowledgement,
and the drain. -/

namespace Sys2Proof.Machine

def State.xfers (s : State) (l : Nat) : List Xfer := tget [] s.xfer l
def State.setXfers (s : State) (l : Nat) (q : List Xfer) : State := { s with xfer := tput [] s.xfer l q }

/-- QUEUED of lighter `l`: accepted transfers that wait behind the running one. -/
def State.queuedShow (s : State) (l : Nat) : State :=
  s.wr Reg.LT_STAT_QUEUED (min 255 ((s.xfers l).length - s.rd Reg.LT_STAT_BUSY l)) l

/-- The running transfer of lighter `l`, and its replacement. -/
def State.xfer? (s : State) (l : Nat) : Option Xfer := if s.on Reg.LT_STAT_BUSY l then (s.xfers l).head? else none
def State.putXfer (s : State) (l : Nat) (x : Xfer) : State := s.setXfers l (x :: (s.xfers l).tail)

/-- `n` bytes at `a` lie inside the store that a space names (R346); host memory has no end. -/
def spaceFits (sp a n : Nat) : Bool := if sp = 1 then decide (a + n ≤ 50331648) else if sp = 2 then decide (a + n ≤ 524288) else true

/-- An address or a length is aligned for a space (R346). -/
def spaceAligned (sp v : Nat) : Bool := if sp = 1 then v % 32 == 0 else if sp = 2 then v % 8 == 0 else true

/-- The transfer of a LIGHTER_COPY descriptor (R346, R350). -/
def xferOf (j : Job) : Xfer :=
  let ss := dget j.d 17 0 2
  let ds := dget j.d 17 2 2
  let src := dget j.d 24 0 64
  let dst := dget j.d 32 0 64
  let len := dget j.d 40 0 23
  { job := j, srcSp := ss, dstSp := ds, src := src, dst := dst, len := len, append := dget j.d 16 5 1 == 1, irq := dget j.d 16 6 1 == 1,
    desc := ss == ds && decide (src < dst) && decide (dst < src + len), done := 0, crc := dget j.d 44 0 32, got := [], reading := none,
    appended := false, flush := false, fail := none, issuedAt := 0, drainAt := none, blk := 4096 }

/-- A transfer reads or writes host memory for function `p`; the Hold. -/
def Xfer.hostOf (p : Nat) (x : Xfer) : Bool := x.job.pf == p && (x.srcSp == 0 || x.dstSp == 0)
def Xfer.onHold (x : Xfer) : Bool := x.srcSp == 1 || x.dstSp == 1
/-- The Hold is gated, or was asked to be: from step 2 of Moored entry to the exit (R311, R351). -/
def State.holdGated (s : State) : Bool := s.gated

/-- Bytes that a transfer writes from DST on. -/
def Xfer.span (x : Xfer) : Nat := x.len + (if x.append then 4 else 0)

/-- The BAD_DESC checks of R346 (log 31). -/
def xferOk (d : Desc) (x : Xfer) : Bool :=
  decide (14 ≤ dget d 16 0 5) && decide (x.srcSp < 3) && decide (x.dstSp < 2) && dget d 16 7 1 == 0 && dget d 17 4 4 == 0 &&
    dZero d 18 24 && dget d 40 23 9 == 0 && dZero d 48 64 && dCrx d == 0 &&
    spaceAligned x.srcSp x.src && spaceAligned x.dstSp x.dst && spaceAligned x.srcSp x.len && spaceAligned x.dstSp x.len &&
    spaceFits x.srcSp x.src x.len && spaceFits x.dstSp x.dst x.span &&
    !(x.append && x.srcSp == x.dstSp && x.len != 0 && decide (x.src < x.dst + x.len + 4) && decide (x.dst + x.len < x.src + x.len))

/-- The destination overlaps the share of a station that a live crossing names (R346). -/
def State.shareHit (s : State) (x : Xfer) : Bool :=
  x.dstSp == 1 && x.span != 0 && (List.range 6).any fun n =>
    let a := s.lv Reg.STN_HOLD_CFG_HOLD_BASE n * 65536
    s.liveCrx.any (fun c => bitOf c.stations n) && decide (a < x.dst + x.span) && decide (x.dst < a + s.lv Reg.STN_HOLD_CFG_HOLD_SIZE n * 65536)

/-! ### Moving bytes -/

/-- The low `n` bytes of a word. -/
def bytesOf : Nat → Nat → List Byte
  | 0, _ => []
  | n + 1, v => BitVec.ofNat 8 v :: bytesOf n (v / 256)

/-- The next block: its offset and length (R346, R350). -/
def Xfer.block (x : Xfer) : Nat × Nat :=
  let n := min (max 1 x.blk) (x.len - x.done)
  (if x.desc then x.len - x.done - n else x.done, n)

/-- Data moves: a copy onto itself only reads (R350). -/
def Xfer.moves (x : Xfer) : Bool := !(x.srcSp == x.dstSp && x.src == x.dst)
/-- Something has been written. -/
def Xfer.wrote (x : Xfer) : Bool := x.appended || (x.moves && x.done != 0)

/-- Read `k` Hold words from `w` by R20 and R21: `none` at an uncorrectable one. -/
def holdRead : Nat → Nat → State → Option (List Nat) × State
  | 0, _, s => (some [], s)
  | k + 1, w, s =>
    let (r, s) := s.eccRead 0 w
    if r = 2 then (none, s)
    else
      let (vs, s) := holdRead k (w + 1) s
      (vs.map (tget 0 s.hold w :: ·), s)

/-- Write Hold words from `w` on. -/
def State.holdWrite (s : State) : Nat → List Nat → State
  | _, [] => s
  | w, v :: vs =>
    let s := s.eccWrite 0 w
    ({ s with hold := tput 0 s.hold w v }).holdWrite (w + 1) vs

/-- The bytes of an on-chip source from offset `o` (R346). -/
def State.xferSource (s : State) (x : Xfer) (o n : Nat) : Option (List Byte) × State :=
  if x.srcSp = 1 then
    let (ws, s) := holdRead (n / 32) ((x.src + o) / 32) s
    (ws.map fun l => l.flatMap (bytesOf 32), s)
  else (some ((tgets 0 s.logbook ((x.src + o) / 8) (n / 8)).flatMap (bytesOf 8)), s)

/-- Bytes are written at offset `o` of the destination. -/
def State.xferDest (s : State) (x : Xfer) (o : Nat) (bs : List Byte) : State :=
  if x.dstSp = 1 then s.holdWrite ((x.dst + o) / 32) (Machine.entries 32 (bs.length / 32) bs) else s.emit (.hostWrite (x.dst + o) bs)

/-- A block of the source at offset `o` has been read: the CRC advances in ascending order (R347, R350), the destination is written. -/
def State.xferBlock (s : State) (l : Nat) (x : Xfer) (o : Nat) (bs : List Byte) : State :=
  let s := if x.moves then (s.xferDest x o bs).cnt Reg.LT_BYTES l 0 bs.length else s
  let x := { x with done := x.done + bs.length, reading := none }
  if x.desc then s.putXfer l { x with got := bs :: x.got } else s.putXfer l { x with crc := crc32cRun x.crc bs }

/-- The CRC is written after the destination (R347). -/
def State.xferAppend (s : State) (l : Nat) (x : Xfer) : State :=
  let bs := bytesOf 4 x.crc
  if x.dstSp = 1 then
    let w := (x.dst + x.len) / 32
    let (bad, _, s) := s.eccPart 0 w
    let old := if bad then 0 else tget 0 s.hold w
    ({ s with hold := tput 0 s.hold w (old / 2 ^ 32 * 2 ^ 32 + x.crc) }).putXfer l { x with appended := true }
  else (s.emit (.hostWrite (x.dst + x.len) bs)).putXfer l { x with appended := true }

/-- The address of the last byte written (R348). -/
def Xfer.lastByte (x : Xfer) : Nat :=
  if x.appended then x.dst + x.len + 3
  else if x.desc then x.dst + (x.len - x.done) + (if x.done % max 1 x.blk = 0 then max 1 x.blk else x.done % max 1 x.blk) - 1
  else x.dst + x.done - 1

/-- A transfer may issue requests to host memory (R391). -/
def State.busOk (s : State) (x : Xfer) : Bool := (s.pf x.job.pf).bme

/-! ### Completion -/

/-- The running transfer of lighter `l` completes (R346, R348, R349). The CRC of a descending copy that failed is not stated (log 32). -/
def State.xferEnd (s : State) (l : Nat) (x : Xfer) : State :=
  let status := x.fail.getD St.ok
  let (v, s) := if x.desc && x.fail.isSome then s.takeFree (2 ^ 32) else (x.crc, s)
  let s := (s.wr Reg.LT_RCRC_CRC v l).setXfers l (s.xfers l).tail
  let s := (((s.wr Reg.LT_STAT_BUSY 0 l).wr Reg.LT_STAT_DESCENDING 0 l)).queuedShow l
  let s := if status = St.domainDown then s.cnt Reg.LT_ERR_ABORTS l else s
  let s := s.complete x.job status (v + 2 ^ 32 * (if x.moves then x.done else 0) + (if x.desc then 2 ^ 55 else 0))
  if x.irq then (if x.job.pf = 1 then s.signalAfter x.job.eq 1 0 else s.signalAfter x.job.eq 0 l) else s

/-- Drive the running transfer of lighter `l` until it waits for the host, for Bus Master Enable, or for acknowledgement, or ends. -/
def State.xferRun (l : Nat) : Nat → State → State
  | 0, s => s
  | k + 1, s =>
    match s.xfer? l with
    | none => s
    | some x =>
      if x.reading.isSome || x.flush then s
      else if x.fail = some St.domainDown then s.xferEnd l x
      else if x.fail.isNone ∧ x.done < x.len then
        let (o, n) := x.block
        if x.srcSp = 0 then
          if s.busOk x ∧ s.readsOut < s.tagLimit x.job.pf then
            (s.emit (.hostRead (x.src + o) n)).putXfer l { x with reading := some n, issuedAt := s.now }
          else s
        else if x.dstSp = 0 ∧ x.moves ∧ !s.busOk x then s
        else
          let (bs, s) := s.xferSource x o n
          match bs with
          | none => State.xferRun l k (s.putXfer l { x with fail := some St.ecc })
          | some bs =>
            let blk := if x.srcSp = 1 then 0x8000 else 0
            let (inj, s) := s.fabricTake
            if inj = 2 then State.xferRun l k ((s.eccUe 3 blk).putXfer l { x with fail := some St.ecc })
            else State.xferRun l k ((if inj = 1 then s.eccCe 3 blk else s).xferBlock l { x with issuedAt := s.now } o bs)
      else
        let x := if x.desc ∧ x.fail.isNone ∧ x.got ≠ [] then { x with crc := crc32cRun x.crc x.got.flatten, got := [] } else x
        if x.fail.isNone ∧ x.append ∧ !x.appended then
          if x.dstSp = 0 ∧ !s.busOk x then s.putXfer l x else State.xferRun l k (s.xferAppend l { x with issuedAt := s.now })
        else if !x.wrote then s.xferEnd l x
        else if x.dstSp = 1 then s.putXfer l { x with flush := true }
        else if s.busOk x ∧ s.readsOut < s.tagLimit x.job.pf then
          (s.emit (.hostRead (x.lastByte / 4 * 4) 4)).putXfer l { x with flush := true, issuedAt := s.now }
        else s.putXfer l x

/-- Enough turns for the longest transfer. -/
def xferFuel : Nat := 2052

/-- Lighter `l` starts the transfer at the front of its queue, where it is free, no function-level reset is pending and the Hold is not gated (R56, R343, R351). -/
def State.xferStart (s : State) (l : Nat) : State :=
  if s.on Reg.LT_STAT_BUSY l then s
  else match s.xfers l with
    | [] => s
    | x :: _ =>
      if (s.pf x.job.pf).flr ∨ (x.onHold ∧ s.holdGated) then s
      else
        let s := (s.wr Reg.LT_STAT_BUSY 1 l).wb Reg.LT_STAT_DESCENDING x.desc l
        State.xferRun l xferFuel ((s.putXfer l { x with issuedAt := s.now, blk := if x.srcSp = 0 then s.maxRead x.job.pf else 4096 }).queuedShow l)

/-- Run lighter `l` on: the running transfer, then those that wait. -/
def State.xferNext (l : Nat) : Nat → State → State
  | 0, s => s
  | k + 1, s =>
    if s.on Reg.LT_STAT_BUSY l ∨ (s.xfers l).isEmpty then s else State.xferNext l k (s.xferStart l)
def State.xferGo (s : State) (l : Nat) : State :=
  let s := State.xferRun l xferFuel s
  State.xferNext l ((s.xfers l).length + 1) s

/-- Bus Master Enable of function `p` is 1 again: its transfers issue requests again (R391). -/
def State.xferResume (s : State) (p : Nat) : State :=
  (List.range 18).foldl (fun s i => if (s.xfer? (14 + i)).any fun x => x.job.pf == p then s.xferGo (14 + i) else s) s

/-! ### The rows -/

/-- LIGHTER_COPY (R346, R350): checked, then queued at its lighter; a copy of nothing completes at acceptance. -/
def lighterCopyEff (n : Nat) (s : State) : State :=
  s.withDesc n 0xA0 fun j s =>
    let x := xferOf j
    let l := dget j.d 16 0 5
    if !xferOk j.d x then s.complete j St.badDesc
    else if s.shareHit x then s.complete j St.refusedState
    else if x.len = 0 ∧ !x.append then
      let s := (s.wr Reg.LT_RCRC_CRC x.crc l).complete j St.ok x.crc
      if x.irq then (if j.pf = 1 then s.signalAfter j.eq 1 0 else s.signalAfter j.eq 0 l) else s
    else
      let s := (s.setXfers l (s.xfers l ++ [x])).queuedShow l
      State.xferNext l ((s.xfers l).length + 1) s

def execLighterCopy (n : Nat) (s : State) : Host.Outcome State Fault Refusal := .next (lighterCopyEff n s)

/-- The last Hold response or the flush read returns (R348). -/
def lighterTransferCompleteEff (l : Nat) (s : State) : State :=
  match s.xfer? l with
  | none => s
  | some x => if x.flush ∧ 14 ≤ l ∧ l < 32 then (s.xferEnd l x).xferGo l else s

def execLighterTransferComplete (lt : Nat) (s : State) : Host.Outcome State Fault Refusal := .next (lighterTransferCompleteEff lt s)

/-- A host read of the running transfer returns (R346); an injection armed for the fabric meets it (R22). A transfer that is being
aborted writes no more (R351). -/
def lighterReadCompleteEff (l : Nat) (bs : List Byte) (s : State) : State :=
  match s.xfer? l with
  | none => s
  | some x =>
    if x.reading ≠ some bs.length ∨ l < 14 ∨ 32 ≤ l then s
    else if x.fail.isSome then (s.putXfer l { x with reading := none }).xferGo l
    else
      let (inj, s) := s.fabricTake
      let s := if inj = 1 then s.eccCe 3 0x1000 else if inj = 2 then s.eccUe 3 0x1000 else s
      if inj = 2 then ((s.cnt Reg.LT_ERR_READ_FAIL l).putXfer l { x with reading := none, fail := some St.ecc }).xferGo l
      else (s.xferBlock l x x.block.1 bs).xferGo l

def execLighterReadComplete (lt : Nat) (data : List Byte) (s : State) : Host.Outcome State Fault Refusal :=
  .next (lighterReadCompleteEff lt data s)

/-- A host read, or the flush read, of the running transfer fails (R346): it stops at that request. -/
def lighterReadFailEff (l : Nat) (how : ReadEnd) (s : State) : State :=
  match s.xfer? l with
  | none => s
  | some x =>
    if l < 14 ∨ 32 ≤ l then s
    else
      let st := match how with
        | .poisoned => St.ecc
        | .timeout => St.timeout
        | .ur => St.timeout
        | .ca => St.timeout
      let x' := { x with fail := some (x.fail.getD st) }
      if x.reading.isSome then ((s.cnt Reg.LT_ERR_READ_FAIL l).putXfer l { x' with reading := none }).xferGo l
      else if x.flush ∧ x.dstSp = 0 then ((s.cnt Reg.LT_ERR_READ_FAIL l).xferEnd l x').xferGo l
      else s

def execLighterReadFail (lt : Nat) (how : ReadEnd) (s : State) : Host.Outcome State Fault Refusal := .next (lighterReadFailEff lt how s)


/-- DRAIN_US ends while the transfer runs (R351), or has passed since its last request with Bus Master Enable 0 (R391): no further
request, then DOMAIN_DOWN once those in flight are back. -/
def drainTimeoutEff (l : Nat) (s : State) : State :=
  match s.xfer? l with
  | none => s
  | some x =>
    let due := (match x.drainAt with | some t => decide (t + s.drainNs ≤ s.now) | none => false) ||
      (!s.busOk x && decide (x.issuedAt + s.drainNs ≤ s.now))
    if !due ∨ l < 14 ∨ 32 ≤ l then s else (s.putXfer l { x with fail := some St.domainDown }).xferGo l

def execDrainTimeout (lt : Nat) (s : State) : Host.Outcome State Fault Refusal := .next (drainTimeoutEff lt s)

/-- Running transfers that `f` names are asked to end within DRAIN_US (R351). -/
def State.drainAsk (s : State) (f : Xfer → Bool) : State :=
  (List.range 18).foldl (fun s i => match s.xfer? (14 + i) with
    | some x => if f x && x.drainAt.isNone then s.putXfer (14 + i) { x with drainAt := some s.now } else s
    | none => s) s
/-- Some running transfer that `f` names is left. -/
def State.draining (s : State) (f : Xfer → Bool) : Bool := (List.range 18).any fun i => (s.xfer? (14 + i)).any f

end Sys2Proof.Machine
end

