-- ==== Sys2Proof/Machine/Drive.lean ====
section
/-! DEFINITION. Drive channels (R206–R224): the torque and flux decision, the 50 µs speed step, starting, catching and searching,
and the bus groups. Speeds are in 1/16 rpm, ramps in 1/20,000 of that, T_ref in 1/5,120,000 µN·m; quotients whose rounding the
manual does not state go through `Config.rnd` (log 10). -/

namespace Sys2Proof.Machine

/-- The speed estimate of the channel's encoder port in 1/16 rpm (R213). -/
def State.drvSpeed (s : State) (n : Nat) : Int :=
  Config.rnd (s.rdI Reg.ENC_SPEED_SPEED (s.lv Reg.DRV_CFG_ENC_PORT n) * 960) (256 * s.lv Reg.DRV_COUNTS_COUNTS_REV n)

/-- The electrical angle of a rotor position, in 2^-16 turn (R216). -/
def State.rotorAngle (s : State) (n : Nat) (pos : Int) : Nat :=
  ((Config.rnd (pos * s.lv Reg.DRV_CFG_POLE_PAIRS n * 65536) (s.lv Reg.DRV_COUNTS_COUNTS_REV n) +
    s.lv Reg.DRV_ANGLE_OFS_ANGLE_OFS n) % 65536).toNat

/-- Electrical angle of the channel, in 2^-16 turn (R216): of S, and once it is exact of S referred to the port's index; a catch or a search
adds the offset it found (log 118). -/
def State.drvAngle (s : State) (n : Nat) : Nat :=
  let pos := s.rd Reg.AXIS_SCHED n
  if s.on Reg.DRV_STAT_ANGLE_EXACT n then
    s.rotorAngle n (posDiff pos (s.rd Reg.ENC_IDX_REF (s.lv Reg.DRV_CFG_ENC_PORT n)))
  else (s.rotorAngle n pos + (s.drvs n).angle) % 65536

/-- A catch or a search finds the electrical angle (R217, R219). -/
def State.setAngle (s : State) (n θ : Nat) : State :=
  (s.wr Reg.DRV_STAT_ANGLE_VALID 1 n).setDrv n
    { s.drvs n with angle := (θ + 65536 - s.rotorAngle n (s.rd Reg.AXIS_SCHED n)) % 65536 }

/-- Go to RUN from `from16` (R217), unless a stop has waited. -/
def State.drvRun (s : State) (n : Nat) (from16 : Int) : State :=
  let d := s.drvs n
  let s := (s.wr Reg.DRV_STAT_STATE Dst.run n).setDrv n { d with ramped := 20000 * from16, sumE := 0, stopPend := false }
  if d.stopPend then s.drvHalt n false else s

/-- Go to SEARCH (R217), unless a stop has waited: then to OFF. -/
def State.drvSearch (s : State) (n : Nat) : State :=
  let d := s.drvs n
  if d.stopPend then s.drvOff n
  else ((s.wr Reg.DRV_STAT_STATE Dst.search n).setDrv n
    { d with searches := 0, retryAt := none, findOnly := false, searchS := s.rd Reg.AXIS_SCHED n }).searchPulses n

/-! ### Measurements (R206) -/

/-- A phase current in mA from its filter's code. -/
def State.drvCurrent (s : State) (n : Nat) (code : Int) : Int := Config.rnd (code * s.lv Reg.DRV_SCALE_I_FS n) 32768

/-- The bus voltage in mV, from the bitstream or the ADC input that VBUS_SEL names (log 119). -/
def State.drvVolts (s : State) (n : Nat) (v : List Bool) (adc : Nat) : Nat :=
  let fs : Int := s.lv Reg.DRV_SCALE_VBUS_FS n
  (if s.lv Reg.DRV_SDSEL_VBUS_SEL n < 48 then Config.rnd (sinc3 (s.osr n) v * fs * 10) 32768 else Config.rnd (adc * fs * 10) 4096).toNat

/-! ### Bus groups (R222, R223) -/

/-- The enabled channels of a bus group. -/
def State.busDrives (s : State) (g : Nat) : List Nat :=
  (List.range 16).filter fun n => s.lv Reg.DRV_CFG_BUS_GRP n == g && s.lon Reg.DRV_CFG_EN n

/-- Every channel of a bus group. -/
def State.busAll (s : State) (g : Nat) : List Nat := (List.range 16).filter fun n => s.lv Reg.DRV_CFG_BUS_GRP n == g

/-- The group's chopper does not conduct as R222 asks of it. -/
def State.chopWrong (s : State) (g : Nat) : Bool :=
  let b := s.buss g
  let on := s.lv Reg.DRV_BUS_LVL2_CHOP_ON g
  s.lon Reg.DRV_BUS_CHOP_CHOP_EN g && (if b.sense then decide (b.mv + 1000 < on) else decide (on < b.mv))

/-- The conditions of R223 are judged anew for group `g`. -/
def State.busJudge (s : State) (g : Nat) : State :=
  let b := s.buss g
  let bad := decide (s.lv Reg.DRV_BUS_LVL_OV_LEVEL g < b.mv) && (b.fault || s.on Reg.DRV_BUS_STAT_SENSE_FAIL g)
  let s := if bad then (s.setBus g { s.buss g with forced := true, forcedEnd := none }).wr Reg.DRV_BUS_STAT_FORCED 1 g
    else if b.forced ∧ b.forcedEnd.isNone then s.setBus g { s.buss g with forcedEnd := some (s.now + 10000000) }
    else s
  let chop := bad || (b.fault && s.lon Reg.DRV_BUS_CHOP_CHOP_EN g)
  let s := if !chop then s.setCause Src.drvChop (6 + g) false
    else if s.hasCause Src.drvChop (6 + g) then s else s.raiseLive Src.drvChop (6 + g)
  let s := if s.lv Reg.DRV_BUS_LVL_OV_TRIP g < b.mv then
      let s := s.setBus g { s.buss g with ovr := true, overEnd := none }
      if b.ovr then s else s.raiseLive Src.drvBusOv (6 + g)
    else if b.ovr then
      if b.mv < s.lv Reg.DRV_BUS_LVL_OV_LEVEL g then
        (if b.overEnd.isNone then s.setBus g { s.buss g with overEnd := some (s.now + 10000000) } else s)
      else s.setBus g { s.buss g with overEnd := none }
    else s
  match b.uvAt with
  | none => s.setCause Src.drvBusUv (6 + g) false
  | some t =>
    if s.now < t + 100000 then s
    else
      let s := (s.busAll g).foldl (fun s n => s.drvTrip n Src.drvBusUv) s
      if s.hasCause Src.drvBusUv (6 + g) then s else s.raiseLive Src.drvBusUv (6 + g)

/-- The group voltage is the highest VBUS of its enabled channels (R222); since when the chopper's check fails and the voltage is too low. -/
def State.busMeasure (s : State) (g : Nat) : State :=
  let mv := (s.busDrives g).foldl (fun m n => max m (s.rd Reg.DRV_VBUS_VBUS n)) 0
  let s := (s.setBus g { s.buss g with mv := mv }).wr Reg.DRV_BUS_STAT_VBUS_MAX (max mv (s.rd Reg.DRV_BUS_STAT_VBUS_MAX g)) g
  let b := s.buss g
  let since (c : Bool) (t : Option Nat) : Option Nat := if c then (if t.isSome then t else some s.now) else none
  let low := decide (s.busDrives g ≠ []) && decide (mv < s.lv Reg.DRV_BUS_LVL2_UV_LEVEL g)
  (s.setBus g { b with chkAt := since (s.chopWrong g) b.chkAt, uvAt := since low b.uvAt }).busJudge g

/-- The chopper's fault or sense input changes (R222, R223). -/
def busGroupChangeEff (g : Nat) (fault sense : Bool) (s : State) : State :=
  if 4 ≤ g then s
  else
    let b := s.buss g
    let s := s.setBus g { b with fault := fault, sense := sense, chkAt := if sense = b.sense then b.chkAt else none }
    (s.wb Reg.DRV_BUS_STAT_CHOP_FAULT fault g).busMeasure g

def execBusGroupChange (g : Nat) (fault sense : Bool) (s : State) : Host.Outcome State Fault Refusal :=
  .next (busGroupChangeEff g fault sense s)

/-- The chopper has failed its sense check for CHOP_CHK µs (R222). -/
def chopSenseFailEff (g : Nat) (s : State) : State :=
  match (s.buss g).chkAt with
  | none => s
  | some t =>
    if 4 ≤ g ∨ !s.chopWrong g ∨ s.now < t + 1000 * max 1 (s.lv Reg.DRV_BUS_CHOP_CHOP_CHK g) then s
    else (s.wr Reg.DRV_BUS_STAT_SENSE_FAIL 1 g).busJudge g

def execChopSenseFail (g : Nat) (s : State) : Host.Outcome State Fault Refusal := .next (chopSenseFailEff g s)

/-- Ten milliseconds after its condition ended a bus reaction ends (R223). -/
def busReactionEndEff (g : Nat) (s : State) : State :=
  let b := s.buss g
  let f := match b.forcedEnd with | some t => b.forced && decide (t ≤ s.now) | none => false
  let o := match b.overEnd with | some t => b.ovr && decide (t ≤ s.now) | none => false
  if 4 ≤ g then s
  else
    let s := if f then (s.setBus g { s.buss g with forced := false, forcedEnd := none }).wr Reg.DRV_BUS_STAT_FORCED 0 g else s
    if o then
      let s := (s.setBus g { s.buss g with ovr := false, overEnd := none }).setCause Src.drvBusOv (6 + g) false
      (s.busAll g).foldl (fun s n =>
        if s.dst n = Dst.run then s.setDrv n { s.drvs n with ramped := 20000 * s.drvSpeed n } else s) s
    else s

def execBusReactionEnd (g : Nat) (s : State) : Host.Outcome State Fault Refusal := .next (busReactionEndEff g s)

/-! ### The decision -/

/-- The sector of a flux vector (R208), `none` for the zero vector, whose angle is not defined. -/
def sector (a b : Int) : Option Nat :=
  let lo := decide (3 * b * b < a * a)
  let eq := decide (3 * b * b = a * a)
  if a = 0 ∧ b = 0 then none
  else if 0 ≤ b then
    if 0 < a then (if lo then some 0 else some 1)
    else if lo || eq then some 3 else some 2
  else if a < 0 then (if lo then some 3 else some 4)
  else if lo || (eq && decide (0 < a)) then some 0 else some 5

/-- Upper switches on in vector `v` (R210). -/
def uppers : Nat → Nat
  | 0 => 0
  | 1 => 1
  | 2 => 2
  | 3 => 1
  | 4 => 2
  | 5 => 1
  | 6 => 2
  | _ => 3

/-- The nearest zero vector (R209). -/
def nearestZero (v : Nat) : Nat := if v = 0 ∨ v = 7 then v else if uppers v = 1 then 0 else 7

/-- Entry `i` of the live switching table (R209). -/
def State.swEntry (s : State) (n i : Nat) : Nat := field (s.lv Reg.DRV_SWTAB_ENTRIES n (i / 8)) (4 * (i % 8)) 4

/-- ψ_ref − or + half the band, compared with |ψ|: 2,000 ψ_ref ± 1,000 FLUX_BAND (R208, R211). -/
def State.psiRef2000 (s : State) (n : Nat) : Int :=
  2000 * (s.lv Reg.DRV_MOTOR2_PSI_PM n : Int) + 2 * s.lv Reg.DRV_MOTOR1_LD n * s.rdI Reg.DRV_FLUX_ID_CMD n

/-- Torque estimate in µN·m (R207). -/
def torque (pp : Nat) (a b iA iB : Int) : Int :=
  rndSqrt3 (3 * pp * a * (iA + 2 * iB)) 2000 - Config.rnd (3 * pp * b * iA) 2000

/-- The comparators of R208: Φ and τ. -/
def fluxCmp (phi : Nat) (mag2 : Nat) (ref band : Int) : Nat :=
  let lo := ref - 1000 * band
  let hi := ref + 1000 * band
  let m : Int := 4000000 * mag2
  if 0 < lo ∧ m < lo * lo then 1 else if hi < 0 ∨ hi * hi < m then 0 else phi
def torqueCmp (tau : Nat) (e band : Int) : Nat :=
  if band < e then 2 else if e < -band then 0
  else if (tau = 2 ∧ e ≤ 0) ∨ (tau = 0 ∧ 0 ≤ e) then 1 else tau

/-- The speed has fallen below BRAKE_THR (R217): STOPPING holds, SHORT goes on as from CATCH below CATCH_MIN. -/
def State.brakeThreshold (s : State) (n : Nat) : State :=
  let d := s.drvs n
  if (s.rdI Reg.DRV_SPEED_SPEED n).natAbs < 16 * s.lv Reg.DRV_BRAKE_BRAKE_THR n then
    if s.dst n = Dst.stopping then
      let s := if s.mst n = Mst.stopping then s.motIdle n (s.mots n).reason else s
      if d.offAfter then s.drvOff n else (s.wr Reg.DRV_STAT_STATE Dst.held n).checkStops
    else if s.dst n = Dst.short then
      if d.stopPend then s.drvOff n
      else if s.on Reg.DRV_STAT_ANGLE_VALID n then s.drvRun n 0 else s.drvSearch n
    else s
  else s

/-- Upper switches of legs A, B, C that vector `v` sets (R210). -/
def legs : Nat → List Bool
  | 0 => [false, false, false]
  | 1 => [true, false, false]
  | 2 => [true, true, false]
  | 3 => [false, true, false]
  | 4 => [false, true, true]
  | 5 => [false, false, true]
  | 6 => [true, false, true]
  | _ => [true, true, true]

/-- The time in ns for which leg `l` was high in the past decision period: where it changed, the dead time is lost to the current `i` that then flows
through its diodes (R207, R210, log 120). -/
def legTime (prev vec dt l : Nat) (i : Int) : Int :=
  let was := (legs prev).getD l false
  let up := (legs vec).getD l false
  if up then (if !was && decide (0 < i) then 6250 - (dt : Int) else 6250) else (if was && decide (i < 0) then (dt : Int) else 0)

/-- The voltage model of R207 in 2^-16 µWb: currents in mA, bus voltage in mV. -/
def State.fluxVolt (s : State) (n : Nat) (iA iB : Int) (mv : Nat) : Int × Int :=
  let d := s.drvs n
  let on (l : Nat) (i : Int) : Int := legTime d.prev d.vec (2 * s.lv Reg.DRV_DT_DT n) l i
  let tA := on 0 iA
  let tB := on 1 iB
  let tC := on 2 (-(iA + iB))
  let rs : Int := s.lv Reg.DRV_MOTOR1_RS n
  (65536 * d.psiA + Config.rnd (65536 * (100 * mv * (2 * tA - tB - tC) - 1875 * rs * iA)) 300000000,
   65536 * d.psiB + rndSqrt3 (65536 * (100 * mv * (tB - tC) - 625 * rs * (iA + 2 * iB))) 100000000)

/-- The current model of R207 in 2^-16 µWb at the channel's electrical angle. -/
def State.fluxCurr (s : State) (n : Nat) (iA iB : Int) : Int × Int :=
  let θ := s.drvAngle n
  let a : Int := 65536 * iA
  let b := rndSqrt3 (65536 * (iA + 2 * iB)) 1
  let d := Config.rnd (s.lv Reg.DRV_MOTOR1_LD n * (a * cos16 θ + b * sin16 θ)) (1000 * 2 ^ 48) + 65536 * s.lv Reg.DRV_MOTOR2_PSI_PM n
  let q := Config.rnd (s.lv Reg.DRV_MOTOR2_LQ n * (b * cos16 θ - a * sin16 θ)) (1000 * 2 ^ 48)
  (Config.rnd (d * cos16 θ - q * sin16 θ) (2 ^ 48), Config.rnd (d * sin16 θ + q * cos16 θ) (2 ^ 48))

/-- The next flux estimate in µWb (R207): the current model below 2 % of SPD_MAX, the voltage model above 4 % or without a valid angle, between
them a blend by speed. -/
def State.fluxNext (s : State) (n : Nat) (iA iB : Int) (mv : Nat) (w : Int) : Int × Int :=
  let v := s.fluxVolt n iA iB mv
  let c := s.fluxCurr n iA iB
  let m : Int := (s.lvI Reg.DRV_SPD_MAX_SPD_MAX n).natAbs
  let k : Int := if !s.on Reg.DRV_STAT_ANGLE_VALID n || m == 0 then 1 else max 0 (min m (50 * w.natAbs - m))
  let m : Int := if !s.on Reg.DRV_STAT_ANGLE_VALID n || m == 0 then 1 else m
  (Config.rnd (c.1 * (m - k) + v.1 * k) (65536 * m), Config.rnd (c.2 * (m - k) + v.2 * k) (65536 * m))

/-- Channel `n` is driven as with BRAKE_MODE 0 (R223). -/
def State.drvForced (s : State) (n : Nat) (braking : Bool) : Bool :=
  (s.buss (s.lv Reg.DRV_CFG_BUS_GRP n)).forced && s.lon Reg.DRV_CFG_BRAKE_MODE n && braking

/-- The three phase currents of channel `n` lie within ±OC_LIMIT (R224). -/
def State.drvWithin (s : State) (n : Nat) (iA iB : Int) : Bool :=
  [iA, iB, -(iA + iB)].all fun i => decide (i.natAbs ≤ s.lv Reg.DRV_OC_OC_LIMIT n)

/-- A decision of channel `n` (R206–R210, R220, R222, R223): the latest bits of its three bitstreams, and the code of its ADC input. -/
def State.drvDecide (s : State) (n : Nat) (bA bB bV : List Bool) (adc : Nat) : State :=
  let w := s.drvSpeed n
  let mv := s.drvVolts n bV adc
  let iA := s.drvCurrent n (sinc3 (s.osr n) bA)
  let iB := s.drvCurrent n (sinc3 (s.osr n) bB)
  let s := ((s.wr Reg.DRV_VBUS_VBUS mv n).wrI Reg.DRV_SPEED_SPEED w n).busMeasure (s.lv Reg.DRV_CFG_BUS_GRP n)
  let s := if s.drvWithin n iA iB then s.setCause Src.drvOc (6 + n) false else s
  let d := s.drvs n
  let g := s.buss (s.lv Reg.DRV_CFG_BUS_GRP n)
  let (a, b) := s.fluxNext n iA iB mv w
  let t := torque (s.lv Reg.DRV_CFG_POLE_PAIRS n) a b iA iB
  let mag2 := (a * a + b * b).toNat
  let s := (s.wrI Reg.DRV_TORQUE_TORQUE t n).wr Reg.DRV_FLUX_FLUX (rndSqrt mag2) n
  let phi := fluxCmp d.phi mag2 (s.psiRef2000 n) (s.lv Reg.DRV_BANDS_FLUX_BAND n)
  let tau := torqueCmp d.tau (d.tref - 5120000 * t) (5120000 * s.lv Reg.DRV_BANDS_TQ_BAND n)
  let (k, s) := match sector a b with
    | some k => (k, s)
    | none => s.takeFree 6
  let braking := decide (d.tref * w < 0)
  let forced := s.drvForced n braking
  let entry := s.swEntry n (18 * phi + 6 * tau + k)
  let entry := if g.ovr || (braking && (!s.lon Reg.DRV_CFG_BRAKE_MODE n || forced) && decide (1 ≤ entry) && decide (entry ≤ 6)) then 8
    else entry
  let stop := min 2 (s.lv Reg.DRV_CFG_STOP_MODE n)
  let st := s.dst n
  let vec :=
    if st = Dst.run ∨ st = Dst.stopping ∨ (st = Dst.held ∧ (stop = 0 ∨ g.ovr)) then (if 8 ≤ entry then nearestZero d.vec else entry)
    else if st = Dst.short ∨ (st = Dst.held ∧ stop = 1) then nearestZero d.vec
    else if g.ovr ∧ (st = Dst.catch_ ∨ st = Dst.search) then nearestZero d.vec
    else d.vec
  let s := (s.wb Reg.DRV_STAT_BRAKING (braking && (st == Dst.run || st == Dst.stopping || st == Dst.held)) n).wb Reg.DRV_STAT_FORCED forced n
  let s := s.setDrv n { s.drvs n with
    phi := phi, tau := tau, vec := vec, prev := d.vec, decAt := s.now, psiA := a, psiB := b, iA := iA, iB := iB }
  s.brakeThreshold n

/-- DRIVE_DECISION. At the edge of a commit it takes the old live set (R221). -/
def driveDecisionEff (n : Nat) (a b v : List Bool) (adc : Nat) (s : State) : State :=
  if 16 ≤ n then s
  else match s.edgeLive with
    | none => s.drvDecide n a b v adc
    | some o => { { s with live := o }.drvDecide n a b v adc with live := s.live }

def execDriveDecision (n : Nat) (a b v : List Bool) (adc : Nat) (s : State) : Host.Outcome State Fault Refusal :=
  .next (driveDecisionEff n a b v adc s)

/-! ### Demand -/

/-- The station that gears drive `n` (R132, R136): of those whose live POLY_DRV is `n` the lowest that is configured, else the lowest; of a
shared pair the even one (log 108). -/
def State.gearStn (s : State) (n : Nat) : Option Nat :=
  let ts := (List.range 6).filter fun t => s.lv Reg.STN_POLY_POLY_DRV t == n
  ((ts.find? fun t => s.lv Reg.BL_CFG_PORT t == 1 || s.lv Reg.BL_CFG_PORT t == 2).orElse fun _ => ts.head?).map fun t =>
    if s.lon Reg.STN_POLY_PAIR_SHARE t then t / 2 * 2 else t

/-- The set-point of station gearing (R132), in 1/16 rpm. -/
def State.gearing (s : State) (n : Nat) : Int :=
  match s.gearStn n with
  | none => 0
  | some t =>
    let v := s.axisRate (s.lv Reg.STN_POLY_DRUM_AXIS t)
    let ratio : Int := s.lv Reg.STN_LINE_RATIO_LO_RATIO_LO t + 2 ^ 32 * s.lv Reg.STN_LINE_RATIO_HI_RATIO_HI t
    let base := Config.rnd (v * ratio * 960) (256 * 2 ^ 32 * (s.lv Reg.STN_SCAN_CFG_ROWS t * s.lv Reg.STN_SCAN_CFG_FACETS t))
    Config.rnd (base * (2 ^ 32 + (s.stns t).trim)) (2 ^ 32)

/-- A pin reading mapped to a set-point (R214). -/
def State.pinSpeed (s : State) (n : Nat) (x : Nat) : Int :=
  let lo := s.lv Reg.DRV_REF_MAP1_PIN_LO n
  let hi := s.lv Reg.DRV_REF_MAP1_PIN_HI n
  let a : Int := s.lv Reg.DRV_REF_MAP2_SPD_LO n
  let b : Int := s.lv Reg.DRV_REF_MAP2_SPD_HI n
  if x ≤ s.lv Reg.DRV_REF_OFF_PIN_OFF n then 0
  else if x ≤ lo then 16 * a else if hi ≤ x then 16 * b
  else Config.rnd (16 * (a * (hi - lo) + (b - a) * (x - lo))) (hi - lo)

/-- What an input of kind `k` reads (R214), `none` where it is lost: an ADC code at 0 or 4,095, a GPIO input without an edge for
PIN_TMO ms. -/
def State.pinRead (s : State) (n k : Nat) (inp : PinInputs) : Option Nat :=
  let i := s.lv Reg.DRV_REF_IN_INPUT n
  if k = 0 then
    let x := inp.adc.getD i 0
    if x = 0 ∨ 4095 ≤ x then none else some x
  else match inp.gpio[i]? with
    | none => none
    | some (r0, f, r1) =>
      if s.lv Reg.DRV_REF_IN_PIN_TMO n * 1000000 ≤ s.now - max f r1 ∨ r1 ≤ r0 ∨ 3 ≤ k then none
      else if k = 1 then some (Config.rnd ((f - r0 : Nat) * 65535) (r1 - r0 : Nat)).toNat
      else some (Config.rnd 1000000000 (r1 - r0 : Nat)).toNat

/-- The reading of the channel's pin reference (R214), or of its curve's pin input (R215). -/
def State.pinReading (s : State) (n : Nat) (inp : PinInputs) : Option Nat :=
  let k := s.lv Reg.DRV_REF_IN_KIND n
  s.pinRead n (if s.lv Reg.DRV_CFG_SRC n = 5 then k - 1 else k) inp

/-- The pin reference is lost (R214). -/
def State.pinLoss (s : State) (n : Nat) : State :=
  if (s.drvs n).pinOk then (s.setDrv n { s.drvs n with pinOk := false, want := 0 }).raiseLive Src.drvPinLost (6 + n) else s

/-- The fan curve at `x` (R215), from point `j` on. -/
def State.curveFrom (s : State) (n : Nat) (x : Int) : Nat → Nat → Int
  | 0, j => 16 * s.lv Reg.DRV_CURVE_Y n j
  | k + 1, j =>
    let x1 := s.lvI Reg.DRV_CURVE_X n (j + 1)
    let x0 := s.lvI Reg.DRV_CURVE_X n j
    let y0 : Int := s.lv Reg.DRV_CURVE_Y n j
    let y1 : Int := s.lv Reg.DRV_CURVE_Y n (j + 1)
    if x ≤ x0 then 16 * y0
    else if x ≤ x1 then Config.rnd (16 * (y0 * (x1 - x0) + (y1 - y0) * (x - x0))) (x1 - x0)
    else State.curveFrom s n x k (j + 1)

/-- The input of curve mode (R215). -/
def State.curveInput (s : State) (n : Nat) (reading : Option Nat) : Int :=
  if s.lv Reg.DRV_REF_IN_KIND n = 0 then
    let i := s.lv Reg.DRV_REF_IN_INPUT n
    if 48 ≤ i ∨ s.on Reg.THM_SENS_STAT_BROKEN i then 32767 else s.rdI Reg.THM_SENS_STAT_TEMP i
  else match reading with
    | none => 32767
    | some x => x

/-- The set-point of channel `n` in 1/16 rpm (R212, R214, R215), and the curve's on-state. -/
def State.demand (s : State) (n : Nat) (reading : Option Nat) : Int × Bool :=
  let d := s.drvs n
  match s.lv Reg.DRV_CFG_SRC n with
  | 1 =>
    let x := s.mots n
    let kp := s.lv Reg.DRV_SPD_PI_KPOS n
    (Config.rnd (x.v * 960) (256 * s.lv Reg.DRV_COUNTS_COUNTS_REV n) +
      Config.rnd (kp * signed 56 ((x.p + p56 - s.rd Reg.AXIS_SCHED n * 65536) % p56)) (16 * 65536), d.curveOn)
  | 2 => (if s.lon Reg.DRV_CAP_CAP_MODE n then s.rdI Reg.LOOP_OUT_OUT (s.lv Reg.DRV_CAP_CAP_LOOP n) 0 else 0, d.curveOn)
  | 3 => (s.gearing n, d.curveOn)
  | 4 => (match reading with | none => 0 | some x => s.pinSpeed n x, d.curveOn)
  | 5 =>
    let x := s.curveInput n reading
    let onX := s.lvI Reg.DRV_REF_OFF_PIN_OFF n
    let c := if onX ≤ x then true else if x < onX - s.lv Reg.DRV_REF_OFF_HYST n then false else d.curveOn
    (if c then s.curveFrom n x 31 0 else 0, c)
  | 6 => (s.lvI Reg.DRV_SPD_SET_SPD_SET n, d.curveOn)
  | _ => (0, d.curveOn)

/-- A capstan writes T_ref directly (R212). -/
def State.capTorque (s : State) (n : Nat) : Bool := s.lv Reg.DRV_CFG_SRC n == 2 && !s.lon Reg.DRV_CAP_CAP_MODE n

/-- A start that is not a profile's (R217): a set-point of 0 stays in OFF or HELD. -/
def State.drvStart (s : State) (n : Nat) : State :=
  let v := (s.drvs n).want
  let v := if s.lv Reg.DRV_CFG_SRC n = 4 ∨ s.lv Reg.DRV_CFG_SRC n = 5 then v else (s.demand n none).1
  if !s.lon Reg.DRV_CFG_EN n || s.lv Reg.DRV_CFG_SRC n == 0 || (v == 0 && !s.capTorque n) then s
  else s.drvBegin n (decide (0 ≤ v))

/-- Move towards `t` by at most `acc` while the magnitude rises and `dec` while it falls, not across zero in one step (R213). -/
def rampTo (r t : Int) (acc dec : Nat) : Int :=
  if r = t then r
  else if 0 ≤ r * t ∧ r.natAbs ≤ t.natAbs then (if r < t then min t (r + acc) else max t (r - acc))
  else if 0 < r then max (max t 0) (r - dec) else min (min t 0) (r + dec)

def clampLim (v lim : Int) : Int := max (-lim) (min lim v)

/-- v_need − v_lim in mV (R211): ω_e × |ψ_s| against FW_LIMIT / 256 of VBUS / √3. -/
def State.fwExcess (s : State) (n : Nat) (w : Int) : Int :=
  let d := s.drvs n
  let psi := rndSqrt (d.psiA * d.psiA + d.psiB * d.psiB).toNat
  Config.rnd (w.natAbs * s.lv Reg.DRV_CFG_POLE_PAIRS n * psi * 2 * pi18) (16 * 60 * 1000 * 10 ^ 18) -
    rndSqrt3 (s.lv Reg.DRV_FW_FW_LIMIT n * s.rd Reg.DRV_VBUS_VBUS n) 256

/-- The 50 µs step of channel `n` (R211–R213, R220, R224), with what its inputs read. -/
def driveSpeedStepEff (n : Nat) (inp : PinInputs) (s : State) : State :=
  if 16 ≤ n then s
  else
    let w := s.drvSpeed n
    let s := (s.takeThr (4 + n)).wrI Reg.DRV_SPEED_SPEED w n
    let d := s.drvs n
    let reading := s.pinReading n inp
    let ex := s.fwExcess n w
    let idMin := s.lvI Reg.DRV_FW_ID_MIN n
    let id := min 0 (max idMin (s.rdI Reg.DRV_FLUX_ID_CMD n - Config.rnd (s.lv Reg.DRV_FW_FW_KI n * ex) 1000))
    let s := (s.wrI Reg.DRV_FLUX_ID_CMD id n).wb Reg.DRV_STAT_FW_SAT (decide (id = idMin) && decide (0 < ex)) n
    let (v, c) := s.demand n reading
    let s := if s.lv Reg.DRV_CFG_SRC n ≠ 4 then s
      else if reading.isNone then s.pinLoss n
      else (s.setDrv n { s.drvs n with pinOk := true }).setCause Src.drvPinLost (6 + n) false
    let rises := decide (d.want = 0) && decide (v ≠ 0) && (s.lv Reg.DRV_CFG_SRC n == 4 || s.lv Reg.DRV_CFG_SRC n == 5)
    let s := s.setDrv n { s.drvs n with want := v, curveOn := c }
    let s := if rises then s.drvStart n else s
    let st := s.dst n
    if st ≠ Dst.run ∧ st ≠ Dst.stopping ∧ st ≠ Dst.held then s
    else
      let d := s.drvs n
      let spMax : Int := (s.lvI Reg.DRV_SPD_MAX_SPD_MAX n).natAbs
      let target := if st = Dst.run then 20000 * clampLim v spMax else 0
      let lead := (d.ramped - 20000 * w).natAbs
      let waits := s.on Reg.DRV_STAT_BRAKING n && (!s.lon Reg.DRV_CFG_BRAKE_MODE n || s.drvForced n true) && decide (spMax * 20000 < 20 * lead)
      let s := if waits then s.cnt Reg.DRV_CNT2_RAMP_LAG n else s
      let ramped :=
        if st = Dst.run ∧ s.lv Reg.DRV_CFG_SRC n = 1 then target
        else if waits then d.ramped
        else rampTo d.ramped target (16 * s.lv Reg.DRV_ACCEL_ACCEL n) (16 * s.lv Reg.DRV_DECEL_DECEL n)
      let lim : Int := s.lv Reg.DRV_TQ_MAX_TQ_MAX n * s.rd Reg.THM_THR_THR (4 + n) * 20000
      let direct := decide (st = Dst.run) && s.capTorque n
      let e := ramped - 20000 * w
      let sum := if d.clamped || direct then d.sumE else d.sumE + e
      let loop := s.lv Reg.DRV_CAP_CAP_LOOP n
      let raw : Int :=
        if direct then (if (s.loops loop).fresh then 0 else 5120000 * s.rdI Reg.LOOP_OUT_OUT loop 0)
        else s.lv Reg.DRV_SPD_PI_KP n * e + s.lv Reg.DRV_SPD_PI_KI n * sum
      let tref := clampLim raw lim
      let slow := decide (st = Dst.run) && decide (s.lv Reg.DRV_STALL_STALL_MS n ≠ 0) &&
        decide (w.natAbs < 16 * s.lv Reg.DRV_STALL_STALL_SPEED n) && decide (7 * lim ≤ 8 * tref.natAbs)
      s.setDrv n { d with ramped := ramped, sumE := sum, tref := tref, clamped := decide (raw ≠ tref),
                          stallAt := if slow then (if d.stallAt.isSome then d.stallAt else some s.now) else none }

def execDriveSpeedStep (n : Nat) (inp : PinInputs) (s : State) : Host.Outcome State Fault Refusal :=
  .next (driveSpeedStepEff n inp s)

/-! ### Starting, catching, searching -/

/-- START written to DRV_CTL (R217). -/
def drvStartEff (src : Port) (n : Nat) (s : State) : State :=
  if 16 ≤ n then s else s.access src (Reg.DRV_CTL_START.addr n 0) true fun s => s.drvStart n

def execDrvStart (src : Port) (n : Nat) (s : State) : Host.Outcome State Fault Refusal := .next (drvStartEff src n s)

/-- STOP written to DRV_CTL (R217). -/
def drvStopEff (src : Port) (n : Nat) (s : State) : State :=
  if 16 ≤ n then s else s.access src (Reg.DRV_CTL_STOP.addr n 0) true fun s => s.drvHalt n false

def execDrvStop (src : Port) (n : Nat) (s : State) : Host.Outcome State Fault Refusal := .next (drvStopEff src n s)

/-- FIND_ANGLE written to DRV_CTL in OFF (R219): the search ends in OFF again (log 17). -/
def findAngleEff (src : Port) (n : Nat) (s : State) : State :=
  if 16 ≤ n then s
  else s.access src (Reg.DRV_CTL_FIND_ANGLE.addr n 0) true fun s =>
    if s.dst n ≠ Dst.off ∨ s.fenced (6 + n) then s
    else ((s.wr Reg.DRV_STAT_STATE Dst.search n).setDrv n
      { s.drvs n with findOnly := true, searches := 0, retryAt := none, searchS := s.rd Reg.AXIS_SCHED n, stopPend := false }).searchPulses n

def execFindAngle (src : Port) (n : Nat) (s : State) : Host.Outcome State Fault Refusal := .next (findAngleEff src n s)

/-- Two speeds agree within 20 % (R218, log 121). -/
def near20 (x y : Int) : Bool := decide ((x - y).natAbs * 5 ≤ max x.natAbs y.natAbs)

/-- The current vector at the end of a pulse in 1/1,024 mA: its length and its angle (R218). -/
def pulseVec (p : Int × Int × Nat) : Nat × Nat :=
  let a := 1024 * p.1
  let b := rndSqrt3 (1024 * (p.1 + 2 * p.2.1)) 1
  (rndSqrt (a * a + b * b).toNat, angle16 a b)

/-- The speed that a pulse's EMF gives, LD × |i| / T_SHORT over ψ_pm, in 2^-16 turn per 100 µs (R218). -/
def State.pulseSpeed (s : State) (n mag ns : Nat) : Int :=
  Config.rnd (s.lv Reg.DRV_MOTOR1_LD n * mag * 6553600 * 10 ^ 18) (1024 * ns * s.lv Reg.DRV_MOTOR2_PSI_PM n * 2 * pi18)

/-- What three pulses of a catch say (R218): speed in 1/16 rpm and the rotor's electrical angle, `none` where they disagree; a current below 2 %
of I_FS reads as standing still. -/
def State.catchResult (s : State) (n : Nat) (p q r : Int × Int × Nat) : Option (Int × Nat) :=
  let vs := [p, q, r].map pulseVec
  let ang (k : Nat) : Nat := (vs.getD k (0, 0)).2
  let turn (k : Nat) : Int := signed 16 ((ang (k + 1) + 65536 - ang k) % 65536)
  if vs.any fun v => decide (v.1 * 50 < 1024 * s.lv Reg.DRV_SCALE_I_FS n) then some (0, 0)
  else if near20 (turn 0) (turn 1) && near20 (turn 1).natAbs (s.pulseSpeed n (vs.getD 2 (0, 0)).1 r.2.2) then
    let d := turn 0 + turn 1
    some (Config.rnd (d * 9600000) (2 * 65536 * s.lv Reg.DRV_CFG_POLE_PAIRS n), (ang 2 + (if 0 < d then 16384 else 49152)) % 65536)
  else none

/-- A catch ends (R217, R218): measured phase currents in mA at the end of its three pulses, and how long each lasted in ns. -/
def catchDoneEff (n : Nat) (pulses : List (Int × Int × Nat)) (s : State) : State :=
  let d := s.drvs n
  if 16 ≤ n ∨ s.dst n ≠ Dst.catch_ then s
  else match (match pulses with | [p, q, r] => s.catchResult n p q r | _ => none) with
    | none => if d.catches = 0 then (s.setDrv n { d with catches := 1 }).catchPulses n else s.wr Reg.DRV_STAT_STATE Dst.short n
    | some (speed, θ) =>
      let valid := s.on Reg.DRV_STAT_ANGLE_VALID n
      if speed.natAbs < 16 * s.lv Reg.DRV_CATCH_CATCH_MIN n then (if valid then s.drvRun n 0 else s.drvSearch n)
      else if (decide (0 < speed)) = d.fwd ∧ speed.natAbs ≤ 16 * s.lv Reg.DRV_CATCH_CATCH_MAX n then
        let s := (if valid then s else s.setAngle n θ).cnt Reg.DRV_CNT_CATCHES n
        let pm : Int := s.lv Reg.DRV_MOTOR2_PSI_PM n
        (s.setDrv n { s.drvs n with psiA := Config.rnd (pm * cos16 θ) (2 ^ 48), psiB := Config.rnd (pm * sin16 θ) (2 ^ 48) }).drvRun n speed
      else s.wr Reg.DRV_STAT_STATE Dst.short n

def execCatchDone (n : Nat) (pulses : List (Int × Int × Nat)) (s : State) : Host.Outcome State Fault Refusal :=
  .next (catchDoneEff n pulses s)

/-- An angle search fails (R219): it repeats once after 20 ms. -/
def State.angleFail (s : State) (n : Nat) : State :=
  let d := s.drvs n
  if d.searches = 0 then s.setDrv n { d with searches := 1, retryAt := some (s.now + 20000000) }
  else (s.drvOff n).raise Src.drvAngle (6 + n)

/-- The pair of opposite directions with the shortest rise times (R219), `none` where it is not shorter than the mean by 3 %. -/
def searchAxis (rise : List Nat) : Option Nat :=
  let pair (j : Nat) : Nat := rise.getD j 0 + rise.getD (j + 6) 0
  let k := (List.range 6).foldl (fun k j => if pair j < pair k then j else k) 0
  let sum := (List.range 6).foldl (fun m j => m + pair j) 0
  if rise.length = 12 ∧ 600 * pair k ≤ 97 * sum then some k else none

/-- An angle search ends (R219): rise times in ns of the twelve pulses of pass 1, and of the two of pass 2, along +d and −d. -/
def angleSearchDoneEff (n : Nat) (rise : List Nat) (fwd rev : Nat) (s : State) : State :=
  let d := s.drvs n
  if 16 ≤ n ∨ s.dst n ≠ Dst.search ∨ d.retryAt.isSome then s
  else if s.lv Reg.DRV_IPD_ANGLE_MOVE n < (posDiff (s.rd Reg.AXIS_SCHED n) d.searchS).natAbs then s.angleFail n
  else match searchAxis rise with
    | none => s.angleFail n
    | some k =>
      let two := 2000 * max 1 (s.lv Reg.DRV_IPD_T_PULSE n)
      let dir (j : Nat) : Nat × Nat × Nat := (j / 2 % 6 + 1, (j + 1) / 2 % 6 + 1, two)
      let s := s.emit (.pulses n (s.lv Reg.DRV_IPD_IPD_LIMIT n) [dir k, dir (k + 6)])
      let s := (s.cnt Reg.DRV_CNT2_ANGLE_FINDS n).setAngle n ((k + if fwd ≤ rev then 0 else 6) * 65536 / 12)
      if d.findOnly then s.drvOff n else s.drvRun n 0

def execAngleSearchDone (n : Nat) (rise : List Nat) (fwd rev : Nat) (s : State) : Host.Outcome State Fault Refusal :=
  .next (angleSearchDoneEff n rise fwd rev s)

/-- 20 ms after a failed search it repeats once (R219). -/
def angleSearchRetryEff (n : Nat) (s : State) : State :=
  match (s.drvs n).retryAt with
  | none => s
  | some t =>
    if 16 ≤ n ∨ s.now < t ∨ s.dst n ≠ Dst.search then s
    else (s.setDrv n { s.drvs n with retryAt := none, searchS := s.rd Reg.AXIS_SCHED n }).searchPulses n

def execAngleSearchRetry (n : Nat) (s : State) : Host.Outcome State Fault Refusal := .next (angleSearchRetryEff n s)

/-- The index makes the angle exact, and a valid word makes it valid (R216). -/
def State.drvIndexed (s : State) (port : Nat) (exact : Bool) : State :=
  (List.range 16).foldl (fun s n =>
    if s.lv Reg.DRV_CFG_ENC_PORT n = port ∧ s.lon Reg.DRV_CFG_EN n ∧ (exact ∨ !s.on Reg.DRV_STAT_ANGLE_VALID n) then
      let s := (s.wr Reg.DRV_STAT_ANGLE_VALID 1 n).setDrv n { s.drvs n with angle := 0 }
      if exact then s.wr Reg.DRV_STAT_ANGLE_EXACT 1 n else s
    else s) s

/-- The angle is no longer valid (R216). -/
def State.drvAngleLost (s : State) (n : Nat) : State :=
  (s.wr Reg.DRV_STAT_ANGLE_VALID 0 n).wr Reg.DRV_STAT_ANGLE_EXACT 0 n

/-- A commit has applied to channel `n` (R216, R217, R221); `old` is the state before. -/
def State.drvCommit (s : State) (old : State) (n : Nat) : State :=
  let ch (f : Fld) : Bool := s.lv f n != old.lv f n
  let s := if ch Reg.DRV_CFG_ENC_PORT || ch Reg.DRV_CFG_POLE_PAIRS || ch Reg.DRV_COUNTS_COUNTS_REV || ch Reg.DRV_ANGLE_OFS_ANGLE_OFS then
      s.drvAngleLost n else s
  if !s.lon Reg.DRV_CFG_EN n || s.lv Reg.DRV_CFG_SRC n == 0 then s.drvHalt n true
  else if s.fenced (6 + n) then s
  else if s.dst n = Dst.off ∨ s.dst n = Dst.held then s.drvStart n
  else s

/-- The bus groups are judged by what the commits of drive units have left (R222, R223). -/
def State.busCommit (s : State) : State := (List.range 4).foldl (fun s g => s.busMeasure g) s

/-- SENSE_FAIL of group `g` has been cleared: its check runs again (R222). -/
def State.senseClear (s : State) (g : Nat) : State := (s.setBus g { s.buss g with chkAt := none }).busMeasure g

/-! ### Faults -/

/-- A phase current beyond ±OC_LIMIT on the OSR 8 filter (R206, R224): the latest bits of the two current bitstreams. Currents within it end the
cause (R329). -/
def drvOcEff (n : Nat) (a b : List Bool) (s : State) : State :=
  let iA := s.drvCurrent n (sinc3 8 a)
  let iB := s.drvCurrent n (sinc3 8 b)
  if 16 ≤ n then s
  else if s.drvWithin n iA iB then s.setCause Src.drvOc (6 + n) false
  else ((s.cnt Reg.DRV_CNT_OC_TRIPS n).drvTrip n Src.drvOc).raiseLive Src.drvOc (6 + n)

def execDrvOc (n : Nat) (a b : List Bool) (s : State) : Host.Outcome State Fault Refusal := .next (drvOcEff n a b s)

/-- DFLTn_N low for 1 µs (R224). -/
def drvGateEff (n : Nat) (s : State) : State :=
  if 16 ≤ n then s else (s.drvTrip n Src.drvGate).raiseLive Src.drvGate (6 + n)

def execDrvGate (n : Nat) (s : State) : Host.Outcome State Fault Refusal := .next (drvGateEff n s)

/-- DFLTn_N is high again: the cause of DRV_GATE has ended (R329). -/
def dfltReleaseEff (n : Nat) (s : State) : State := if 16 ≤ n then s else s.setCause Src.drvGate (6 + n) false

def execDfltRelease (n : Nat) (s : State) : Host.Outcome State Fault Refusal := .next (dfltReleaseEff n s)

/-- Slow under full torque for STALL_MS (R224). -/
def drvStallEff (n : Nat) (s : State) : State :=
  match (s.drvs n).stallAt with
  | none => s
  | some t =>
    if 16 ≤ n ∨ s.dst n ≠ Dst.run ∨ s.lv Reg.DRV_STALL_STALL_MS n = 0 ∨
        s.now < t + 1000000 * s.lv Reg.DRV_STALL_STALL_MS n then s
    else ((s.setDrv n { s.drvs n with stallAt := none }).motStop n 4).raise Src.drvStall (6 + n)

def execDrvStall (n : Nat) (s : State) : Host.Outcome State Fault Refusal := .next (drvStallEff n s)

/-- The pin reference reads as lost (R214). -/
def drvPinLostEff (n : Nat) (inp : PinInputs) (s : State) : State :=
  if 16 ≤ n ∨ s.lv Reg.DRV_CFG_SRC n ≠ 4 ∨ (s.pinReading n inp).isSome then s else s.pinLoss n

def execDrvPinLost (n : Nat) (inp : PinInputs) (s : State) : Host.Outcome State Fault Refusal := .next (drvPinLostEff n inp s)

end Sys2Proof.Machine
end

