-- ==== Sys2Proof/Machine/Feedback.lean ====
section
/-! DEFINITION. Position feedback and encoder emulation (R247–R260): counts, words, the index, speed, signal faults, and the eight
emulation outputs. -/

namespace Sys2Proof.Machine

def Enc.init : Enc :=
  { a := false, b := false, zIn := false, fault := false, dir := 0, conf := 0, times := [], wN := 0, wT0 := 0, wT1 := 0, wC0 := 0, wC1 := 0,
    eN := 0, eT := 0, eC := 0, win := false, idx := none, word := none, bad := 0, req := none, pollAt := 0, highAt := 0 }
def Emu.init : Emu := ⟨0, 0, false, false, none, false, false, false⟩
def State.encs (s : State) (p : Nat) : Enc := tget Enc.init s.enc p
def State.setEnc (s : State) (p : Nat) (x : Enc) : State := { s with enc := tput Enc.init s.enc p x }
def State.emus (s : State) (e : Nat) : Emu := tget Emu.init s.emu e
def State.setEmu (s : State) (e : Nat) (x : Emu) : State := { s with emu := tput Emu.init s.emu e x }

/-- The port counts (R257, R335): a signal fault, a boom or lay-up holds the count. -/
def State.encLive (s : State) (p : Nat) : Bool := s.on Reg.ENC_STAT_SIG_OK p && !s.fenced (38 + p)

/-! ### Quadrature -/

/-- One count of port `p` in direction `d` (R247, R251, R255). -/
def State.encStep (s : State) (p : Nat) (d : Int) : State :=
  let x := s.encs p
  let c := unsigned 40 (s.rd Reg.ENC_CNT p + d)
  let s := s.wr Reg.ENC_CNT c p
  let wasRev := s.on Reg.ENC_STAT_REVERSING p
  let rev := decide (x.dir ≠ 0) && decide (x.dir ≠ d)
  let x := if rev then { x with conf := 1, times := [s.now], wN := 0, eN := 0, eT := 0, eC := 0, win := false }
    else { x with conf := x.conf + 1, times := (s.now :: x.times).take 9 }
  let x := { x with dir := d, wN := x.wN + 1, wT0 := if x.wN = 0 then s.now else x.wT0, wC0 := if x.wN = 0 then c else x.wC0,
                    wT1 := s.now, wC1 := c }
  let s := s.setEnc p x
  let s := if rev then ((s.wr Reg.ENC_SPEED_SPEED 0 p).wr Reg.ENC_STAT_SPD_MODE 0 p).wr Reg.ENC_STAT_SPD_SAT 0 p else s
  s.wb Reg.ENC_STAT_REVERSING ((rev || wasRev) && decide (x.conf < s.lv Reg.ENC_SPD_JIT_CONF p)) p

/-- The level an input has after its samples of successive channel clock edges, oldest first (R247): a new one is accepted after
`n` + 1 consecutive equal samples. -/
def settled (n : Nat) (old : Bool) (samples : List Bool) : Bool :=
  let l := samples.drop (samples.length - (n + 1))
  if l.length = n + 1 ∧ l.all (· != old) then !old else old

/-- A change of A or B is counted (R247): whether one that follows the last count within 40 ns still is, the manual does not say (log 135). -/
def State.countable (s : State) (p : Nat) : Bool × State :=
  match (s.encs p).times with
  | [] => (true, s)
  | t :: _ =>
    if t + 40 ≤ s.now then (true, s)
    else
      let (v, s) := s.takeFree 2
      (v == 1, s)

/-- The levels of A and B accepted from their samples, a change of one of them counted (R247, R250). -/
def encoderCountEff (p : Nat) (sa sb : List Bool) (s : State) : State :=
  let x := s.encs p
  if 24 ≤ p then s
  else
    let filt := s.lv Reg.ENC_CFG_FILT p
    let a := settled filt x.a sa
    let b := settled filt x.b sb
    let s := s.setEnc p { x with a := a, b := b }
    if s.lv Reg.ENC_CFG_MODE p ≠ 1 ∨ !s.encLive p ∨ (a = x.a ∧ b = x.b) then s
    else if a ≠ x.a ∧ b ≠ x.b then (s.cnt Reg.ENC_ERR1_ILLEGAL p).raise Src.encIllegal (38 + p)
    else
      let up := if a ≠ x.a then a != b else a == b
      let (ok, s) := s.countable p
      if ok then s.encStep p (if up != s.lon Reg.ENC_CFG_SWAP p then 1 else -1) else s

def execEncoderCount (p : Nat) (a b : List Bool) (s : State) : Host.Outcome State Fault Refusal := .next (encoderCountEff p a b s)

/-! ### The index -/

/-- A line-count fault ends the exactness of the drives on the port (R216, R253). -/
def State.lineFault (s : State) (p : Nat) : State :=
  let s := (s.cnt Reg.ENC_ERR1_LINE_FAULTS p).wr Reg.ENC_STAT_IDX_REF_VALID 0 p
  let s := (List.range 16).foldl (fun s n => if s.lv Reg.DRV_CFG_ENC_PORT n = p ∧ s.lon Reg.DRV_CFG_EN n then s.drvAngleLost n else s) s
  s.raise Src.encLinecount (38 + p)

/-- The level of Z accepted from its samples, and on its rising edge an index event (R252, R253). -/
def indexEventEff (p : Nat) (sz : List Bool) (s : State) : State :=
  let x := s.encs p
  let z := settled (s.lv Reg.ENC_CFG_FILT p) x.zIn sz
  let x := { x with zIn := z }
  if 24 ≤ p then s
  else if !z || (s.encs p).zIn || s.lv Reg.ENC_CFG_MODE p != 1 || !s.encLive p || (s.lon Reg.ENC_CFG_Z_GATE p && !(x.a && x.b)) then s.setEnc p x
  else
    let c := s.rd Reg.ENC_CNT p
    let s := s.setEnc p { x with idx := some (c, x.dir) }
    let nom := s.lv Reg.ENC_IDX_IDX_NOM p
    let (s, ok) : State × Bool := match x.idx with
      | none => (s, true)
      | some (c0, d0) =>
        if nom = 0 ∨ d0 ≠ x.dir then (s, true)
        else
          let diff := posDiff c c0
          let s := s.wrI Reg.ENC_IDX_LAST_LAST_DIFF diff p
          if s.lv Reg.ENC_IDX_IDX_TOL p < ((diff.natAbs : Int) - nom).natAbs then (s.lineFault p, false) else (s, true)
    if !ok then s
    else
      let s := if s.on Reg.ENC_STAT_IDX_REF_VALID p then s
        else (s.wr Reg.ENC_IDX_REF c p).wr Reg.ENC_STAT_IDX_REF_VALID 1 p
      s.drvIndexed p true

def execIndexEvent (p : Nat) (z : List Bool) (s : State) : Host.Outcome State Fault Refusal := .next (indexEventEff p z s)

/-! ### Absolute words -/

/-- An invalid frame (R249). -/
def State.badFrame (s : State) (p : Nat) (jump : Bool) : State :=
  let x := s.encs p
  let s := (s.cnt Reg.ENC_ERR2_WORD_ERR p).setEnc p { x with bad := x.bad + 1 }
  let s := if jump then s.cnt Reg.ENC_ERR2_JUMPS p else s
  if max 1 (s.lv Reg.ENC_SPD_ERR_MAX p) ≤ x.bad + 1 ∧ !s.hasCause Src.encWord (38 + p) then (s.wr Reg.ENC_STAT_WORD_OK 0 p).raiseLive Src.encWord (38 + p) else s

/-- Half a period of a port's clock in ns (R248). -/
def State.ssiHalf (s : State) (p : Nat) : Nat := 2 * (s.lv Reg.ENC_SSI_CLK_DIV p + 1)

/-- CRC bits of a frame (R248). -/
def State.ssiCrcBits (s : State) (p : Nat) : Nat :=
  match s.lv Reg.ENC_CFG_CRC_SEL p with
  | 1 => 6
  | 2 => 8
  | _ => 0

/-- Rising clock edges of a frame, each of which reads a bit (R248). -/
def State.ssiEdges (s : State) (p : Nat) : Nat := s.lv Reg.ENC_CFG_LEAD p + s.lv Reg.ENC_CFG_BITS p + s.ssiCrcBits p

/-- The level of ENCp_CLK (R248): high, and from the request on alternately low and high for half a period each, until the last bit is
read. -/
def State.ssiClock (s : State) (p : Nat) : Bool :=
  match (s.encs p).req with
  | none => true
  | some t =>
    let h := (s.now - t) / s.ssiHalf p
    decide (2 * s.ssiEdges p ≤ h) || decide (h % 2 = 1)

/-- A frame request (R248): after MONO µs of clock high, and the data line must be high. -/
def ssiRequestEff (p : Nat) (dataHigh : Bool) (s : State) : State :=
  let x := s.encs p
  if 24 ≤ p ∨ s.lv Reg.ENC_CFG_MODE p ≠ 2 ∨ s.now < x.pollAt ∨ x.req.isSome ∨ s.now < x.highAt + 1000 * s.lv Reg.ENC_SSI_MONO p then s
  else
    let s := s.setEnc p { x with pollAt := s.now + 50 * s.lv Reg.ENC_POLL_POLL p, req := if dataHigh then some s.now else none }
    if dataHigh then s else s.badFrame p false

def execSsiRequest (p : Nat) (dataHigh : Bool) (s : State) : Host.Outcome State Fault Refusal := .next (ssiRequestEff p dataHigh s)

/-- Gray code to binary (R248). -/
def grayBin : Nat → Nat → Nat
  | 0, w => w
  | n + 1, w => w ^^^ grayBin n (w / 2)

/-- The CRC of `n` data bits, most significant first (R248): `w` bits of register, polynomial `poly`, initial value 0. -/
def ssiCrc (w poly : Nat) : Nat → Nat → Nat → Nat
  | 0, _, c => c
  | n + 1, v, c =>
    let top := (c / 2 ^ (w - 1) + v / 2 ^ n) % 2
    let c := 2 * c % 2 ^ w
    ssiCrc w poly n v (if top = 1 then c ^^^ poly else c)

/-- The number that a list of bits spells, most significant first. -/
def bitsMsb (l : List Bool) : Nat := l.foldl (fun v b => 2 * v + (if b then 1 else 0)) 0

/-- The word and CRC of a frame's bits, in the order they are read (R248): LEAD bits are discarded; the word as received, and the CRC as
compared. -/
def State.ssiRead (s : State) (p : Nat) (bits : List Bool) : Nat × Nat :=
  let l := bits.drop (s.lv Reg.ENC_CFG_LEAD p)
  let n := s.lv Reg.ENC_CFG_BITS p
  let cw := s.ssiCrcBits p
  let crc := bitsMsb ((l.drop n).take cw)
  (bitsMsb (l.take n), if s.lon Reg.ENC_CFG_CRC_INV p then 2 ^ cw - 1 - crc else crc)

/-- The CRC of a word as received (R248). -/
def State.ssiWant (s : State) (p raw : Nat) : Nat :=
  match s.lv Reg.ENC_CFG_CRC_SEL p with
  | 1 => ssiCrc 6 0x03 (s.lv Reg.ENC_CFG_BITS p) raw 0
  | 2 => ssiCrc 8 0x07 (s.lv Reg.ENC_CFG_BITS p) raw 0
  | _ => 0

/-- A valid frame latched at `t`, with the word `w` that moves the count by δ (R249); the count of a port that is boomed or laid up holds
(R335). -/
def State.goodFrame (s : State) (p t w : Nat) (δ : Int) : State :=
  let c := if s.fenced (38 + p) then s.rd Reg.ENC_CNT p else if (s.encs p).word.isNone then w else unsigned 40 (s.rd Reg.ENC_CNT p + δ)
  let s := (s.wr Reg.ENC_CNT c p).wr Reg.ENC_STAT_WORD_OK 1 p
  let x := s.encs p
  let s := s.setEnc p { x with word := some w, bad := 0, dir := if δ < 0 then -1 else if 0 < δ then 1 else x.dir,
                               wN := x.wN + 1, wT0 := if x.wN = 0 then t else x.wT0, wC0 := if x.wN = 0 then c else x.wC0,
                               wT1 := t, wC1 := c }
  let s := s.setCause Src.encWord (38 + p) false
  if s.fenced (38 + p) then s else s.drvIndexed p false

/-- The last bit of a frame is read (R248, R249); `bits`: the levels of the data line at its rising clock edges. -/
def ssiFrameDoneEff (p : Nat) (bits : List Bool) (s : State) : State :=
  let x := s.encs p
  match x.req with
  | none => s
  | some t =>
    if 24 ≤ p ∨ s.lv Reg.ENC_CFG_MODE p ≠ 2 ∨ bits.length ≠ s.ssiEdges p ∨ s.now < t + (2 * s.ssiEdges p - 1) * s.ssiHalf p then s
    else
      let (raw, crc) := s.ssiRead p bits
      let n := s.lv Reg.ENC_CFG_BITS p
      let w := if s.lon Reg.ENC_CFG_GRAY p then grayBin 32 raw else raw
      let s := s.setEnc p { x with req := none, highAt := s.now }
      if !s.on Reg.ENC_STAT_SIG_OK p then s
      else if crc ≠ s.ssiWant p raw then s.badFrame p false
      else
        let δ : Int := match x.word with
          | none => 0
          | some o => signed n (((w : Int) - o) % 2 ^ n).toNat
        let jm := s.lv Reg.ENC_POLL_JUMP_MAX p
        if jm ≠ 0 ∧ jm < δ.natAbs then s.badFrame p true else s.goodFrame p t w δ

def execSsiFrameDone (p : Nat) (bits : List Bool) (s : State) : Host.Outcome State Fault Refusal := .next (ssiFrameDoneEff p bits s)

/-! ### Speed -/

/-- Saturate and publish a speed in 1/256 count/s (R255). -/
def State.putSpeed (s : State) (p : Nat) (v : Int) : State :=
  let lim : Int := 8388607 * 256
  let sat := decide (lim < v.natAbs)
  (s.wrI Reg.ENC_SPEED_SPEED (max (-lim) (min lim v)) p).wb Reg.ENC_STAT_SPD_SAT sat p

/-- `n` counts over `t` ns in 1/256 count/s. -/
def speedOf (n : Int) (t : Nat) : Int := Config.rnd (n * 256000000000) t

/-- The period-mode speed (R255), `none` where the manual states no value. -/
def State.periodSpeed (s : State) (p : Nat) : Option Int :=
  let x := s.encs p
  let k := 2 ^ s.lv Reg.ENC_SPD_PER_AVG p
  match x.times with
  | [] => some 0
  | t :: _ =>
    let te := s.now - t
    if 1000000 * max 1 (s.lv Reg.ENC_SPD_STILL_MS p) ≤ te then some 0
    else if x.times.length ≤ k then none
    else
      let per := t - x.times.getD k 0
      if per < te then some (speedOf x.dir te) else if per = 0 then none else some (speedOf (x.dir * k) per)

/-- The window-mode speed from the last window ended (R255). -/
def State.windowSpeed (s : State) (p : Nat) : Option Int :=
  let x := s.encs p
  if x.eN < 2 ∨ x.eT = 0 then none else some (speedOf x.eC x.eT)

/-- One sample edge (R255, R256): a window may end, the mode may change for the next sample, SPEED is published. -/
def encoderSpeedEff (p : Nat) (s : State) : State :=
  if 24 ≤ p ∨ s.now % 6250 ≠ 0 ∨ s.lv Reg.ENC_CFG_MODE p = 0 then s
  else
    let absolute := decide (s.lv Reg.ENC_CFG_MODE p = 2)
    let k := s.now / 6250
    let ends := decide (k % 2 ^ s.lv Reg.ENC_SPD_WIN_SHIFT p = 0)
    let x := s.encs p
    let mode := absolute || x.win
    let s := s.wb Reg.ENC_STAT_SPD_MODE mode p
    let x := if ends then
        let win := if x.win then decide (s.lv Reg.ENC_SPD_SW_DN p < x.wN) else decide (s.lv Reg.ENC_SPD_SW_UP p ≤ x.wN)
        { x with eN := x.wN, eT := x.wT1 - x.wT0, eC := posDiff x.wC1 x.wC0, win := win, wN := 0 }
      else x
    let s := s.setEnc p x
    if !s.encLive p || s.on Reg.ENC_STAT_REVERSING p then s.putSpeed p 0
    else match (if mode then s.windowSpeed p else s.periodSpeed p) with
      | some v => s.putSpeed p v
      | none =>
        let (v, s) := s.takeFree (2 ^ 31)
        s.putSpeed p (x.dir * v)

def execEncoderSpeed (p : Nat) (s : State) : Host.Outcome State Fault Refusal := .next (encoderSpeedEff p s)

/-! ### Signals, commits and re-zero -/

/-- The receiver reports an open or shorted pair for 10 µs (R257). -/
def encSignalEff (p : Nat) (s : State) : State :=
  if 24 ≤ p ∨ (s.encs p).fault then s
  else
    let s := s.setEnc p { s.encs p with fault := true }
    if s.lv Reg.ENC_CFG_MODE p = 0 then s
    else ((s.wr Reg.ENC_STAT_SIG_OK 0 p).wr Reg.ENC_SPEED_SPEED 0 p).raiseLive Src.encSignal (38 + p)

def execEncSignal (p : Nat) (s : State) : Host.Outcome State Fault Refusal := .next (encSignalEff p s)

/-- The receiver stops reporting it (R257). -/
def encSignalRestoredEff (p : Nat) (s : State) : State :=
  if 24 ≤ p then s
  else
    let s := (s.setEnc p { s.encs p with fault := false }).setCause Src.encSignal (38 + p) false
    s.wb Reg.ENC_STAT_SIG_OK (decide (s.lv Reg.ENC_CFG_MODE p ≠ 0)) p

def execEncSignalRestored (p : Nat) (s : State) : Host.Outcome State Fault Refusal := .next (encSignalRestoredEff p s)

/-- A commit has applied to port `p` (R249, R252, R257); `old` is the state before. -/
def State.encCommit (s : State) (old : State) (p : Nat) : State :=
  let m := s.lv Reg.ENC_CFG_MODE p
  if m = old.lv Reg.ENC_CFG_MODE p then s
  else
    let x := s.encs p
    let s := s.wb Reg.ENC_STAT_SIG_OK (decide (m ≠ 0) && !x.fault) p
    let s := ((s.wr Reg.ENC_STAT_WORD_OK 0 p).wr Reg.ENC_STAT_IDX_REF_VALID 0 p).wr Reg.ENC_STAT_REVERSING 0 p
    let s := s.setEnc p { Enc.init with a := x.a, b := x.b, zIn := x.zIn, fault := x.fault, pollAt := s.now }
    let s := ((s.wr Reg.ENC_SPEED_SPEED 0 p).wr Reg.ENC_STAT_SPD_SAT 0 p).wr Reg.ENC_STAT_SPD_MODE 0 p
    let s := s.setCause Src.encWord (38 + p) false
    if m ≠ 0 ∧ x.fault then s.raiseLive Src.encSignal (38 + p) else s.setCause Src.encSignal (38 + p) false

/-- A re-zero of an axis that port `p` feeds adds `off` to the count, IDX_REF and the index latch (R254). -/
def State.encRezero (s : State) (p off : Nat) : State :=
  let x := s.encs p
  let mv (v : Nat) : Nat := (v + off) % pos40
  let s := (s.wr Reg.ENC_CNT (mv (s.rd Reg.ENC_CNT p)) p).wr Reg.ENC_IDX_REF (mv (s.rd Reg.ENC_IDX_REF p)) p
  s.setEnc p { x with idx := x.idx.map fun c => (mv c.1, c.2), wC0 := mv x.wC0, wC1 := mv x.wC1 }

/-! ### Encoder emulation -/

/-- BACKLOG shows the counts owed, at most ±32,767 (R259). -/
def State.putBacklog (s : State) (e : Nat) : State :=
  s.wrI Reg.EMU_STAT_BACKLOG (max (-32767) (min 32767 (s.emus e).owed)) e

/-- The emulated count moves without edges. -/
def State.addE (s : State) (e : Nat) (d : Int) : State := s.wr Reg.EMU_COUNT_E (unsigned 32 (s.rd Reg.EMU_COUNT_E e + d)) e

/-- Output `e` emits: enabled, gated, not stopped, and not held low for Moored (R258–R260, R311). -/
def State.emuRuns (s : State) (e : Nat) : Bool := s.on Reg.EMU_CFG_EN e && s.on Reg.EMU_CFG_GATE e && !(s.emus e).stopped && !(s.emus e).ovr && !s.gated

/-- Z of output `e` (R258): while the output holds its levels, as it was (R259, R260). -/
def State.emuZ (s : State) (e : Nat) : Bool :=
  let x := s.emus e
  let zp := s.rd Reg.EMU_ZPER_Z_PERIOD e
  if s.emuRuns e then decide (zp ≠ 0) && decide (s.rd Reg.EMU_COUNT_E e % zp = s.rd Reg.EMU_ZPH_Z_PHASE e) && x.a && x.b else x.z

/-- Output `e` follows a change `d` of its axis (R258–R260). -/
def State.emuFollow (s : State) (e : Nat) (d : Int) : State :=
  let x := s.emus e
  let d := if s.on Reg.EMU_CFG_INVERT e then -d else d
  let acc := x.acc + d * s.rd Reg.EMU_RATIO_RATIO e
  let whole := acc / 2 ^ 24
  let acc := acc % 2 ^ 24
  if !s.on Reg.EMU_CFG_GATE e then (s.setEmu e { x with acc := acc }).addE e whole
  else
    let owed := x.owed + whole
    (s.setEmu e { x with acc := acc, owed := owed, z := s.emuZ e, ovr := x.ovr || (decide (32767 < owed.natAbs) && !x.stopped) }).putBacklog e

/-- Every output that follows axis `ax` sees its change (R258): `dP` of P, `dS` of S. -/
def State.emuAxis (s : State) (ax : Nat) (dP dS : Int) : State :=
  (List.range 8).foldl (fun s e =>
    if s.on Reg.EMU_CFG_EN e ∧ s.rd Reg.EMU_CFG_AXIS e = ax then
      let d := if s.on Reg.EMU_CFG_USE_S e then dS else dP
      if d = 0 then s else s.emuFollow e d
    else s) s

/-- One quadrature edge (R258). -/
def emuEdgeEff (e : Nat) (s : State) : State :=
  let x := s.emus e
  let gap := 2 * max 10 (s.rd Reg.EMU_RATE_MIN_GAP e)
  let ok := match x.lastEdge with | none => true | some t => decide (t + gap ≤ s.now)
  if 8 ≤ e ∨ !s.emuRuns e ∨ x.owed = 0 ∨ !ok then s
  else
    let up := decide (0 < x.owed)
    let d : Int := if up then 1 else -1
    let s := s.addE e d
    let a := if up then (if x.a = x.b then !x.a else x.a) else (if x.a = x.b then x.a else !x.a)
    let b := if up then (if x.a = x.b then x.b else !x.b) else (if x.a = x.b then !x.b else x.b)
    (s.setEmu e { x with owed := x.owed - d, lastEdge := some s.now, a := a, b := b }).putBacklog e

def execEmuEdge (e : Nat) (s : State) : Host.Outcome State Fault Refusal := .next (emuEdgeEff e s)

/-- An emulator whose backlog would exceed 32,767 stops (R259). -/
def State.emuStop (s : State) (e : Nat) : State :=
  let x := s.emus e
  if !x.ovr then s
  else ((s.setEmu e { x with stopped := true, ovr := false }).wr Reg.EMU_STAT_OVERRUN 1 e).raise Src.emuOverrun Src.noUnit

/-- The backlog would exceed 32,767 (R259). -/
def emuOverrunEff (e : Nat) (s : State) : State := if 8 ≤ e then s else s.emuStop e

def execEmuOverrun (e : Nat) (s : State) : Host.Outcome State Fault Refusal := .next (emuOverrunEff e s)

/-- E takes what is owed without edges (R259, R260). -/
def State.emuAbsorb (s : State) (e : Nat) : State :=
  let x := s.emus e
  ((s.addE e x.owed).setEmu e { x with owed := 0 }).putBacklog e

/-- RESYNC written (R259). -/
def resyncEff (src : Port) (e : Nat) (s : State) : State :=
  if 8 ≤ e then s
  else s.access src (Reg.EMU_STAT_RESYNC.addr e 0) true fun s =>
    let s := (s.emuStop e).emuAbsorb e
    s.setEmu e { s.emus e with stopped := false }

def execResync (src : Port) (e : Nat) (s : State) : Host.Outcome State Fault Refusal := .next (resyncEff src e s)

/-- EMU_CFG has been written (R258–R260); `old` is the state before. An emulator that has stopped stays stopped. -/
def State.emuCfg (s : State) (old : State) (e : Nat) : State :=
  let x := s.emus e
  let s := s.setEmu e { x with z := if s.emuRuns e then x.z else old.emuZ e }
  let x := s.emus e
  let s := if s.on Reg.EMU_CFG_EN e && !old.on Reg.EMU_CFG_EN e then
      ((s.setEmu e { Emu.init with stopped := x.stopped, ovr := x.ovr, lastEdge := x.lastEdge }).wr Reg.EMU_COUNT_E 0 e).putBacklog e
    else if !s.on Reg.EMU_CFG_EN e then s.setEmu e { x with a := false, b := false, z := false }
    else s
  if old.on Reg.EMU_CFG_GATE e && !s.on Reg.EMU_CFG_GATE e then s.emuAbsorb e else s

end Sys2Proof.Machine
end

