-- ==== Sys2Proof/Machine/Lanes.lean ====
section
/-! DEFINITION. The lanes of a Beam Link: the stream of blocks and its fill (R183, R184), the scrambler, and sideband packets (R189). -/

namespace Sys2Proof.Machine

/-! Link states of R204. -/
namespace Bst
def off : Nat := 0
def ident : Nat := 1
def clock : Nat := 2
def lane : Nat := 3
def deskew : Nat := 4
def sync : Nat := 5
def up : Nat := 6
end Bst
def State.bst (s : State) (n : Nat) : Nat := s.rd Reg.BL_STAT_STATE n

/-! ### Blocks (R184) -/

def idleBlock : Nat := 0x1E
def trainBlock (lane count : Nat) : Nat := 0x2D + 2 ^ 8 * lane + 2 ^ 10 * (count % 2 ^ 54)
def alignBlock (seq : Nat) : Nat := 0x4B + 2 ^ 8 * (seq % 2 ^ 16)

/-- An ALIGN set stands in row `r` of the stream: one row in 1,024 (R183, log 114). -/
def alignRow (r : Nat) : Bool := r % 1024 == 1023

/-- The ALIGN rows among `k` rows from row `r`. -/
def alignRows (r k : Nat) : Nat := (r + k) / 1024 - r / 1024

/-- One block on each of `lanes` lanes. -/
def fillRow (lanes kind train align r : Nat) : List (Nat × Bool × Nat) :=
  (List.range lanes).map fun l =>
    (l, false, if kind = 0x4B ∨ alignRow r then alignBlock align else if kind = 0x2D then trainBlock l train else idleBlock)

/-- The rows that `Out.fill` stands for. -/
def fillRows (lanes kind : Nat) : Nat → Nat → Nat → Nat → List (Nat × Bool × Nat)
  | 0, _, _, _ => []
  | k + 1, r, a, t =>
    let al := kind == 0x4B || alignRow r
    fillRow lanes kind t a r ++ fillRows lanes kind k (r + 1) (if al then a + 1 else a) (if al then t else t + 1)

/-- Blocks of a frame laid on the lanes from lane `l` of row `r`: block i of the stream goes to lane i mod LANES; an ALIGN set goes first
in a row that has one, and IDLE fills the last row (R183). Also the rows and ALIGN sets reached. -/
def layBlocks (lanes : Nat) : Nat → Nat → Nat → List (Bool × Nat) → List (Nat × Bool × Nat) × Nat × Nat
  | r, l, a, [] => if l = 0 then ([], r, a) else ((List.range (lanes - l)).map fun i => (l + i, false, idleBlock), r + 1, a)
  | r, l, a, x :: xs =>
    let al := l == 0 && alignRow r
    let pre := if al then (List.range lanes).map fun i => (i, false, alignBlock a) else []
    let r := if al then r + 1 else r
    let (bs, e) := if l + 1 < lanes then layBlocks lanes r (l + 1) (if al then a + 1 else a) xs
      else layBlocks lanes (r + 1) 0 (if al then a + 1 else a) xs
    (pre ++ (l, x.1, x.2) :: bs, e)

/-! ### Rows and time -/

/-- The lanes that are used (R181). -/
def State.lanesUsed (s : State) (n : Nat) : Nat := 2 ^ s.lv Reg.BL_CFG_LANES n

/-- Rows that the lanes have had time for since their stream began: 66 bits at 1.6 Gb/s × (RATE + 1) each (R181, R183). -/
def State.rowNow (s : State) (n : Nat) : Nat := (s.now - (s.bls n).laneAt) * (16 * (s.lv Reg.BL_CFG_RATE n + 1)) / 660

/-- When row `r` has been sent. -/
def State.rowEnd (s : State) (n r : Nat) : Nat :=
  (s.bls n).laneAt + (r * 660 + (16 * (s.lv Reg.BL_CFG_RATE n + 1) - 1)) / (16 * (s.lv Reg.BL_CFG_RATE n + 1))

/-- The lanes carry fill up to this edge: TRAIN in LANE, ALIGN sets in DESKEW, else IDLE (R183, R188). -/
def State.fillTo (s : State) (n : Nat) : State :=
  let b := s.bls n
  let k := s.rowNow n - b.pos
  if s.bst n < Bst.clock ∨ k = 0 then s
  else
    let kind := if s.bst n = Bst.lane then 0x2D else if s.bst n = Bst.deskew then 0x4B else 0x1E
    let al := if kind = 0x4B then k else alignRows b.pos k
    (s.setBl n { b with pos := b.pos + k, align := b.align + al, train := b.train + (if kind = 0x2D then k - al else 0) }).emit
      (.fill n kind k b.pos b.align b.train)

/-! ### The scrambler (R183) -/

/-- One bit through x^58 + x^39 + 1: the bit sent, and the last 58 bits sent, newest lowest. -/
def scrambleBit (st : Nat) (b : Bool) : Bool × Nat :=
  let o := b != (bitOf st 57 != bitOf st 38)
  (o, (2 * st + if o then 1 else 0) % 2 ^ 58)

/-- The low `k` bits of a payload, lowest first. -/
def scramble : Nat → Nat → Nat → List Bool × Nat
  | 0, st, _ => ([], st)
  | k + 1, st, v =>
    let (o, st) := scrambleBit st (v % 2 == 1)
    let (bs, st) := scramble k st (v / 2)
    (o :: bs, st)

/-- The 66 bits of a block on its lane: sync header 01 for data, 10 for control, and the scrambled payload. -/
def blockBits (st : Nat) (data : Bool) (payload : Nat) : List Bool × Nat :=
  let (bs, st) := scramble 64 st payload
  ((if data then [false, true] else [true, false]) ++ bs, st)

/-- The bits that blocks put on lane `l`, from the scrambler's state `st`. -/
def laneBits (l : Nat) : Nat → List (Nat × Bool × Nat) → List Bool × Nat
  | st, [] => ([], st)
  | st, x :: xs =>
    if x.1 ≠ l then laneBits l st xs
    else
      let (bs, st) := blockBits st x.2.1 x.2.2
      let (cs, st) := laneBits l st xs
      (bs ++ cs, st)

/-! ### The clock lane (R182) -/

/-- The clock lane is high at tick `t` after the stamp of a sweep whose marker is at `t0`; `next` is the next sweep's marker, counted in the
same ticks. An edge stands every 64 ticks, none within 64 ticks of the marker that follows. -/
def clockHigh (t0 next t : Nat) : Bool :=
  decide (t0 ≤ t) &&
    (let k := min ((t - t0) / 64) ((next - t0) / 64 - 1)
     decide (t - t0 - 64 * k < (if k = 0 then 48 else 32)))

/-! ### Sideband packets (R189) -/

/-- The bytes that the packet's CRC covers. -/
def sbBody (cmd tid : Nat) (p : List Byte) : List Byte :=
  [BitVec.ofNat 8 cmd, BitVec.ofNat 8 tid, BitVec.ofNat 8 p.length, BitVec.ofNat 8 (p.length / 256)] ++ p

/-- A packet's symbols. -/
def sbPacket (cmd tid : Nat) (p : List Byte) : List Nat :=
  let c := crc32c (sbBody cmd tid p)
  [0x1FB] ++ (sbBody cmd tid p).map (·.toNat) ++ [c % 256, c / 2 ^ 8 % 256, c / 2 ^ 16 % 256, c / 2 ^ 24 % 256] ++ [0x1FD]

/-- `w` bytes of a number, lowest first. -/
def leBytes (w v : Nat) : List Byte := (List.range w).map fun i => BitVec.ofNat 8 (v / 2 ^ (8 * i))

end Sys2Proof.Machine
end

