-- ==== Sys2Proof/Machine/BeamLink.lean ====
section
/-! DEFINITION. Beam Links and exposure heads (R180–R204): training, requests on the sideband, the identity memory and its wear copies, frame
reports, characterisation, relief and the over-temperature pause. -/

namespace Sys2Proof.Machine

/-- The scan clock, the head link or facet lock of a station fails: SCAN_UNREADY while it exposes (R133). -/
def State.scanLost (s : State) (n : Nat) : State :=
  if (s.stns n).expo.isSome then s.raise Src.scanUnready n else s

/-- A unit report (R204, R45). -/
def State.unitReport (s : State) (status src data : Nat) : State :=
  s.produce (s.rd Reg.RING_EVT_ROUTE_UNIT) (mkRec 4 status src 0 data)

/-- A report of station `n` (R204). -/
def State.headReport (s : State) (n kind status data : Nat) : State := s.unitReport status (n + 8 * kind) data

/-! ### The sideband's requests (R189, R190) -/

/-- Send a request, or let it wait while one is outstanding (R189). -/
def State.sbSend (s : State) (n cmd : Nat) (payload : List Byte) : State :=
  let b := s.bls n
  match b.req with
  | some _ => s.setBl n { b with queue := b.queue ++ [(cmd, payload)] }
  | none =>
    let tid := b.tid % 255 + 1
    (s.setBl n { b with req := some ⟨cmd, payload, tid, 0, s.now⟩, tid := tid }).emit (.sideband n (sbPacket cmd tid payload))

/-- Send the next waiting request. -/
def State.sbNext (s : State) (n : Nat) : State :=
  let b := s.bls n
  match b.queue with
  | [] => s
  | (c, p) :: q => (s.setBl n { b with queue := q }).sbSend n c p

/-- The 128 bytes of waveform set `k` of the station (R172, R190). -/
def State.waveBytes (s : State) (n k : Nat) : List Byte :=
  (List.range 16).flatMap fun c => leBytes 4 (s.rd Reg.STN_WAVE_SUB01 n (16 * k + c)) ++ leBytes 4 (s.rd Reg.STN_WAVE_SUB23 n (16 * k + c))

/-- The 320 bytes of level codes of every emitter and class (R190). -/
def State.levels (s : State) (n : Nat) : List Byte :=
  (List.range 40).flatMap fun e => leBytes 2 (s.lv Reg.BL_AMP_CLASS0 n e) ++ leBytes 2 (s.lv Reg.BL_AMP_CLASS1 n e) ++
    leBytes 2 (s.lv Reg.BL_AMP_CLASS2 n e) ++ leBytes 2 (s.lv Reg.BL_AMP_CLASS3 n e)

/-- Write a waveform table to the head and read it back. -/
def State.sendWave (s : State) (n k : Nat) (bytes : List Byte) : State :=
  (s.sbSend n 0x10 (leBytes 1 k ++ bytes)).sbSend n 0x11 (leBytes 1 k)

/-- Write the levels to the head and read them back. -/
def State.sendLevels (s : State) (n : Nat) (bytes : List Byte) : State := (s.sbSend n 0x18 bytes).sbSend n 0x19 []

/-- In SYNC the head's copy of set `k`, or for 4 its levels, are written from the station's and read back (R191); the words are read as every
read of the store is (R19–R21). -/
def State.syncOne (s : State) (n k : Nat) : State :=
  let s := s.setBl n { s.bls n with sync := setBit (s.bls n).sync k false }
  if k = 4 then s.sendLevels n (s.levels n)
  else
    let s := (List.range 4).foldl (fun (s : State) q => (s.dotRead n k (waveWord n k (4 * q))).2) s
    s.sendWave n k (s.waveBytes n k)

/-- In SYNC the tables and levels are written to the head and read back (R190, R191). -/
def State.sendSync (s : State) (n : Nat) : State :=
  (List.range 5).foldl (fun s k => s.syncOne n k) (s.setBl n { s.bls n with queue := [], stale := false })

/-! ### States of the link (R188) -/

/-- The link of station `n` goes to state `t` (R188): the lanes' fill so far, the clock lane, a LINK report; what waited on the sideband
is dropped as the lanes stop or training starts again. -/
def State.blMove (s : State) (n t : Nat) : State :=
  let o := s.bst n
  let s := s.fillTo n
  let s := (s.wr Reg.BL_STAT_STATE t n).headReport n 0x03 St.ok (t + 8 * o)
  let b := s.bls n
  let s := if t = Bst.up then s else (s.wr Reg.BL_STAT_HEAD_SYNC 0 n).setBl n { b with mark := none }
  let b := s.bls n
  if t = Bst.off then
    (s.setBl n { b with upSeen := false, req := none, queue := [], sync := 0, retryAt := none, stale := false }).emit (.beamClock n false)
  else if t = Bst.clock then
    let s := s.setBl n { b with req := none, queue := [], sync := 0, stale := false }
    if o < Bst.clock then (s.setBl n { s.bls n with laneAt := s.now, pos := 0, align := 0, train := 0 }).emit (.beamClock n true) else s
  else s

/-- A DOT_SET_LOAD that was writing the head of station `n` ends with TIMEOUT (R191): the station's copy is left as it was. -/
def State.loadFail (s : State) (n : Nat) : State :=
  match (s.bls n).load with
  | none => s
  | some l => (s.setBl n { s.bls n with load := none }).loadDone 12 (some l.len) l.job St.timeout

/-- A commit whose levels the head of station `n` was to take ends with TIMEOUT (R191). -/
def State.headCommitFail (s : State) (n : Nat) : State :=
  match s.commits.find? fun c => bitOf c.heads n with
  | none => s
  | some c => s.endCommit c St.timeout

/-- The link of station `n` goes to state `t` (R188). As it leaves UP the station is no longer ready (R133, R134), and what was being
written to the head fails. -/
def State.blGo (s : State) (n t : Nat) : State :=
  let up := decide (s.bst n = Bst.up)
  if s.bst n = t then s
  else
    let s := s.blMove n t
    if up then ((s.baseLost n).loadFail n).headCommitFail n else s

/-- To OFF (R188): the lanes stop and LENs is cut; a station that was exposing over a trained link is unready (R133). -/
def State.blOff (s : State) (n : Nat) : State :=
  let up := decide (s.bst n = Bst.up)
  let s := (s.blGo n Bst.off).lenUpdate n
  if up then s.scanLost n else s

/-- To CLOCK with a fresh attempt count (R188). -/
def State.blClock (s : State) (n : Nat) : State :=
  (s.blGo n Bst.clock).setBl n { s.bls n with attempt := 1, since := s.now }

/-- From UP to CLOCK (R188). -/
def State.blRetrain (s : State) (n : Nat) : State :=
  if s.bst n ≠ Bst.up then s
  else
    let s := s.blGo n Bst.clock
    (s.setBl n { s.bls n with attempt := 1, since := s.now, silent := none }).scanLost n

/-- The head's copies are not the station's (R191): the link goes to SYNC, which rewrites them. -/
def State.headBad (s : State) (n : Nat) : State :=
  if s.bst n ≠ Bst.up then s
  else
    let s := s.blGo n Bst.sync
    ((s.setBl n { s.bls n with attempt := 1, since := s.now }).sendSync n).scanLost n

/-- R188 lets the identity be read; a commit during a lay-up may start it too (R203 step 7). -/
def State.mayIdent (s : State) (n : Nat) (laidOk : Bool) : Bool :=
  let b := s.bls n
  s.bst n == Bst.off && s.lv Reg.BL_CFG_PORT n == 1 && (laidOk || !s.isLaid n) && s.on Reg.BL_STAT_HEAD_PRESENT n &&
      s.on Reg.SPLL_STAT_LOCKED n && !b.refused && b.retryAt.isNone && s.rd Reg.PWR_STAT_MODE == 0

/-- Leave OFF where R188 lets the identity be read. -/
def State.blTry (s : State) (n : Nat) (laidOk : Bool := false) : State :=
  if s.mayIdent n laidOk then
    let s := s.blGo n Bst.ident
    s.setBl n { s.bls n with reading := true }
  else s

/-! ### The identity memory -/

def byteAt (bs : List Byte) (i : Nat) : Nat := (bs.getD i 0).toNat
def bytesAt (bs : List Byte) (i w : Nat) : Nat := leNat ((bs.drop i).take w)

/-- SITE, VF_CAL and SLOPE_CAL of an emitter (R193). -/
def Bl.site (b : Bl) (e : Nat) : Nat := byteAt b.ident (0x20 + 16 * e)
def Bl.vfCal (b : Bl) (e : Nat) : Nat := bytesAt b.ident (0x22 + 16 * e) 2
def Bl.slopeCal (b : Bl) (e : Nat) : Nat := bytesAt b.ident (0x24 + 16 * e) 2

/-- The identity agrees with the host's description (R194). -/
def State.idAgrees (s : State) (n : Nat) (id : List Byte) : Bool :=
  decide (id.length = 676) && bytesAt id 0 4 == 0x4448564C && bytesAt id 0x2A0 4 == crc32c (id.take 0x2A0) &&
    byteAt id 5 + 1 == s.lv Reg.BL_CFG_PORT n &&
    bytesAt id 8 6 == s.lv Reg.BL_HEAD_EXP_LO_UNIT_ID_LO n + 2 ^ 32 * s.lv Reg.BL_HEAD_EXP_HI_UNIT_ID_HI n &&
    byteAt id 7 == s.lv Reg.BL_HEAD_EXP_HI_RANK n && byteAt id 6 == s.lv Reg.BL_HEAD_EXP_HI_EMITTERS n &&
    bytesAt id 0x2A0 4 == s.lv Reg.BL_HEAD_EXP_CRC_CAL_CRC n

/-- SEQ of a wear copy whose CRC matches (R193). -/
def wearSeq (w : List Byte) : Option Nat := if bytesAt w 252 4 = crc32c (w.take 252) then some (bytesAt w 0 4) else none

/-- The valid copy (R193): 0 for A, 1 for B. -/
def wearValid : Option Nat → Option Nat → Option Nat
  | none, none => none
  | some _, none => some 0
  | none, some _ => some 1
  | some a, some b => if (b + 2 ^ 32 - a) % 2 ^ 32 < 2 ^ 31 ∧ a ≠ b then some 1 else some 0

/-- BL_FAILED as one mask, and its bits. -/
def State.failed (s : State) (n : Nat) : Nat := s.rd Reg.BL_FAILED_LO_FAILED_LO n + 2 ^ 32 * s.rd Reg.BL_FAILED_HI_FAILED_HI n
def State.setFailed (s : State) (n m : Nat) : State :=
  let ch := decide (m ≠ s.failed n)
  let s := (s.wr Reg.BL_FAILED_LO_FAILED_LO m n).wr Reg.BL_FAILED_HI_FAILED_HI (m / 2 ^ 32) n
  if ch then s.setBl n { s.bls n with relief := true, wearDue := true } else s

/-- The rows a station writes, and the emitter of one (R129, R130). -/
def State.rows (s : State) (n : Nat) : Nat := s.lv Reg.STN_SCAN_CFG_ROWS n
def State.rowEmitter (s : State) (n r : Nat) : Nat := s.lv Reg.STN_ROW_MAP_EMITTER n r
/-- The row an emitter is mapped to, 0x3F for none (R204). -/
def State.emitterRow (s : State) (n e : Nat) : Nat :=
  ((List.range (min 32 (s.rows n))).find? fun r => s.rowEmitter n r == e).getD 0x3F
def State.emitters (s : State) (n : Nat) : Nat := s.rd Reg.BL_HEAD_ID_HI_EMITTERS n
def State.pool (s : State) (n : Nat) : Nat :=
  s.lv Reg.BL_RELIEF_POOL_LO_POOL_LO n + 2 ^ 32 * s.lv Reg.BL_RELIEF_POOL_HI_POOL_HI n
/-- A pool emitter that is healthy and free (R198). -/
def State.poolFree (s : State) (n e : Nat) : Bool :=
  bitOf (s.pool n) e && !bitOf (s.failed n) e && s.emitterRow n e == 0x3F
def State.reliefFree (s : State) (n : Nat) : Nat := ((List.range 40).filter (s.poolFree n)).length

/-- An emitter has failed (R196, R197): its bit and, where a row maps to it or `always`, an EMITTER_FAIL report. -/
def State.emitterFail (s : State) (n e kind : Nat) : State :=
  let r := s.emitterRow n e
  let s := s.setFailed n (setBit (s.failed n) e true)
  s.headReport n 0x04 St.ok (e + 2 ^ 6 * kind + 2 ^ 8 * r + 2 ^ 14 * s.rd Reg.BL_CHAR_RES_VF n e + 2 ^ 30 * s.rd Reg.BL_CHAR_RES_SLOPE n e)

/-- The identity agrees (R194): FAILED of the valid wear copy, where there is one, is loaded. -/
def State.idAccept (s : State) (n : Nat) : State :=
  let s := s.wr Reg.BL_STAT_ID_AGREE 1 n
  match (s.bls n).wearFail with
  | none => s
  | some m => s.setFailed n m

/-- The identity does not agree (R194). -/
def State.idRefuse (s : State) (n : Nat) : State := s.wr Reg.BL_STAT_ID_AGREE 0 n

/-- The ATTACH report (R204). -/
def State.attachReport (s : State) (n : Nat) (ok : Bool) : State :=
  let b := s.bls n
  let crcOk : Nat := if bytesAt b.ident 0x2A0 4 = crc32c (b.ident.take 0x2A0) then 1 else 0
  s.headReport n 0x01 (if ok then St.ok else St.mismatch)
    (bytesAt b.ident 8 6 + 2 ^ 48 * (byteAt b.ident 7 % 16) + 2 ^ 52 * crcOk + 2 ^ 53 * (if (wearValid b.wearA b.wearB).isSome then 1 else 0))

/-- A head is plugged in and debounced, or unplugged (R188, R203). -/
def hpdChangeEff (n : Nat) (low : Bool) (s : State) : State :=
  if 6 ≤ n ∨ low = s.on Reg.BL_STAT_HEAD_PRESENT n then s
  else if low then
    let s := (s.wr Reg.BL_STAT_HEAD_PRESENT 1 n).setBl n { s.bls n with reading := true, refused := false }
    (s.setCause Src.headDetach n false).blTry n
  else
    let s := (s.wr Reg.BL_STAT_HEAD_PRESENT 0 n).wr Reg.BL_STAT_ID_AGREE 0 n
    let s := s.setBl n { s.bls n with reading := false, refused := false, ident := [], wearA := none, wearB := none, wearFail := none,
                                      charNext := none, wear := none }
    let s := ((s.wr Reg.BL_STAT_CHAR_BUSY 0 n).headReport n 0x02 St.ok 0).blOff n
    if s.isLaid n then s else s.raiseLive Src.headDetach n

def execHpdChange (n : Nat) (low : Bool) (s : State) : Host.Outcome State Fault Refusal := .next (hpdChangeEff n low s)

/-- The identity read ends (R188, R194): `data` is 0x0000–0x02A3, then wear copies A and B. -/
def identityReadDoneEff (n : Nat) (data : Option (List Byte)) (s : State) : State :=
  let b := s.bls n
  if 6 ≤ n ∨ !b.reading ∨ !s.on Reg.BL_STAT_HEAD_PRESENT n then s
  else
    let s := s.setBl n { b with reading := false }
    match data with
    | none =>
      let (v, s) := s.takeFree (2 ^ 52)
      let s := (s.wr Reg.BL_STAT_ID_AGREE 0 n).headReport n 0x01 St.mismatch v
      if s.bst n = Bst.ident then (s.setBl n { s.bls n with refused := true }).blOff n else s
    | some bs =>
      let id := bs.take 676
      let a := (bs.drop 676).take 256
      let c := (bs.drop 932).take 256
      let ok := s.idAgrees n id
      let v := wearValid (wearSeq a) (wearSeq c)
      let failed := v.map fun k => bytesAt (if k = 0 then a else c) 4 5
      let s := s.setBl n { s.bls n with ident := id, wearA := wearSeq a, wearB := wearSeq c, wearFail := failed }
      let s := (s.wr Reg.BL_HEAD_ID_LO_UNIT_ID_LO (bytesAt id 8 4) n).wr Reg.BL_HEAD_ID_HI_UNIT_ID_HI (bytesAt id 12 2) n
      let s := (s.wr Reg.BL_HEAD_ID_HI_RANK (byteAt id 7) n).wr Reg.BL_HEAD_ID_HI_EMITTERS (byteAt id 6) n
      let s := (s.wr Reg.BL_HEAD_ID_HI_KIND (byteAt id 5) n).wr Reg.BL_HEAD_ID_CRC_CAL_CRC (bytesAt id 0x2A0 4) n
      let s := s.attachReport n ok
      if ok then
        let s := s.idAccept n
        let s := if s.bst n = Bst.ident then s.blClock n else s
        s.lenUpdate n
      else
        let s := (s.idRefuse n).setBl n { s.bls n with refused := true }
        if s.bst n = Bst.off then s else s.blOff n

def execIdentityReadDone (n : Nat) (data : Option (List Byte)) (s : State) : Host.Outcome State Fault Refusal :=
  .next (identityReadDoneEff n data s)

/-! ### Training -/

/-- The used lanes (R181). -/
def State.laneMask (s : State) (n : Nat) : Nat := 2 ^ s.lanesUsed n - 1

/-- A head report during training (R188). `report` holds the bits of command 0x01: lane lock [3:0], aligned [4], delay line locked [5]. In
SYNC the link goes UP once every copy has read back equal (R191). -/
def linkTrainProgressEff (n report : Nat) (s : State) : State :=
  if 6 ≤ n then s
  else match s.bst n with
    | 2 => if bitOf report 5 then s.blGo n Bst.lane else s
    | 3 => if (report &&& s.laneMask n) = s.laneMask n then s.blGo n Bst.deskew else s
    | 4 => if bitOf report 4 then (s.blGo n Bst.sync).sendSync n else s
    | 5 =>
      if (s.bls n).sync = 31 then
        let s := (s.blGo n Bst.up).wr Reg.BL_STAT_HEAD_SYNC 1 n
        let s := s.setBl n { s.bls n with upSeen := true, marker := 0, mark := none, pollAt := s.now + 1000000, silent := none, frames := [] }
        s.lenUpdate n
      else s
    | _ => s

def execLinkTrainProgress (n report : Nat) (s : State) : Host.Outcome State Fault Refusal := .next (linkTrainProgressEff n report s)

/-- TRAIN_TIMEOUT, 5 ms per attempt (R188). -/
def linkTrainTimeoutEff (n : Nat) (s : State) : State :=
  let b := s.bls n
  if 6 ≤ n ∨ s.bst n < Bst.clock ∨ s.bst n = Bst.up ∨ s.now < b.since + 5000000 then s
  else if b.attempt < 3 then
    let s := s.blGo n Bst.clock
    s.setBl n { s.bls n with attempt := b.attempt + 1, since := s.now }
  else
    let s := ((s.blGo n Bst.off).lenUpdate n).cnt Reg.BL_CNT_TRAIN_FAIL n
    (s.setBl n { s.bls n with retryAt := some (s.now + 1000000000) }).raise Src.blTrainFail n

def execLinkTrainTimeout (n : Nat) (s : State) : Host.Outcome State Fault Refusal := .next (linkTrainTimeoutEff n s)

/-- The scan PLL is unlocked, or the sideband has been silent for 3 ms (R188). -/
def State.retrainDue (s : State) (n : Nat) : Bool :=
  !s.on Reg.SPLL_STAT_LOCKED n || (match (s.bls n).silent with | some t => decide (t + 3000000 ≤ s.now) | none => false)

/-- A silent sideband or the scan PLL drops the link from UP to CLOCK (R188); lane errors do so as they are reported (`sbHandle`). -/
def linkRetrainEff (n : Nat) (s : State) : State := if 6 ≤ n ∨ !s.retrainDue n then s else s.blRetrain n

def execLinkRetrain (n : Nat) (s : State) : Host.Outcome State Fault Refusal := .next (linkRetrainEff n s)

/-- One second after a training failure (R188). -/
def beamLinkTrainRetryEff (n : Nat) (s : State) : State :=
  match (s.bls n).retryAt with
  | none => s
  | some t => if 6 ≤ n ∨ s.now < t then s else (s.setBl n { s.bls n with retryAt := none }).blTry n

def execBeamLinkTrainRetry (n : Nat) (s : State) : Host.Outcome State Fault Refusal := .next (beamLinkTrainRetryEff n s)

/-- A commit has applied to station `n` (R180, R188, R191, R194, R201, R203); `old` is the state before. A head whose identity no
longer agrees leaves service; one whose description has changed has its identity read again. -/
def State.blCommit (s : State) (old : State) (n : Nat) : State :=
  let ch (f : Fld) : Bool := s.lv f n != old.lv f n
  let s := if ch Reg.BL_CFG_PORT then s.blOff n else s
  let s := if ch Reg.BL_CFG_LANES || ch Reg.BL_CFG_RATE then s.setBl n { s.bls n with laneAt := s.now, pos := 0 } else s
  let desc := ch Reg.BL_CFG_PORT || ch Reg.BL_HEAD_EXP_LO_UNIT_ID_LO || ch Reg.BL_HEAD_EXP_HI_UNIT_ID_HI ||
    ch Reg.BL_HEAD_EXP_HI_RANK || ch Reg.BL_HEAD_EXP_HI_EMITTERS || ch Reg.BL_HEAD_EXP_CRC_CAL_CRC
  let s := if desc && s.on Reg.BL_STAT_HEAD_PRESENT n then
      let s := s.setBl n { s.bls n with refused := false }
      if (s.bls n).ident = [] then (s.setBl n { s.bls n with reading := true }).blTry n true
      else if s.idAgrees n (s.bls n).ident then (s.idAccept n).blTry n true
      else if s.bst n = Bst.off then (s.idRefuse n).blTry n true
      else
        let s := ((s.idRefuse n).attachReport n false).blOff n
        s.setBl n { s.bls n with refused := true }
    else s
  let s := if s.bst n = Bst.sync ∧ (List.range 40).any fun e => [Reg.BL_AMP_CLASS0, Reg.BL_AMP_CLASS1, Reg.BL_AMP_CLASS2,
      Reg.BL_AMP_CLASS3].any fun f => s.lv f n e != old.lv f n e then s.syncOne n 4 else s
  (s.blTry n).lenUpdate n

/-! ### Temperature and characterisation -/

/-- A working sensor's temperature (R200). -/
def State.sensTemp (s : State) (i : Nat) : Option Int :=
  if s.on Reg.THM_SENS_STAT_BROKEN i then none else some (s.rdI Reg.THM_SENS_STAT_TEMP i)

/-- The temperature that R200 judges, `none` where it is missing for 3 ms or its sensor is broken. -/
def State.headTemp (s : State) (n : Nat) : Option Int :=
  let k := s.lv Reg.BL_OT_OT_SRC n
  if k = 0x3F then (if (s.bls n).tempAt + 3000000 ≤ s.now then none else some (s.rdI Reg.BL_STAT_TEMP n))
  else s.sensTemp (8 + k)

/-- Enter or leave the over-temperature pause (R200). -/
def State.otUpdate (s : State) (n : Nat) : State :=
  let t := s.headTemp n
  let v := match t with | none => s.rd Reg.BL_STAT_TEMP n | some t => unsigned 16 t
  let above := match t with | none => true | some t => decide (16 * (s.lv Reg.BL_OT_OT_PAUSE n : Int) < t)
  let below := match t with | none => false | some t => decide (t < 16 * (s.lv Reg.BL_OT_OT_REARM n : Int))
  if !s.on Reg.BL_STAT_OT n && above then (s.wr Reg.BL_STAT_OT 1 n).headReport n 0x07 St.ok (1 + 2 * v)
  else if s.on Reg.BL_STAT_OT n && below then (s.wr Reg.BL_STAT_OT 0 n).headReport n 0x07 St.ok (2 * v)
  else s

/-- Every 1 ms while UP (R190); a head that holds what the station did not take is rewritten (R191, log 113). -/
def headStatusPollEff (n : Nat) (s : State) : State :=
  let b := s.bls n
  if 6 ≤ n ∨ s.bst n ≠ Bst.up ∨ s.now < b.pollAt then s
  else if b.stale then (s.setBl n { b with pollAt := b.pollAt + 1000000 }).headBad n
  else (((s.setBl n { b with pollAt := b.pollAt + 1000000 }).sbSend n 0x01 []).sbSend n 0x02 []).otUpdate n

def execHeadStatusPoll (n : Nat) (s : State) : Host.Outcome State Fault Refusal := .next (headStatusPollEff n s)

/-- One measured emitter of a pass (R196). -/
def State.charOne (s : State) (n e : Nat) (r : Nat × Nat) : State :=
  let b := s.bls n
  let s := (s.wr Reg.BL_CHAR_RES_VF r.1 n e).wr Reg.BL_CHAR_RES_SLOPE r.2 n e
  if s.lv Reg.BL_CHAR_CFG_VF_TOL n < ((r.1 : Int) - b.vfCal e).natAbs then s.emitterFail n e 0
  else if r.2 * 100 < s.lv Reg.BL_CHAR_CFG_SLOPE_MIN n * b.slopeCal e then s.emitterFail n e 1
  else s

/-- Results of a pass from emitter `e` on. -/
def State.charAll (n : Nat) : Nat → List (Nat × Nat) → State → State
  | _, [], s => s
  | e, r :: rs, s => State.charAll n (e + 1) rs (s.charOne n e r)

/-- A pass has covered the emitters up to `e` (R196). -/
def State.charAdvance (s : State) (n e : Nat) : State :=
  if s.emitters n ≤ e then (s.setBl n { s.bls n with charNext := none }).wr Reg.BL_STAT_CHAR_BUSY 0 n
  else s.setBl n { s.bls n with charNext := some e }

/-! ### Frame reports (R187) -/

/-- A frame has failed: BEAM_LINK details for its crossings that are still live. -/
def State.frameFailed (s : State) (n : Nat) (f : FrameWait) : State :=
  f.lines.foldl (fun s l => s.defect l.1 n 0x0B l.2.1 l.2.2) (s.cnt Reg.BL_GSTAT_CNT_FRAME_ERR n)

/-- The frame's report has come: one after a crossing has ended counts, and is recorded nowhere else where all have; a frame that has been
taken as failed already is not recorded twice. -/
def State.frameReport (s : State) (n : Nat) (f : FrameWait) (failed : Bool) : State :=
  let gone := f.lines.filter fun l => (s.live? l.1).isNone
  let s := if gone = [] then s else s.cnt Reg.BL_GSTAT_CNT_GSTAT_LATE n
  if !failed || f.missed || (decide (f.lines ≠ []) && gone.length == f.lines.length) then s else s.frameFailed n f

def gstatEff (n sweep : Nat) (whole crcFail : Bool) (s : State) : State :=
  let b := s.bls n
  match b.frames.find? fun f => f.sweep == sweep with
  | none => s
  | some f => (s.setBl n { b with frames := b.frames.filter fun g => g.sweep != sweep }).frameReport n f (!whole || crcFail)

def execGstat (n sweep : Nat) (whole crcFail : Bool) (s : State) : Host.Outcome State Fault Refusal :=
  .next (gstatEff n sweep whole crcFail s)

/-- Take the first frame whose report is overdue. -/
def takeMissed (now : Nat) : List FrameWait → Option (FrameWait × List FrameWait)
  | [] => none
  | f :: fs =>
    if !f.missed && decide (f.time + 100000 ≤ now) then some (f, { f with missed := true } :: fs)
    else (takeMissed now fs).map fun r => (r.1, f :: r.2)

/-- No report for 100 µs after the frame's END: the oldest such frame is treated as failed. -/
def gstatMissingEff (n : Nat) (s : State) : State :=
  let b := s.bls n
  match takeMissed s.now b.frames with
  | none => s
  | some (f, fs) => (s.setBl n { b with frames := fs }).frameFailed n f

def execGstatMissing (n : Nat) (s : State) : Host.Outcome State Fault Refusal := .next (gstatMissingEff n s)

/-! ### Emitters and relief -/

/-- An in-line fault report (R197). -/
def emitterFaultEff (n e cause : Nat) (s : State) : State :=
  if 6 ≤ n ∨ 40 ≤ e ∨ 3 ≤ cause ∨ s.lv Reg.BL_CFG_PORT n ≠ 1 then s
  else if s.emitterRow n e = 0x3F then s.setFailed n (setBit (s.failed n) e true)
  else s.emitterFail n e 2

def execEmitterFault (n e cause : Nat) (s : State) : Host.Outcome State Fault Refusal := .next (emitterFaultEff n e cause s)

/-- Relief of one row (R198, R199). -/
def State.reliefRow (s : State) (n r : Nat) : State :=
  let e := s.rowEmitter n r
  let b := s.bls n
  if !bitOf (s.failed n) e then s
  else match (List.range 40).find? fun p => s.poolFree n p && b.site p == b.site e with
    | none => s.headReport n 0x06 St.reliefExhausted (r + 2 ^ 6 * e)
    | some p =>
      let k := Reg.STN_ROW_MAP_EMITTER.key n r
      let d := Reg.STN_ROW_MAP_EMITTER.rst n r
      let s := { s with
        quay := tput d s.quay k p, live := tput d s.live k p,
        commits := s.commits.map fun (c : Commit) => if bitOf c.units n then { c with snap := tput d c.snap k p } else c }
      let s := s.setBl n { b with wearDue := true }
      s.headReport n 0x05 St.ok (r + 2 ^ 6 * e + 2 ^ 12 * p + 2 ^ 18 * s.reliefFree n)

/-- The first edge at which the station neither exposes nor characterises (R198). A direct port has no relief (R192); SITE is used only once
the identity agrees (R194). -/
def reliefEff (n : Nat) (s : State) : State :=
  let b := s.bls n
  if 6 ≤ n ∨ !b.relief ∨ s.lv Reg.BL_CFG_PORT n ≠ 1 ∨ !s.on Reg.BL_STAT_ID_AGREE n ∨ (s.stns n).expo.isSome ∨ s.on Reg.BL_STAT_CHAR_BUSY n then s
  else (List.range (min 32 (s.rows n))).foldl (fun s r => s.reliefRow n r) (s.setBl n { b with relief := false })

def execRelief (n : Nat) (s : State) : Host.Outcome State Fault Refusal := .next (reliefEff n s)

/-! ### Wear copies (R193, R195) -/

def natBytes : Nat → Nat → List Nat
  | 0, _ => []
  | w + 1, v => v % 256 :: natBytes w (v / 256)

/-- The 256 bytes of a wear copy. -/
def State.wearImage (s : State) (n seq : Nat) : List Nat :=
  let body := natBytes 4 seq ++ natBytes 5 (s.failed n) ++ List.replicate 7 0 ++
    ((List.range 32).map fun r => if r < s.rows n then s.rowEmitter n r else 0xFF) ++
    ((List.range 40).map fun e => natBytes 4 ((s.bls n).onTime.getD e 0 / 2 ^ 32 % 2 ^ 32)).flatten ++ List.replicate 44 0
  body ++ natBytes 4 (crc32c (body.map fun b => BitVec.ofNat 8 b))

def onSum (b : Bl) : Nat := b.onTime.foldl (fun a t => a + t / 2 ^ 32) 0

/-- A wear copy is due (R195). -/
def State.wearNeeded (s : State) (n : Nat) : Bool :=
  let b := s.bls n
  b.wearDue || (decide (b.wearAt + 60000000000 * max 1 (s.lv Reg.BL_CFG_WEAR_PERIOD n) ≤ s.now) && onSum b != b.onLast)

/-- The ferryman writes one page of a wear copy, between exposures (R195). -/
def wearWriteEff (n : Nat) (s : State) : State :=
  let b := s.bls n
  if 6 ≤ n ∨ !s.boot.running ∨ (s.stns n).expo.isSome ∨ s.isLaid n ∨ !s.on Reg.BL_STAT_ID_AGREE n then s
  else
    let cur := match b.wear with
      | some w => some w
      | none =>
        if s.wearNeeded n then
          let copy := match wearValid b.wearA b.wearB with | some 0 => 1 | _ => 0
          let last := (match wearValid b.wearA b.wearB with | some 0 => b.wearA | some _ => b.wearB | none => none).getD 0
          some (copy, 0, s.wearImage n ((last + 1) % 2 ^ 32))
        else none
    match cur with
    | none => s
    | some (copy, page, img) =>
      let s := s.emit (.idPage n (32 + 8 * copy + page) (((img.drop (32 * page)).take 32).map fun v => BitVec.ofNat 8 v))
      let b := if page = 0 then { b with wearDue := false, wearAt := s.now, onLast := onSum b } else b
      if page < 7 then
        s.setBl n { b with wear := some (copy, page + 1, img), wearA := if copy = 0 then none else b.wearA,
                           wearB := if copy = 0 then b.wearB else none }
      else
        let seq := leNat ((img.take 4).map fun v => BitVec.ofNat 8 v)
        let s := s.setBl n { b with wear := none, wearA := if copy = 0 then some seq else b.wearA,
                                    wearB := if copy = 0 then b.wearB else some seq,
                                    wearFail := some (leNat (((img.drop 4).take 5).map fun v => BitVec.ofNat 8 v)) }
        s.headReport n 0x08 St.ok (seq + 2 ^ 32 * copy)

def execWearWrite (n : Nat) (s : State) : Host.Outcome State Fault Refusal := .next (wearWriteEff n s)

/-! ### Characterisation at a sweep start (R196) -/

/-- Every armed EXPOSE_START entry of the station is at least GAP_COUNTS ahead. -/
def State.gapOk (s : State) (n : Nat) : Bool :=
  s.tide.all fun t => match t.2 with
    | none => true
    | some e =>
      e.action != 0x11 || e.target != n || !tget false s.tideArmed t.1 ||
        (posAhead e.pos (s.rd Reg.AXIS_SCHED e.axis) &&
          decide (s.lv Reg.BL_CHAR_GAP_GAP_COUNTS n ≤ posDist e.pos (s.rd Reg.AXIS_SCHED e.axis)))

/-- At a sweep start after exposure, the next eight emitters are measured. -/
def State.charSweep (s : State) (n : Nat) : State :=
  let b := s.bls n
  match b.charNext with
  | none => s
  | some e =>
    if (s.stns n).expo.isSome then s
    else if s.lon Reg.BL_CHAR_CFG_CHAR_EN n && s.bst n == Bst.up && s.on Reg.BL_STAT_LEN n && s.gapOk n && !s.isLaid n then
      if b.req.any (fun q => q.cmd == 0x20) || b.queue.any (fun q => q.1 == 0x20) then s
      else
        let k := min (s.emitters n) (e + 8)
        (s.wr Reg.BL_STAT_CHAR_BUSY 1 n).sbSend n 0x20 (leBytes 5 (2 ^ k - 2 ^ e))
    else s.wr Reg.BL_STAT_CHAR_BUSY 0 n

/-- An EXPOSE_START stops a running pass (R196). -/
def State.charAbort (s : State) (n : Nat) : State :=
  let busy := s.on Reg.BL_STAT_CHAR_BUSY n
  let s := s.setBl n { s.bls n with charNext := none }
  if busy then (s.wr Reg.BL_STAT_CHAR_BUSY 0 n).cnt Reg.BL_CNT_CHAR_ABORT n else s

/-! ### Derived status -/

/-- The station's head is ready (R133, R180, R192). -/
def State.headReady (s : State) (n : Nat) : Bool :=
  s.bst n == Bst.up || (s.lv Reg.BL_CFG_PORT n == 2 && s.on Reg.BL_STAT_ID_AGREE n && s.on Reg.BL_STAT_LEN n)

/-- A row below ROWS maps to a failed emitter (R199). -/
def State.rowFailed (s : State) (n : Nat) : Bool :=
  (List.range (min 32 (s.rows n))).any fun r => bitOf (s.failed n) (s.rowEmitter n r)

/-- The station refuses boarding (R199–R201). -/
def State.refusing (s : State) (n : Nat) : Bool :=
  (s.rowFailed n && !s.isLaid n) || s.on Reg.BL_STAT_OT n || (s.stns n).cutRefuse ||
    s.intlkOpen Reg.IO_INTLK_ROUTE_STN n || s.aLatched

end Sys2Proof.Machine
end

