-- ==== Sys2Proof/Machine/TickClock.lean ====
section
/-! DEFINITION. From the VCO to ticks (R150–R152, R158): the ramp r(x), the applied increment A(x), the accumulator, and the modulator that
places each tick edge on a step of the phase interpolator. -/

namespace Sys2Proof.Machine

/-- r after `x` pixels of emission, from `r` on (R152), in 2^-32 tick per cycle. -/
def rampAt (r : Int) : List (Nat × Int) → Nat → Int
  | [], _ => r
  | (l, m) :: t, x => if x ≤ l then r + x * m else rampAt (r + l * m) t (x - l)

/-- The accumulator window, 62.08 to 65.92 ticks per cycle (R150), in 2^-32 tick. -/
def incMin : Int := (6208 * 2 ^ 32 + 99) / 100
def incMax : Int := 6592 * 2 ^ 32 / 100

/-- A(x) (R150) in 2^-32 tick per cycle; N_NOM / N is exact to 2^-32. Where a step was not allowed it is clamped to the window (R158). -/
def SweepClk.inc (c : SweepClk) (x : Nat) : Int :=
  let a := Config.rnd ((256 * c.base + rampAt (256 * c.r0) c.segs x) * Config.rnd (c.nom * 2 ^ 32) c.n) (2 ^ 32)
  if c.clamp then max incMin (min incMax a) else a

/-- A run of the tick clock: ticks since the SOS stamp in 2^-32, f_acc cycles since it, the modulator's last two errors in 2^-24 of an
interpolator step, the LFSR. -/
structure TickRun where
  phase : Int
  cycles : Nat
  e1 : Int
  e2 : Int
  lfsr : Nat
deriving DecidableEq, Repr

/-- The start of a sweep (R151): the modulator is clear and the LFSR loaded. -/
def SweepClk.start (c : SweepClk) : TickRun := ⟨0, 0, 0, 0, c.lfsr⟩

/-- The emitted position at a place of the sweep; 0 before the first (R152). -/
def SweepClk.pos (c : SweepClk) (phase : Int) : Nat := ((phase / 2 ^ 32 - c.delay) / 64).toNat

/-- One shift of the LFSR x^23 + x^18 + 1 (R151). -/
def lfsrStep (v : Nat) : Nat := (2 * v + (v / 2 ^ 22 + v / 2 ^ 17) % 2) % 2 ^ 23

/-- The LFSR at the start of a sweep whose group has base slot `b` (R151). -/
def lfsrLoad (seed : Nat) (b : Int) : Nat :=
  let v := seed ^^^ (b % 2 ^ 23).toNat
  if v = 0 then 1 else v

/-- The dither of an edge in 2^-24 step (R151): within DITHER/8 of a step; how the LFSR gives it is not stated, a free value (log 106). -/
def SweepClk.ditherOf (c : SweepClk) (lfsr : Nat) : Int := Config.dither lfsr % (c.dither * 2 ^ 21 + 1)

/-- The step to which an edge with ideal time `u`, in 2^-24 step, goes (R151). -/
def SweepClk.quantise (c : SweepClk) (u : Int) (r : TickRun) : Int × TickRun :=
  if c.order = 0 then ((u + 2 ^ 23) / 2 ^ 24, r)
  else
    let w := u + (if c.order = 1 then r.e1 else 2 * r.e1 - r.e2)
    let q := (w + c.ditherOf r.lfsr + 2 ^ 23) / 2 ^ 24
    (q, { r with e1 := w - q * 2 ^ 24, e2 := r.e1, lfsr := lfsrStep r.lfsr })

/-- The edge of tick `k`, which falls in the cycle that adds `a` (R150): its step, 64 of a cycle, since the stamp. -/
def SweepClk.edge (c : SweepClk) (a : Int) (x : List Int × TickRun) (k : Int) : List Int × TickRun :=
  let (q, r) := c.quantise (64 * 2 ^ 24 * x.2.cycles + Config.rnd (64 * 2 ^ 24 * (k * 2 ^ 32 - x.2.phase)) a) x.2
  (x.1 ++ [q], r)

/-- One f_acc cycle (R150): the steps of the tick edges that fall in it. -/
def SweepClk.cycle (c : SweepClk) (r : TickRun) : List Int × TickRun :=
  let a := c.inc (c.pos r.phase)
  let k0 : Int := r.phase / 2 ^ 32
  let ks : List Int := (List.range ((r.phase + a) / 2 ^ 32 - k0).toNat).map fun (i : Nat) => k0 + 1 + (i : Int)
  let (es, r) := ks.foldl (c.edge a) ([], r)
  (es, { r with phase := r.phase + a, cycles := r.cycles + 1 })

/-- The tick edges of `n` cycles from the SOS stamp on, in interpolator steps. -/
def SweepClk.run (c : SweepClk) : Nat → TickRun → List Int × TickRun
  | 0, r => ([], r)
  | n + 1, r =>
    let (es, r) := c.cycle r
    let (fs, r) := c.run n r
    (es ++ fs, r)

end Sys2Proof.Machine
end

