-- ==== Sys2Proof/Machine/Scanpll.lean ====
section
/-! DEFINITION. Scan clock synthesis (R143–R159): finding a band, lock, ramp banks, and the corrections and steps at each
accepted EOS. -/

namespace Sys2Proof.Machine

def SweepClk.init : SweepClk := ⟨0, 0, 0, false, 0, [], 0, 0, 0, 1, 0, 0⟩
def Spll.init : Spll := ⟨0, 0, 0, none, false, none, false, 0, 0, 0, 0, none, false, SweepClk.init⟩
def Ramp.init : Ramp := ⟨0, []⟩
def State.splls (s : State) (n : Nat) : Spll := tget Spll.init s.spll n
def State.setSpll (s : State) (n : Nat) (x : Spll) : State := { s with spll := tput Spll.init s.spll n x }
def State.ramp (s : State) (n b : Nat) : Ramp := tget Ramp.init s.ramps (2 * n + b)

/-- Tj (R146): the hottest working die sensor, in whole °C (log 16). -/
def State.tj (s : State) : Nat :=
  let ts := (List.range 8).filterMap fun i =>
    if s.rd Reg.THM_SENS_STAT_BROKEN i = 0 then some (s.rdI Reg.THM_SENS_STAT_TEMP i) else none
  match ts.max? with
  | none => 0
  | some t => unsigned 8 (t / 16)

/-! ### Acquisition -/

/-- Full search (R145): the first trial is the middle band of 0–62 on A1. -/
def State.bandSearch (s : State) (n : Nat) : State :=
  let s := ((s.wr Reg.SPLL_STAT_LOCKED 0 n).wr Reg.SPLL_STAT_SEARCHING 1 n).wr Reg.SPLL_STAT_HOPPING 0 n
  s.setSpll n { s.splls n with lo := 0, hi := 62, m := 31, cnt := none, last := false, closed := false }

/-- Close the loop on band `b` at N = N_NOM and start lock detection (R145, R146). -/
def State.closeLoop (s : State) (n b : Nat) : State :=
  let s := (s.wr Reg.SPLL_STAT_BAND b n).wr Reg.SPLL_STAT_N (s.lv Reg.SPLL_CFG_N_NOM n) n
  s.setSpll n { s.splls n with closed := true, wins := 0, inRun := 0, outRun := 0, held := 0 }

/-- Acquisition starts (R146, R149): a hop where the selected band memory matches, otherwise a search. -/
def State.acquire (s : State) (n : Nat) : State :=
  let m := s.lv Reg.SPLL_CFG_BAND_SLOT n
  let s := (s.baseLost n).wr Reg.SPLL_STAT_PARKED 0 n
  let s := (s.wr Reg.SPLL_STAT_LOCKED 0 n).setSpll n { s.splls n with acqAt := some s.now, retryAt := none }
  if s.on Reg.SPLL_BANDMEM_VALID n m && s.rd Reg.SPLL_BANDMEM_N n m == s.lv Reg.SPLL_CFG_N_NOM n &&
      s.rd Reg.SPLL_BANDMEM_POST n m == s.lv Reg.SPLL_CFG_POST n && s.rd Reg.SPLL_BANDMEM_BAND n m != 63 then
    ((s.wr Reg.SPLL_STAT_HOPPING 1 n).wr Reg.SPLL_STAT_SEARCHING 0 n).closeLoop n (s.rd Reg.SPLL_BANDMEM_BAND n m)
  else s.bandSearch n

/-- The synthesiser stops: EN is 0 (R149), or the station is laid up. -/
def State.spllStop (s : State) (n : Nat) : State :=
  let s := (((((s.baseLost n).wr Reg.SPLL_STAT_LOCKED 0 n).wr Reg.SPLL_STAT_SEARCHING 0 n).wr Reg.SPLL_STAT_HOPPING 0 n).wr
    Reg.SPLL_STAT_PARKED 0 n).setSpll n Spll.init
  (s.setCause Src.scanpllNolock n false).setCause Src.scanclkRange n false

/-- Store the present band, N_NOM, POST and Tj into the memory named by BAND_SLOT (R146, R147). -/
def State.storeBand (s : State) (n : Nat) : State :=
  let m := s.lv Reg.SPLL_CFG_BAND_SLOT n
  let s := (s.wr Reg.SPLL_BANDMEM_BAND (s.rd Reg.SPLL_STAT_BAND n) n m).wr Reg.SPLL_BANDMEM_N (s.lv Reg.SPLL_CFG_N_NOM n) n m
  ((s.wr Reg.SPLL_BANDMEM_POST (s.lv Reg.SPLL_CFG_POST n) n m).wr Reg.SPLL_BANDMEM_VALID 1 n m).wr Reg.SPLL_BANDMEM_TJ s.tj n m

/-- The PLL parks on entry to Slack or Moored (R147, R310, R311): a locked one stores its band first. -/
def State.spllPark (s : State) (n : Nat) : State :=
  let s := if s.on Reg.SPLL_STAT_LOCKED n then s.storeBand n else s
  let s := (((s.baseLost n).wr Reg.SPLL_STAT_LOCKED 0 n).wr Reg.SPLL_STAT_SEARCHING 0 n).wr Reg.SPLL_STAT_HOPPING 0 n
  (s.wr Reg.SPLL_STAT_PARKED 1 n).setSpll n { s.splls n with closed := false, acqAt := none, retryAt := none }

/-- On the return to Underway acquisition starts (R146, R147). -/
def State.spllUnpark (s : State) (n : Nat) : State := if s.lon Reg.SPLL_CFG_EN n then s.acquire n else s

/-- A commit has applied to station `n`; `old` is the state before (R146, R160). -/
def State.spllCommit (s : State) (old : State) (n : Nat) : State :=
  let ch (f : Fld) : Bool := s.lv f n != old.lv f n
  if !s.lon Reg.SPLL_CFG_EN n then (if old.lon Reg.SPLL_CFG_EN n then s.spllStop n else s)
  else if ch Reg.SPLL_CFG_EN || ch Reg.SPLL_CFG_N_NOM || ch Reg.SPLL_CFG_POST || ch Reg.SPLL_FILT_ICP || ch Reg.SPLL_FILT_RSEL ||
      ch Reg.SPLL_FILT_C1SEL || ch Reg.SPLL_FILT_C2SEL || ch Reg.SPLL_FILT_EXT_FILT then s.acquire n
  else s

/-- The search ends without a band (R145). -/
def State.noBand (s : State) (n : Nat) : State := (s.wr Reg.SPLL_STAT_NO_BAND 1 n).wr Reg.SPLL_STAT_SEARCHING 0 n

/-- The search ends with band `b` (R145, R146). -/
def State.foundBand (s : State) (n b : Nat) : State :=
  let s := (s.wr Reg.SPLL_STAT_SEARCHING 0 n).closeLoop n b
  if s.lon Reg.SPLL_CFG_AUTO_STORE n then s.storeBand n else s

/-- A trial ends with a count of feedback edges (R145). -/
def bandSearchTrialEff (n count : Nat) (s : State) : State :=
  let x := s.splls n
  if 6 ≤ n ∨ !s.on Reg.SPLL_STAT_SEARCHING n then s
  else if x.last then
    match x.cnt with
    | none => s.noBand n
    | some c => s.foundBand n (if (count : Int) - 1024 |>.natAbs |> (decide <| · < ((c : Int) - 1024).natAbs) then x.lo - 1 else x.lo)
  else
    let x := if count < 1024 then { x with lo := x.m + 1 } else { x with hi := x.m, cnt := some count }
    if x.lo < x.hi then s.setSpll n { x with m := (x.lo + x.hi) / 2 }
    else match x.cnt with
      | none => (s.setSpll n x).noBand n
      | some c =>
        if 0 < x.lo then s.setSpll n { x with m := x.lo - 1, last := true }
        else if 1024 < c then (s.setSpll n x).noBand n
        else (s.setSpll n x).foundBand n 0

def execBandSearchTrial (n count : Nat) (s : State) : Host.Outcome State Fault Refusal := .next (bandSearchTrialEff n count s)

/-- Lock is declared (R148). -/
def State.spllLock (s : State) (n : Nat) : State :=
  let s := (s.wr Reg.SPLL_STAT_LOCKED 1 n).wr Reg.SPLL_STAT_HOPPING 0 n
  ((s.setSpll n { s.splls n with acqAt := none, retryAt := none, inRun := 0, outRun := 0 }).setCause Src.scanpllNolock n false).blTry n

/-- Lock is lost (R148): acquisition starts again, and a trained link goes to CLOCK (R188). -/
def State.spllUnlock (s : State) (n : Nat) : State :=
  let s := (s.cnt Reg.SPLL_CNT_UNLOCKS n).acquire n
  if s.bst n = Bst.up then s.blRetrain n else s.scanLost n

/-- A lock window ends (R146, R148, R157). -/
def lockWindowEndEff (n count : Nat) (vtWarn : Bool) (s : State) : State :=
  let x := s.splls n
  if 6 ≤ n ∨ !x.closed then s
  else
    let s := s.wb Reg.SPLL_STAT_VT_WARN vtWarn n
    let tol := decide (((count : Int) - 1024).natAbs ≤ s.lv Reg.SPLL_LOCK_CFG_LOCK_TOL n)
    let locked := s.on Reg.SPLL_STAT_LOCKED n
    if x.held ≠ 0 then s.setSpll n { x with held := x.held - 1 }
    else if locked then
      let r := if tol then 0 else x.outRun + 1
      let s := s.setSpll n { x with outRun := r }
      if max 1 (s.lv Reg.SPLL_LOCK_CFG_UNLOCK_K n) ≤ r then s.spllUnlock n else s
    else
      let r := if tol then x.inRun + 1 else 0
      let s := s.setSpll n { x with inRun := r, wins := x.wins + 1 }
      if max 1 (s.lv Reg.SPLL_LOCK_CFG_LOCK_K n) ≤ r then s.spllLock n
      else if s.on Reg.SPLL_STAT_HOPPING n && decide (8 ≤ x.wins + 1) then s.bandSearch n
      else s

def execLockWindowEnd (n count : Nat) (vtWarn : Bool) (s : State) : Host.Outcome State Fault Refusal :=
  .next (lockWindowEndEff n count vtWarn s)

/-- LOCK_TIMEOUT passes (R149). -/
def pllLockTimeoutEff (n : Nat) (s : State) : State :=
  match (s.splls n).acqAt with
  | none => s
  | some t =>
    if 6 ≤ n ∨ s.isLaid n ∨ s.on Reg.SPLL_STAT_LOCKED n ∨ s.now < t + 100000 * max 1 (s.lv Reg.SPLL_LOCK_CFG_LOCK_TIMEOUT n) then s
    else
      let s := s.setSpll n { s.splls n with acqAt := none, retryAt := some (s.now + 10000000) }
      (s.wr Reg.SPLL_STAT_NO_LOCK 1 n).raiseLive Src.scanpllNolock n

def execPllLockTimeout (n : Nat) (s : State) : Host.Outcome State Fault Refusal := .next (pllLockTimeoutEff n s)

/-- Every 10 ms after NO_LOCK a full search starts (R149). -/
def scanPllRetryEff (n : Nat) (s : State) : State :=
  match (s.splls n).retryAt with
  | none => s
  | some t =>
    if 6 ≤ n ∨ s.isLaid n ∨ s.now < t then s else (s.setSpll n { s.splls n with retryAt := some (t + 10000000) }).bandSearch n

def execScanPllRetry (n : Nat) (s : State) : Host.Outcome State Fault Refusal := .next (scanPllRetryEff n s)

/-! ### Ramp banks -/

/-- Values of r at the ends of the segments, from r (R152), in 2^-32. -/
def rampEnds (r : Int) : List (Nat × Int) → List Int
  | [] => [r]
  | (l, m) :: t => r :: rampEnds (r + l * m) t

/-- Segments up to the first with LEN 0 (R153). -/
def rampSegs : List Nat → List (Nat × Int)
  | [] => []
  | v :: vs => if field v 0 16 = 0 then [] else (field v 0 16, signed 32 (field v 16 32)) :: rampSegs vs

/-- Write one bank with RAMP_MIN and RAMP_MAX (R153). -/
def State.setRamp (s : State) (n b : Nat) (r0 : Int) (segs : List (Nat × Int)) : State :=
  let e := rampEnds (256 * r0) segs
  let s := { s with ramps := tput Ramp.init s.ramps (2 * n + b) ⟨r0, segs⟩ }
  let s := s.wrI Reg.SPLL_RAMP_MIN_RAMP_MIN (Config.rnd (e.min?.getD 0) 256) n b
  let s := s.wrI Reg.SPLL_RAMP_MAX_RAMP_MAX (Config.rnd (e.max?.getD 0) 256) n b
  s.wr (if b = 0 then Reg.SPLL_STAT_RAMP0_VALID else Reg.SPLL_STAT_RAMP1_VALID) 1 n

/-- A pending commit's snapshot names station `n` with RAMP_BANK `b` (R153). -/
def State.rampPending (s : State) (n b : Nat) : Bool :=
  s.commits.any fun c => bitOf c.units n && tget 0 c.snap (Reg.SPLL_SD_RAMP_BANK.key n 0) == b

/-- SCAN_RAMP_LOAD (R153), with what its source read returned. -/
def scanRampLoadEff (n : Nat) (data : ReadRes) (s0 : State) : State :=
  s0.withDesc n 0x48 fun j s =>
    let st := dget j.d 16 0 3
    let b := dget j.d 16 3 1
    let cnt := dget j.d 17 0 7
    let src := dget j.d 24 0 64
    if dCrx j.d ≠ 0 ∨ 5 < st ∨ 64 < cnt ∨ src % 8 ≠ 0 ∨ (cnt = 0 ∧ src ≠ 0) ∨
        !(dget j.d 16 4 4 == 0 && dget j.d 17 7 1 == 0 && dZero j.d 18 20 && dZero j.d 32 64) then s.complete j St.badDesc
    else if s.lv Reg.SPLL_SD_RAMP_BANK st = b then s.complete j St.refusedState
    else if s.rampPending st b then s.complete j St.overlap
    else
      let r0 := signed 32 (dget j.d 20 0 32)
      if cnt = 0 then (s.setRamp st b r0 []).complete j St.ok
      else s.loadRead s0 12 j src (8 * cnt) data (fun bs s =>
          let es := entries 8 cnt bs
          if (es.take ((rampSegs es).length + 1)).any fun v => field v 48 16 ≠ 0 then s.loadDone 12 (some 0) j St.badDesc
          else (s.setRamp st b r0 (rampSegs es)).loadDone 12 (some (8 * cnt)) j St.ok)
        fun s => s.wr (if b = 0 then Reg.SPLL_STAT_RAMP0_VALID else Reg.SPLL_STAT_RAMP1_VALID) 0 st

def execScanRampLoad (n : Nat) (data : ReadRes) (s : State) : Host.Outcome State Fault Refusal := .next (scanRampLoadEff n data s)

/-! ### Each accepted EOS -/

def facets (s : State) (n : Nat) : Nat := max 1 (s.lv Reg.STN_SCAN_CFG_FACETS n)

/-- Corrections at an accepted EOS of facet `f` with duration `D` (R154, R155), by the gains that this sweep's first tick found (R159). -/
def State.eosCorrect (s : State) (n f D : Nat) : State :=
  let s := s.wr Reg.SPLL_LAST_D_D D n
  let e : Int := D - s.lv Reg.SPLL_TARGET_TARGET_DUR n
  let fl := s.on Reg.STN_SCAN_STAT_FACET_LOCK n
  if !s.on Reg.SPLL_STAT_LOCKED n || !(fl || s.on Reg.STN_SCAN_STAT_LEARNING n) then s
  else
    let s := s.wrI Reg.SPLL_CM_CM (s.rdI Reg.SPLL_CM_CM n - halfAway (e * (s.splls n).clk.cmK) 16) n
    if !fl then s
    else
      let s := s.wrI Reg.SPLL_FC_FC (s.rdI Reg.SPLL_FC_FC n f - halfAway (e * (s.splls n).clk.fcK) 16) n f
      let F := facets s n
      if f + 1 ≠ F then s
      else
        let m := ((List.range F).foldl (fun (a : Int) g => a + s.rdI Reg.SPLL_FC_FC n g) 0).tdiv F
        let s := (List.range F).foldl (fun s g => s.wrI Reg.SPLL_FC_FC (s.rdI Reg.SPLL_FC_FC n g - m) n g) s
        s.wrI Reg.SPLL_CM_CM (s.rdI Reg.SPLL_CM_CM n + m) n

/-- The step decision for the next sweep's facet `f` (R156–R158). -/
def State.eosStep (s : State) (n f : Nat) : State :=
  if !s.on Reg.SPLL_STAT_LOCKED n then s
  else
    let b := s.lv Reg.SPLL_SD_RAMP_BANK n
    let nom := s.lv Reg.SPLL_CFG_N_NOM n
    let sp := min 5 (s.lv Reg.SPLL_CFG_N_SPAN n)
    let N := s.rd Reg.SPLL_STAT_N n
    let base : Int := s.lv Reg.SPLL_BASE_INC_BASE_INC n + s.rdI Reg.SPLL_CM_CM n + s.rdI Reg.SPLL_FC_FC n f
    let hi := decide (6592 * 2 ^ 24 * (N : Int) < 100 * nom * (base + s.rdI Reg.SPLL_RAMP_MAX_RAMP_MAX n b))
    let lo := decide (100 * nom * (base + s.rdI Reg.SPLL_RAMP_MIN_RAMP_MIN n b) < 6208 * 2 ^ 24 * (N : Int))
    let stepTo (N' : Nat) (s : State) : State :=
      ((s.wr Reg.SPLL_STAT_N N' n).cnt Reg.SPLL_CNT_N_STEPS n).setSpll n { s.splls n with held := 2, clamp := false, clk := { (s.splls n).clk with n := N' } }
    if hi && decide (N < nom + sp) then (stepTo (N + 1) s).setCause Src.scanclkRange n false
    else if lo && decide (nom < N + sp) then (stepTo (N - 1) s).setCause Src.scanclkRange n false
    else if hi || lo then
      let s := (s.setSpll n { s.splls n with clamp := true }).wr Reg.SPLL_STAT_RANGE_SAT 1 n
      s.raiseLive Src.scanclkRange n
    else (s.setSpll n { s.splls n with clamp := false }).setCause Src.scanclkRange n false

/-- The edge at which learning ends (R155): `durs` are the learned durations by facet. -/
def State.fcFromLearning (s : State) (n : Nat) (durs : List Nat) : State :=
  let ic : Int := s.lv Reg.SPLL_BASE_INC_BASE_INC n + s.rdI Reg.SPLL_CM_CM n
  let sum : Nat := durs.foldl (· + ·) 0
  (List.range durs.length).foldl
    (fun s f => s.wrI Reg.SPLL_FC_FC (if sum = 0 then 0 else - halfAway (ic * (durs.length * durs.getD f 0 - sum)) sum) n f) s

/-- Every FC is cleared (R155). -/
def State.fcClear (s : State) (n : Nat) : State := (List.range 12).foldl (fun s f => s.wr Reg.SPLL_FC_FC 0 n f) s

/-- Station `n` learns its facets from the next accepted SOS on (R126). -/
def State.unlearn (s : State) (n : Nat) : State :=
  (s.wr Reg.STN_SCAN_STAT_LEARNING 0 n).setStn n { s.stns n with learn := [], learnN := 0, mism := 0 }

/-- Facet lock is cleared without a fault as the polygon stops (R127); FC is kept (R147). A new prediction begins with two edges (log 27). -/
def State.facetClear (s : State) (n : Nat) : State :=
  let s := (((s.baseLost n).wr Reg.STN_SCAN_STAT_FACET_LOCK 0 n).unlearn n).setCause Src.facetLoss n false
  s.setStn n { s.stns n with sweep := none, sos0 := none, sos1 := none, begun := false }

/-- The tick clock as the first tick of a sweep of facet `f` finds it (R150, R159). -/
def State.clkStart (s : State) (n f : Nat) : State :=
  let b := s.lv Reg.SPLL_SD_RAMP_BANK n
  let x := s.splls n
  let r := s.ramp n b
  s.setSpll n { x with clk :=
    { base := s.lv Reg.SPLL_BASE_INC_BASE_INC n + s.rdI Reg.SPLL_CM_CM n + s.rdI Reg.SPLL_FC_FC n f,
      nom := s.lv Reg.SPLL_CFG_N_NOM n, n := s.rd Reg.SPLL_STAT_N n, clamp := x.clamp, r0 := r.r0, segs := r.segs,
      delay := s.lv Reg.STN_SOS_DELAY_SOS_DELAY n, order := min 2 (s.lv Reg.SPLL_SD_SD_ORDER n), dither := s.lv Reg.SPLL_SD_DITHER n,
      lfsr := x.clk.lfsr, cmK := s.lv Reg.SPLL_GAIN_CM_K n, fcK := s.lv Reg.SPLL_GAIN_FC_K n } }

/-- A sweep starts that writes, or would write if skipped, the group with base slot `b` (R151): the LFSR is loaded, and the ticks run. -/
def State.clkSweep (s : State) (n : Nat) (b : Int) : State :=
  let x := s.splls n
  let c := { x.clk with lfsr := lfsrLoad (s.lv Reg.SPLL_SD_SEED n) b }
  (s.setSpll n { x with clk := c }).emit (.scanClock n c)

end Sys2Proof.Machine
end

