-- ==== Sys2Proof/Machine/PowerCore.lean ====
section
/-! DEFINITION. Power-mode requests (R9, R310): taken, held while a crossing is live, or kept during a change; and how a change
begins. -/

namespace Sys2Proof.Machine

/-- A change to mode `t` begins (R310, R311). -/
def State.pwrBegin (s : State) (t : Nat) : State :=
  let m := s.rd Reg.PWR_STAT_MODE
  let s := (s.wr Reg.PWR_STAT_CHANGING 1).wr Reg.PWR_STAT_HELD 0
  let s := { s with pwr := { s.pwr with kept := none, target := some t, start := s.now, step := if t = 2 then 1 else 0, coast := false, ebb := false } }
  let s := if m = 0 then (List.range 6).foldl (fun s n => (if s.bst n = Bst.off then s else s.blOff n).facetClear n) s else s
  match t with
  | 0 =>
    let s := (List.range 6).foldl (fun s n => s.spllUnpark n) s
    (List.range 16).foldl (fun s n =>
      if s.lv Reg.DRV_CFG_SRC n = 3 ∧ !s.fenced (6 + n) then s.drvStart n else s) s
  | 1 => (List.range 16).foldl (fun s n => if s.lv Reg.DRV_CFG_SRC n = 3 then s.drvHalt n false else s) s
  | _ =>
    let s := (List.range 32).foldl (fun s k => s.motStop k 3) s
    (List.range 16).foldl (fun s n => s.drvHalt n false) s

/-- A held request to leave Underway is taken once no crossing is boarding, boarded or cast off (R9). -/
def State.pwrTake (s : State) : State :=
  match s.pwr.kept with
  | none => s
  | some m => if s.on Reg.PWR_STAT_HELD && s.liveCrx.isEmpty then s.pwrBegin m else s

/-- Begin the exit from Moored for a wake of kind `k` towards mode `t` (R312). -/
def State.wakeUp (s : State) (k t : Nat) : State :=
  let s := (s.wr Reg.PWR_STAT_CHANGING 1).wr Reg.PWR_STAT_LAST_WAKE k
  { s with pwr := { s.pwr with target := some t, start := s.now, step := 4, stage := 0, coast := false, wakeBy := k, wake := none, kept := none, ebb := false } }

/-- A request for mode `m` (R310); 3 is no request. -/
def State.pwrRequest (s : State) (m : Nat) : State :=
  let cur := s.rd Reg.PWR_STAT_MODE
  if 3 ≤ m then s
  else if s.on Reg.PWR_STAT_CHANGING then { s with pwr := { s.pwr with kept := some m } }
  else if cur = 2 then (if m < 2 then s.wakeUp 4 m else s)
  else if s.on Reg.PWR_STAT_HELD then
    if m = cur then { s with pwr := { s.pwr with kept := none } }.wr Reg.PWR_STAT_HELD 0
    else { s with pwr := { s.pwr with kept := some m } }
  else if m = cur then s
  else if cur = 0 ∧ !s.liveCrx.isEmpty then { s with pwr := { s.pwr with kept := some m } }.wr Reg.PWR_STAT_HELD 1
  else s.pwrBegin m

/-- A wake of kind `k`, 1 doorbell, 2 WAKE_N, 3 Fenlink, where PWR_WAKE enables it (R312): in Moored the exit begins; during Moored
entry it waits for its end. -/
def State.wakeAsk (s : State) (k : Nat) : State :=
  let t := if s.on Reg.PWR_WAKE_WAKE_TO then 1 else 0
  let en := match k with
    | 1 => s.on Reg.PWR_WAKE_DOORBELL_EN
    | 2 => s.on Reg.PWR_WAKE_PIN_EN
    | 3 => s.on Reg.PWR_WAKE_FENLINK_EN
    | _ => false
  if !en then s
  else if s.on Reg.PWR_STAT_CHANGING then
    (if s.pwr.target = some 2 ∧ s.pwr.wake = none ∧ !s.pwr.ebb then { s with pwr := { s.pwr with wake := some (k, t) } } else s)
  else if s.rd Reg.PWR_STAT_MODE = 2 then s.wakeUp k t
  else s

end Sys2Proof.Machine
end

