-- ==== Sys2Proof/Machine/Stepper.lean ====
section
/-! DEFINITION. Stepper channels (R240–R245): microstep tables, the chopper of each coil, HOLD and the channel's faults. -/

namespace Sys2Proof.Machine

/-- The blanking time in ns (R244): on A1 values below 250 act as 250. -/
def State.blankNs (s : State) (k : Nat) : Nat := 2 * max 250 (s.lv Reg.STP_CHOP_BLANK k)

/-- The comparator is at or above the reference after blanking: the ON phase ends (R243, R245). -/
def chopperOnEndEff (k : Nat) (b : Bool) (s : State) : State :=
  let c := (s.stps k).coil b
  if 16 ≤ k ∨ c.phase ≠ 1 ∨ s.now < c.start + s.blankNs k then s
  else
    let m := entryMag (s.coilEntry k b)
    let early := decide (s.now = c.start + s.blankNs k) && decide (512 ≤ m) && decide (c.lastRef ≤ m)
    let s := s.setCoil k b { c with shorts := if early then c.shorts + 1 else 0, lastRef := m }
    (s.wr (tripField b) 1 k).coilOff k b false

def execChopperOnEnd (k : Nat) (coilB : Bool) (s : State) : Host.Outcome State Fault Refusal := .next (chopperOnEndEff k coilB s)

/-- The fast part of an OFF phase ends, or the phase itself does (R243). -/
def chopperOffEndEff (k : Nat) (b : Bool) (s : State) : State :=
  let c := (s.stps k).coil b
  let toff := s.lv Reg.STP_CHOP_TOFF k
  if 16 ≤ k ∨ c.phase < 2 then s
  else if c.start + 1000 * toff ≤ s.now then s.coilOn k b
  else if c.phase = 2 ∧ !c.allFast ∧ 16 * c.start + 1000 * toff * s.lv Reg.STP_CHOP_FAST k ≤ 16 * s.now then
    s.setCoil k b { c with phase := 3 }
  else s

def execChopperOffEnd (k : Nat) (coilB : Bool) (s : State) : Host.Outcome State Fault Refusal := .next (chopperOffEndEff k coilB s)

/-- q unchanged for HOLD_MS (R242, R245). -/
def stepperHoldEff (k : Nat) (s : State) : State :=
  let h := s.lv Reg.STP_CUR_HOLD_MS k
  if 16 ≤ k ∨ h = 0 ∨ s.rd Reg.STP_STAT_STATE k ≠ 1 ∨ s.now < (s.stps k).qAt + 1000000 * h then s
  else s.wr Reg.STP_STAT_STATE 2 k

def execStepperHold (k : Nat) (s : State) : Host.Outcome State Fault Refusal := .next (stepperHoldEff k s)

/-- Sixteen ON phases found tripped at the end of blanking (R245). -/
def stpShortEff (k : Nat) (b : Bool) (s : State) : State :=
  if 16 ≤ k ∨ ((s.stps k).coil b).shorts < 16 then s
  else ((s.cnt Reg.STP_CNT_SHORTS k).stpTrip k Src.stpShort).raise Src.stpShort (22 + k)

def execStpShort (k : Nat) (coilB : Bool) (s : State) : Host.Outcome State Fault Refusal := .next (stpShortEff k coilB s)

/-- The present ON phase of a coil has lasted OPEN_MS without a trip (R245). -/
def State.stpOpenAt (s : State) (k : Nat) (b : Bool) : Bool :=
  let c := (s.stps k).coil b
  c.phase == 1 && decide (512 ≤ entryMag (s.coilEntry k b)) && decide (c.start + 1000000 * max 1 (s.lv Reg.STP_GATE_OPEN_MS k) ≤ s.now)

/-- An ON phase lasts OPEN_MS without a trip (R245). -/
def stpOpenEff (k : Nat) (b : Bool) (s : State) : State :=
  if 16 ≤ k ∨ !s.stpOpenAt k b then s
  else (s.motHalt (16 + k) 4).raise Src.stpOpen (22 + k)

def execStpOpen (k : Nat) (coilB : Bool) (s : State) : Host.Outcome State Fault Refusal := .next (stpOpenEff k coilB s)

/-- The rotor of channel `k` is off the commanded position by more than STALL_ERR (R245). -/
def State.stpLost (s : State) (k : Nat) : Bool :=
  let x := s.stps k
  let c := posDiff (s.rd Reg.ENC_CNT (s.lv Reg.STP_ENC_ENC_PORT k)) x.c0
  let err := 256 * posDiff x.q x.q0 - c * s.lv Reg.STP_ENC_ENC_SCALE k
  s.lon Reg.STP_ENC_ENC_EN k && (s.rd Reg.STP_STAT_STATE k == 1 || s.rd Reg.STP_STAT_STATE k == 2) &&
    decide (256 * s.lv Reg.STP_STALL_STALL_ERR k < err.natAbs)

/-- The rotor has left the commanded position by more than STALL_ERR (R245). -/
def stpStallEff (k : Nat) (s : State) : State :=
  if 16 ≤ k ∨ !s.stpLost k then s
  else (s.motHalt (16 + k) 4).raise Src.stpStall (22 + k)

def execStpStall (k : Nat) (s : State) : Host.Outcome State Fault Refusal := .next (stpStallEff k s)

/-- A commit has applied to channel `k` (R245). -/
def State.stpCommit (s : State) (k : Nat) : State :=
  if s.lon Reg.STP_CFG_EN k then
    if s.rd Reg.STP_STAT_STATE k = 0 ∧ !s.fenced (22 + k) then
      let q := (s.mots (16 + k)).count
      let s := (s.wr Reg.STP_STAT_STATE 1 k).setStp k
        { s.stps k with q := q, q0 := q, qAt := s.now, c0 := s.rd Reg.ENC_CNT (s.lv Reg.STP_ENC_ENC_PORT k),
                        addr := (q + s.lv Reg.STP_CFG_USTEP_OFS k) % 1024, offAfter := false }
      let a := (q + s.lv Reg.STP_CFG_USTEP_OFS k) % 1024 / 2 ^ s.lv Reg.STP_CFG_MS_SHIFT k * 2 ^ s.lv Reg.STP_CFG_MS_SHIFT k
      let t := s.lv Reg.STP_CFG_TABLE k
      let s := (s.wr Reg.STP_STAT_ADDR a k).coilRefs k t a
      (s.coilOn k false).coilOn k true
    else s
  else s.stpHalt k 3

/-- MICROSTEP_LOAD (R241), with what its source read returned. -/
def microstepLoadEff (n : Nat) (data : ReadRes) (s0 : State) : State :=
  s0.withDesc n 0x4C fun j s =>
    let t := dget j.d 16 0 2
    if dCrx j.d ≠ 0 ∨ dget j.d 24 0 3 ≠ 0 ∨ !(dget j.d 16 2 6 == 0 && dZero j.d 17 24 && dZero j.d 32 64) then s.complete j St.badDesc
    else if (List.range 16).any fun k => s.lon Reg.STP_CFG_EN k && s.rd Reg.STP_STAT_STATE k != 0 && s.lv Reg.STP_CFG_TABLE k == t then
      s.complete j St.refusedState
    else s.loadRead s0 12 j (dget j.d 24 0 64) 2048 data fun bs s =>
      let es := entries 2 1024 bs
      if es.any fun v => decide (4096 ≤ v) then s.loadDone 12 (some 0) j St.badDesc
      else
        let s := (List.range 64).foldl (fun s i => s.eccWrite 2 (ustepWord (1024 * t + 16 * i))) s
        ({ s with ustep := tputs none s.ustep (t * 1024) (es.map some) }).loadDone 12 (some 2048) j St.ok

def execMicrostepLoad (n : Nat) (data : ReadRes) (s : State) : Host.Outcome State Fault Refusal := .next (microstepLoadEff n data s)

end Sys2Proof.Machine
end

