-- ==== Sys2Proof/Machine/Tide.lean ====
section
/-! DEFINITION. Axes and the tide table (R76–R96, R390): positions and history, writing and removing entries, deciding and
issuing them, and the actions that chapter 4 and the units' chapters define. The actions of crossings and stations are in
Crossing.lean and Station.lean. -/

namespace Sys2Proof.Machine

/-! ### Deciding (R85–R87, R92–R94) -/

/-- CAPTURE latches S of its axis and the device time at the edge it becomes due (R84). -/
def State.capture (s : State) (e : TEntry) : State :=
  let ax := e.arg % 64
  (((s.wr Reg.TIDE_CAP_POS (s.rd Reg.AXIS_SCHED ax) e.target).wr Reg.TIDE_CAP_AXIS ax e.target).wr Reg.TIDE_CAP_TIME s.stamp e.target).wr
    Reg.TIDE_CAP_VALID 1 e.target

/-- An entry found behind that LATE or LATE_LIMIT drops (R87): its record, its ACTION defect, and what its crossing or commit makes of
it (R73, R98). -/
def State.missEntry (s : State) (i : Nat) (e : TEntry) : State :=
  let s := (s.cnt Reg.TIDE_MISSED_COUNT).tideRec i e St.missed (lateData e (s.rd Reg.AXIS_SCHED e.axis))
  let s := (s.actionDefect i e St.missed).dropAction e St.missed
  if e.action = 0x10 then s.abandonCrx e.crx Cause.castMissed else s

/-- Entry `i` is due at this edge, found behind where `behind` (R85–R87): it leaves the table, and waits for issue or is MISSED. A read
of its word that finds it uncorrectable removes both entries of the word (R21). -/
def State.decideOne (s : State) (behind : Bool) (i : Nat) : State :=
  let (k, s) := if (tget [] s.flips (wordKey 1 (i / 2))).isEmpty && !tget false s.poison (wordKey 1 (i / 2)) then (0, s)
    else s.eccRead 1 (i / 2)
  if k = 2 then s.tideEcc (i / 2)
  else match s.entry? i with
    | none => s
    | some e =>
      let sp := s.rd Reg.AXIS_SCHED e.axis
      let lim := s.lv Reg.AXIS_LATE_LIMIT_LATE_LIMIT e.axis
      let s := s.delEntry i
      if behind && !(e.late && (lim == 0 || decide (posDist sp e.pos ≤ lim))) then s.missEntry i e
      else
        let s := if behind then s.cnt Reg.TIDE_LATE_COUNT else s
        let s := if e.action = 0x03 then s.capture e else s
        { s with decided := s.decided ++
            [⟨i, e, s.now, behind, s.entryFenced e, sp, s.rd Reg.AXIS_SCHED (e.arg % 64)⟩] }

/-- Insert an index by its entry's CRX; equal CRX keeps ascending index. -/
def crxIns (x : Nat × TEntry) : List (Nat × TEntry) → List (Nat × TEntry)
  | [] => [x]
  | y :: ys => if x.2.crx ≤ y.2.crx then x :: y :: ys else y :: crxIns x ys

/-- The entries due now in the order of R86: (CRX, index). -/
def State.dueEntries (s : State) : List (Nat × TEntry) :=
  (s.entries.filter fun x => s.armed x.1 && posReached (s.rd Reg.AXIS_SCHED x.2.axis) x.2.pos).foldr crxIns []

/-- An entry's axis was re-zeroed at this edge: it is compared with the new position from the next edge on (R84). -/
def State.rezeroedNow (s : State) (e : TEntry) : Bool := s.tideFresh.any fun x => x.1 == e.axis && x.2.1 == s.now

/-- An entry was left at or behind its position by a re-zero of its axis at an earlier edge (R84, R390). -/
def State.leftBehind (s : State) (e : TEntry) : Bool :=
  s.tideFresh.any fun x => x.1 == e.axis && decide (x.2.1 < s.now) && posReached x.2.2 e.pos

/-- Decide every entry due at this edge, in one order (R86, R87): those of `fresh` were written or armed behind at it, and those that
a re-zero left behind are found so at the first edge after it. -/
def State.decideDue (s : State) (fresh : Nat → TEntry → Bool) : State :=
  let due := s.dueEntries.filter fun x => fresh x.1 x.2 || !s.rezeroedNow x.2
  let s' := { s with tideFresh := s.tideFresh.filter fun x => x.2.1 == s.now }
  due.foldl (fun t x => if t.entry? x.1 = some x.2 then t.decideOne (fresh x.1 x.2 || s.leftBehind x.2) x.1 else t) s'

/-- No entry is fresh. -/
def noFresh : Nat → TEntry → Bool := fun _ _ => false

/-- An edge of the tide engine (R85, R86), which does not run in Moored (R311). -/
def tideEntryDueEff (s : State) : State := if s.rd Reg.PWR_STAT_MODE = 2 then s else s.decideDue noFresh

def execTideEntryDue (s : State) : Host.Outcome State Fault Refusal := .next (tideEntryDueEff s)

/-- The first decided action is issued where this cycle has issued fewer than 2 and the last 1,000 ns fewer than 64 (R93). -/
def tideActionIssueEff (s : State) : State :=
  match s.decided with
  | [] => s
  | d :: ds =>
    let recent := s.issueLog.filter fun t => decide (s.now < t + 1000)
    if 2 ≤ (recent.filter (· == s.now)).length ∨ 64 ≤ recent.length then s
    else
      let s := { s with decided := ds, issued := s.issued ++ [d], issueLog := recent ++ [s.now] }
      s.wr Reg.TIDE_WAIT_MAX_WAIT_NS (max (s.rd Reg.TIDE_WAIT_MAX_WAIT_NS) (min 0xFFFF (s.now - d.time)))

def execTideActionIssue (s : State) : Host.Outcome State Fault Refusal := .next (tideActionIssueEff s)

/-! ### Performing an issued action -/

/-- The front issued action, where its code is `code`, is performed by `k`; no effect otherwise. -/
def State.act (s : State) (code : Nat) (k : Decided → State → State) : State :=
  match s.issued with
  | [] => s
  | d :: ds => if d.e.action = code then (k d { s with issued := ds }).tideSettle else s

/-- The record and ACTION defect of an action that was performed: LATE where it was decided so (R94, R115). -/
def State.actDone (s : State) (d : Decided) : State :=
  if d.late then (s.tideRec d.idx d.e St.late (lateData d.e d.s)).actionDefect d.idx d.e St.late else s

/-- An action that is not performed: its record and ACTION defect carry `status` (R92, R94, R115). -/
def State.actRefuse (s : State) (d : Decided) (status : Nat) : State :=
  (s.tideRec d.idx d.e status (lateData d.e d.s)).actionDefect d.idx d.e status

/-- An action is fenced (R92): its target unit was boomed or laid up when it fell due, or is now. -/
def State.actFenced (s : State) (d : Decided) : Bool := d.fenced || s.entryFenced d.e

/-- Perform a unit action that answers a status: OK, or the status of its record. -/
def State.actStatus (s : State) (code : Nat) (k : Decided → State → Nat × State) : State :=
  s.act code fun d s =>
    if s.actFenced d then s.actRefuse d St.fenced
    else
      let (st, s) := k d s
      if st = St.ok then s.actDone d else s.actRefuse d st

/-- The action codes that R84 defines. -/
def actionDefined (c : Nat) : Bool :=
  decide (c ≤ 6) || (decide (0x10 ≤ c) && decide (c ≤ 0x16)) || [0x20, 0x21, 0x28, 0x29, 0x30, 0x38].contains c

/-- NOP (R84); an undefined code, which only a miscorrected word can hold (R18), acts as NOP (log 95). -/
def tideNopEff (s : State) : State :=
  match s.issued with
  | [] => s
  | d :: _ => s.act (if actionDefined d.e.action then 0x00 else d.e.action) fun d s => s.actDone d

def execTideNop (s : State) : Host.Outcome State Fault Refusal := .next (tideNopEff s)

/-! Pins (R84, R339). IO output levels: 0 released, 1 low, 2 high. -/

/-- The level of output `n` becomes `l`; a pulse on it is over. -/
def State.setIo (s : State) (n l : Nat) : State := { s with io := tput 0 s.io n l, pulses := tput none s.pulses n none }

/-- The level after toggling: a released output reads as whatever the pin shows, a free value (log 23). -/
def State.toggleLevel (s : State) (l : Nat) : Nat × State :=
  if l = 1 then (2, s) else if l = 2 then (1, s)
  else
    let (v, s) := s.takeFree 2
    (1 + v, s)

/-- Point `p` of a node is set to a level (R321). -/
def State.setPoint (s : State) (e : Nat) (on : Bool) : State :=
  let port := s.lv Reg.IO_PTMAP_PORT e
  let node := s.lv Reg.IO_PTMAP_NODE e
  s.wr Reg.FL_NODE_OUT (setBit (s.rd Reg.FL_NODE_OUT port node) (s.lv Reg.IO_PTMAP_POINT e) on) port node

/-- PIN with code `c` on output `n`: performed or refused (R84, R339). -/
def State.pinTo (s : State) (n c : Nat) : Nat × State :=
  if n < 64 then
    if !s.lon Reg.IO_GPIO_CFG_OUT n then (St.refusedState, s)
    else match c with
      | 0 => (St.ok, s.setIo n 1)
      | 1 => (St.ok, s.setIo n 2)
      | 2 =>
        let (l, s) := s.toggleLevel (tget 0 s.io n)
        (St.ok, s.setIo n l)
      | _ => (St.ok, s.setIo n 0)
  else
    let e := n - 64
    if !s.lon Reg.IO_PTMAP_EN e then (St.refusedState, s)
    else
      let was := bitOf (s.rd Reg.FL_NODE_OUT (s.lv Reg.IO_PTMAP_PORT e) (s.lv Reg.IO_PTMAP_NODE e)) (s.lv Reg.IO_PTMAP_POINT e)
      (St.ok, s.setPoint e (match c with | 0 => false | 1 => true | 2 => !was | _ => false))

/-- PIN (R84, R339). -/
def pinEff (s : State) : State := s.actStatus 0x01 fun d s => s.pinTo d.e.target d.e.arg

def execPin (s : State) : Host.Outcome State Fault Refusal := .next (pinEff s)

/-- PULSE (R84, R339): the level before the pulse is kept for its end; a pulse over a pulse keeps the first one's (log 24). -/
def pulseEff (s : State) : State :=
  s.actStatus 0x02 fun d s =>
    let n := d.e.target
    if 64 ≤ n ∨ !s.lon Reg.IO_GPIO_CFG_OUT n then (St.refusedState, s)
    else
      let before := match tget none s.pulses n with
        | some x => x.2
        | none => tget 0 s.io n
      let s := s.setIo n (if bitOf d.e.arg 16 then 2 else 1)
      (St.ok, { s with pulses := tput none s.pulses n (some (s.now + 2 * (d.e.arg % 2 ^ 16), before)) })

def execPulse (s : State) : Host.Outcome State Fault Refusal := .next (pulseEff s)

/-- A pulse's width has passed (R84). -/
def pulseEndEff (n : Nat) (s : State) : State :=
  match tget none s.pulses n with
  | none => s
  | some (t, l) => if s.now < t then s else s.setIo n l

def execPulseEnd (out : Nat) (s : State) : Host.Outcome State Fault Refusal := .next (pulseEndEff out s)

/-- CAPTURE's record (R84, R94); the latch is taken when the entry is decided. -/
def captureEff (s : State) : State :=
  s.act 0x03 fun d s =>
    if d.late then s.actDone d
    else if bitOf d.e.arg 8 then s.tideRec d.idx d.e St.ok (d.cap + 2 ^ 40 * (d.e.arg % 64) + 2 ^ 46 * 3)
    else s

def execCapture (s : State) : Host.Outcome State Fault Refusal := .next (captureEff s)

/-- EVENT (R84, R94). -/
def eventEff (s : State) : State :=
  s.act 0x04 fun d s =>
    if d.late then s.actDone d else s.tideRec d.idx d.e St.ok (d.e.arg + 2 ^ 32 * d.e.axis)

def execEvent (s : State) : Host.Outcome State Fault Refusal := .next (eventEff s)

/-! ### Positions (R78, R128, R390) -/

/-- P and S of axis `ax` both become `p`, not as a movement (R84, R390); emulation outputs see the change (R258, log 136), and the next
history sample carries the discontinuity (R80). A REV
commit on the axis waits for the next multiple ahead of `p`: S has not moved past one (R71, log 101). -/
def State.axisRef (s : State) (ax p : Nat) : State :=
  let dP := posDiff p (s.rd Reg.AXIS_POS ax)
  let dS := posDiff p (s.rd Reg.AXIS_SCHED ax)
  let s := (((s.wr Reg.AXIS_POS p ax).wr Reg.AXIS_SCHED p ax).wr Reg.AXIS_STAT_HOLDING 0 ax).emuAxis ax dP dS
  { s with axDisc := tput false s.axDisc ax true,
           commits := s.commits.map fun c => if c.bound == 2 && c.axis == ax then { c with goal := nextMultiple p c.rev } else c }

/-- The reported position of `ax` is `p`: S follows, holds or rewinds (R78). -/
def State.axisFollow (s : State) (ax p : Nat) : State :=
  let sp := s.rd Reg.AXIS_SCHED ax
  let s := s.wr Reg.AXIS_POS p ax
  if posReached p sp then (s.wr Reg.AXIS_SCHED p ax).wr Reg.AXIS_STAT_HOLDING 0 ax
  else if posDist sp p ≤ s.lv Reg.AXIS_CFG_HOLD_MAX ax then s.wr Reg.AXIS_STAT_HOLDING 1 ax
  else
    let s := ((s.wr Reg.AXIS_SCHED p ax).wr Reg.AXIS_STAT_HOLDING 0 ax).cnt Reg.AXIS_STAT_REWIND ax
    ({ s with axDisc := tput false s.axDisc ax true }).raise Src.axisRewind 118 ax

/-- A station is configured (R138): its live PORT is 1 or 2. -/
def State.stnOn (s : State) (n : Nat) : Bool := let p := s.lv Reg.BL_CFG_PORT n; p == 1 || p == 2

def State.lineRatio (s : State) (n : Nat) : Nat :=
  s.lv Reg.STN_LINE_RATIO_LO_RATIO_LO n + 2 ^ 32 * s.lv Reg.STN_LINE_RATIO_HI_RATIO_HI n

/-- λ of station `n` advances by `dS` counts of its drum axis (R128); S and P of AX32 + n are floor(λ); a rewind of the drum rewinds
the station axis. -/
def State.lamStep (s : State) (n : Nat) (dS : Int) : State :=
  let x := s.stns n
  let lam := (((x.lam : Int) + dS * s.lineRatio n) % (2 ^ 72 : Nat)).toNat
  let ax := 32 + n
  let old := s.rd Reg.AXIS_SCHED ax
  let p := lam / 2 ^ 32
  let s := ((s.setStn n { x with lam := lam, lamAt := if 0 < dS then s.now else x.lamAt }).wr Reg.AXIS_POS p ax).wr Reg.AXIS_SCHED p ax
  let d := posDiff p old
  let s := if dS < 0 then
      ({ (s.cnt Reg.AXIS_STAT_REWIND ax) with axDisc := tput false s.axDisc ax true }).raise Src.axisRewind 118 ax
    else s
  if d = 0 then s else s.emuAxis ax d d

/-- The axis's source is configured, and not laid up or boomed (R76): it moves. -/
def State.axisOn (s : State) (ax : Nat) : Bool :=
  if ax < 16 then s.lon Reg.DRV_CFG_EN ax && !s.fenced (6 + ax) && !s.fenced (38 + s.lv Reg.DRV_CFG_ENC_PORT ax)
  else if ax < 32 then s.lon Reg.STP_CFG_EN (ax - 16) && !s.fenced (6 + ax)
  else if ax < 38 then s.stnOn (ax - 32) && !s.fenced (ax - 32)
  else if ax < 40 then true
  else s.lon Reg.AXIS_CFG_EN ax && !s.fenced (38 + s.lv Reg.AXIS_CFG_PORT ax)

/-- The count of an axis's source, negated where INVERT is 1 (R76, R78). -/
def State.axisCount (s : State) (ax : Nat) : Nat :=
  if ax < 16 then s.rd Reg.ENC_CNT (s.lv Reg.DRV_CFG_ENC_PORT ax)
  else if ax < 32 then s.rd Reg.MOT_POS ax
  else if ax < 38 then (s.stns (ax - 32)).lam / 2 ^ 32
  else if ax = 38 then s.mainsPos
  else if ax = 39 then s.stamp
  else
    let c := s.rd Reg.ENC_CNT (s.lv Reg.AXIS_CFG_PORT ax)
    if s.lon Reg.AXIS_CFG_INVERT ax then (pos40 - c) % pos40 else c

/-- AXIS_STAT.SRC_OK: the source of `ax` is advancing validly. -/
def State.axisOk (s : State) (ax : Nat) : Bool :=
  s.axisOn ax && (match s.axisPort ax with
    | some p => s.on Reg.ENC_STAT_SIG_OK p && (s.lv Reg.ENC_CFG_MODE p != 2 || s.on Reg.ENC_STAT_WORD_OK p)
    | none => if ax = 38 then s.on Reg.MAINS_STAT_LOCKED else true)

/-- Axis `ax` at a channel edge (R78): its positions, and what follows it: emulation outputs, the line positions of stations on it,
heater firings on AX38. -/
def State.axisEdge (s : State) (ax : Nat) : State :=
  let s := s.wb Reg.AXIS_STAT_SRC_OK (s.axisOk ax) ax
  if !s.axisOn ax ∨ (32 ≤ ax ∧ ax < 38) then s
  else
    let p0 := s.rd Reg.AXIS_POS ax
    let s0 := s.rd Reg.AXIS_SCHED ax
    let s := s.axisFollow ax (s.axisCount ax)
    let dP := posDiff (s.rd Reg.AXIS_POS ax) p0
    let dS := posDiff (s.rd Reg.AXIS_SCHED ax) s0
    let s := if dP = 0 ∧ dS = 0 then s else s.emuAxis ax dP dS
    let s := if dS = 0 then s
      else (List.range 6).foldl (fun s n =>
        if s.axisOn (32 + n) && s.lv Reg.STN_POLY_DRUM_AXIS n == ax then s.lamStep n dS else s) s
    if ax = 38 then (List.range 4).foldl (fun s k => s.htrDue k) s else s

/-- One channel clock edge of axis `ax` (R78); on AX39 device time advances by 2 ns, in Moored by the 40 ns of the always-on clock
(R76, R311), where no other axis moves; a power request that was held is taken at an edge at which no crossing is live (R9). -/
def axisUpdateEff (ax : Nat) (s : State) : State :=
  let moored := s.rd Reg.PWR_STAT_MODE == 2
  if 64 ≤ ax ∨ (moored ∧ ax ≠ 39) then s
  else if ax = 39 then
    (({ s with now := s.now + (if moored then 40 else 2), edgeRegs := s.regs, edgeSw := [], edgeLive := none }).axisEdge 39).pwrTake
  else s.axisEdge ax

def execAxisUpdate (ax : Nat) (s : State) : Host.Outcome State Fault Refusal := .next (axisUpdateEff ax s)

/-- Axis `ax` is set to `p`, not as a movement: what was due at this edge is decided first, and from the next edge on its entries are
compared with `p` (R84, R87, R390). -/
def State.axisSet (s : State) (ax p : Nat) : State :=
  let s := (s.decideDue noFresh).axisRef ax p
  { s with tideFresh := (s.tideFresh.filter fun x => x.1 != ax) ++ [(ax, s.now, p)] }

/-- Where a re-zero to `p` leaves axis `ax` (R254): a count of its port at this edge, which P already shows, is added after it. -/
def State.rezeroPos (s : State) (ax p : Nat) : Nat :=
  let x := s.encs (s.lv Reg.AXIS_CFG_PORT ax)
  if s.lon Reg.AXIS_CFG_EN ax && x.times.head? == some s.now && s.rd Reg.AXIS_POS ax == s.axisCount ax then
    unsigned 40 (p + (if s.lon Reg.AXIS_CFG_INVERT ax then -x.dir else x.dir))
  else p

/-- REZERO of axis 40–63 to `p` at this edge (R84, R254, R272); on an axis that is not enabled no port moves (log 77). -/
def State.rezeroTo (s : State) (ax p : Nat) : State :=
  let p := s.rezeroPos ax p
  let off := (p + pos40 - s.rd Reg.AXIS_POS ax) % pos40
  let s := if s.lon Reg.AXIS_CFG_EN ax then
      s.encRezero (s.lv Reg.AXIS_CFG_PORT ax) (if s.lon Reg.AXIS_CFG_INVERT ax then (pos40 - off) % pos40 else off)
    else s
  (List.range 128).foldl (fun s l => if s.lon Reg.LOOP_CFG_EN l then s.loopWrite l [.rezero ax off] else s) (s.axisSet ax p)

/-- REZERO (R84). -/
def rezeroEff (s : State) : State :=
  s.actStatus 0x06 fun d s => (St.ok, s.rezeroTo d.e.target d.e.arg)

def execRezero (s : State) : Host.Outcome State Fault Refusal := .next (rezeroEff s)

/-- A commit enabled axis `ax`, or changed the port or inversion of an enabled one (R390). -/
def State.axisReref (s : State) (ax : Nat) : State := s.axisSet ax (s.axisCount ax)

/-! ### History and conversion (R80–R82) -/

/-- What a conversion finds (R81): the position in 1/256 count, a failure, or that it waits for its sample. -/
inductive Conv where
  | ok (p256 : Nat)
  | noLane | stale | disc | future | wait
deriving DecidableEq, Repr

/-- The lowest enabled lane that selects `ax` (R82). -/
def State.lane (s : State) (ax : Nat) : Option Nat :=
  (List.range 16).find? fun l => s.on Reg.AXIS_HIST_SEL_EN (l / 4) (l % 4) && s.rd Reg.AXIS_HIST_SEL_AXIS (l / 4) (l % 4) == ax

/-- Convert device time `t` (40 bits) to a position on axis `ax` (R81). -/
def State.convert (s : State) (ax t : Nat) : Conv :=
  match s.lane ax with
  | none => .noLane
  | some l =>
    if posAhead t s.stamp then .future
    else if s.now < posDist s.stamp t then .stale
    else
      let t := s.now - posDist s.stamp t
      let k := t / 50000
      let h := tget [] s.hist l
      match h.find? (fun x => x.1 == k), h.find? (fun x => x.1 == k + 1) with
      | some a, some b =>
        if b.2.2 then .disc
        else .ok ((((a.2.1 * 256 : Nat) : Int) + (((t % 50000 : Nat) : Int) * posDiff b.2.1 a.2.1 * 256 + 25000) / 50000) % (2 ^ 48 : Nat)).toNat
      | none, _ => if s.histK ≤ k then .wait else .stale
      | some _, none => if s.histK ≤ k + 1 then .wait else .stale

/-- A mark reading at position `p256` (R140, R141); it leaves R alone where a host write of REG_OFS meets it at this edge. -/
def State.markRead (s : State) (w : MarkWin) (p256 : Nat) : State :=
  let n := w.stn
  let d := signed 48 ((p256 + 2 ^ 48 - (w.pos + w.exp) % pos40 * 256) % 2 ^ 48)
  let e := nearest (d * s.rd Reg.STN_REG_SCALE_SCALE n) (2 ^ 24)
  let s := (s.cnt Reg.STN_MARK_CNT_OK n).wrI Reg.STN_REG_STAT_LAST_ERR e n
  let s := if !s.on Reg.STN_REG_CFG_REG_EN n || s.swWrote Reg.STN_REG_OFS_R n then s
    else
      let lim : Int := s.rd Reg.STN_REG_CFG_REG_LIMIT n
      let r := s.rdI Reg.STN_REG_OFS_R n - halfAway (e * min 16 (s.rd Reg.STN_REG_CFG_GAIN n)) 16
      s.wrI Reg.STN_REG_OFS_R (max (-lim) (min lim r)) n
  if (s.stns n).expo.isSome then s else s.fTargetUpdate n

/-- An edge at device time `t` is the reading of window `w` (R140): converted now, or once its history sample is taken. -/
def State.markTake (s : State) (w : MarkWin) (t : Nat) : State :=
  let put (v : MarkWin) (s : State) : State := { s with marks := s.marks.map fun x => if x == w then v else x }
  match s.convert w.axis t with
  | .ok p => (put { w with got := true, edge := none } s).markRead w p
  | .wait => put { w with got := true, edge := some t } s
  | _ => (put { w with got := true, edge := none } s).cnt Reg.STN_MARK_CNT_FAIL w.stn

/-- The Fenlink point behind sheet sensor `i`: port and node, `none` for a local or disabled sensor (R320, R340). -/
def State.sheetNode (s : State) (i : Nat) : Option (Nat × Nat) :=
  let n := s.lv Reg.IO_SHEET_INPUT i
  if s.lon Reg.IO_SHEET_EN i && decide (64 ≤ n) && s.lon Reg.IO_PTMAP_EN (n - 64) then
    some (s.lv Reg.IO_PTMAP_PORT (n - 64), s.lv Reg.IO_PTMAP_NODE (n - 64))
  else none

/-- The Fenlink node behind mark sensor `m`: port and node (R139, R320). -/
def State.markNode (s : State) (m : Nat) : Option (Nat × Nat) :=
  if s.on Reg.MARK_SRC_EN m && s.on Reg.MARK_SRC_SRC m then some (s.rd Reg.MARK_SRC_PORT m, s.rd Reg.MARK_SRC_NODE m) else none

/-- A window closes without a reading (R140). -/
def State.markFail (s : State) (w : MarkWin) : State :=
  ({ s with marks := s.marks.filter fun x => x != w }).cnt Reg.STN_MARK_CNT_FAIL w.stn

/-- A sheet edge of a Fenlink point at device time `t` (R320): `none` while a conversion waits for its history sample. -/
def State.flSheet (s : State) (p i : Nat) (covered : Bool) (t : Nat) : Option State :=
  let cv := ((s.winsOn i).filter fun x => !x.2.closed).map fun x => (x, s.convert x.2.axis t)
  if cv.any fun x => x.2 == .wait then none
  else
    let s := if cv.any fun x => (match x.2 with | .ok _ => false | _ => true) then s.cnt Reg.FL_CNT3_CONV_FAIL p else s
    let ins := (cv.filter fun x => match x.2 with
      | .ok q => posReached (q / 256) x.1.2.openPos && !posReached (q / 256) x.1.2.closePos
      | _ => false).map (·.1)
    match ins.find? fun x => !x.2.sat && x.2.sense == !covered with
    | some (c, w) => some (s.satisfy c w)
    | none => some (if ins.isEmpty then s.edgeOutside i covered else s)

/-- A mark edge of a Fenlink point at device time `t` offered to windows in opening order (R140, R320). -/
def State.flMark (p t : Nat) : List MarkWin → State → Option State
  | [], s => some s
  | w :: ws, s =>
    match s.convert w.axis t with
    | .wait => none
    | .ok q =>
      if posReached (q / 256) w.pos && !posReached (q / 256) ((w.pos + w.len) % pos40) then some (s.markTake w t)
      else State.flMark p t ws s
    | _ => some ((s.cnt Reg.FL_CNT3_CONV_FAIL p).markTake w t)

/-- IO input `n` reads point `i` of node `a` on port `p` (R339). -/
def State.mapped (s : State) (n p a i : Nat) : Bool :=
  decide (64 ≤ n) && s.lon Reg.IO_PTMAP_EN (n - 64) && s.lv Reg.IO_PTMAP_PORT (n - 64) == p && s.lv Reg.IO_PTMAP_NODE (n - 64) == a &&
    s.lv Reg.IO_PTMAP_POINT (n - 64) == i

/-- Run `f` over a list; `none` as soon as it answers none. -/
def runAll {α : Type} (f : State → α → Option State) : List α → State → Option State
  | [], s => some s
  | x :: xs, s => match f s x with
    | none => none
    | some s => runAll f xs s

/-- An edge on point `i` of a node reaches every sensor that reads it (R320, R339, R340); `none` while one must wait. -/
def State.flEdge (s : State) (p a i : Nat) (level : Bool) (t : Nat) : Option State :=
  let sh := (List.range 32).filter fun k => s.lon Reg.IO_SHEET_EN k && s.mapped (s.lv Reg.IO_SHEET_INPUT k) p a i
  let mk := (List.range 16).filter fun m => s.markNode m == some (p, a) && s.rd Reg.MARK_SRC_POINT m == i
  match runAll (fun s k => s.flSheet p k (level == s.lon Reg.IO_SHEET_COVER_LVL k) t) sh s with
  | none => none
  | some s => runAll (fun s m => State.flMark p t (s.marks.filter fun w => w.sensor == m && !w.got && w.sense == !level) s) mk s

/-- Windows on a node's sensors whose close waits for it, and was issued before `t`, close (R320). -/
def State.flClose (s : State) (p a t : Nat) : State :=
  let ws := s.crossings.flatMap fun c => (c.wins.filter fun w => !w.closed && s.sheetNode w.sensor == some (p, a) &&
    (match w.wait with | some t0 => decide (t0 < t) | none => false)).map fun w => (c.crx, w.id)
  let s := ws.foldl (fun s x => s.closeWin x.1 x.2) s
  (s.marks.filter fun w => s.markNode w.sensor == some (p, a) &&
    (match w.wait with | some t0 => decide (t0 < t) | none => false)).foldl (fun s w =>
      if w.got then { s with marks := s.marks.filter fun x => x != w } else s.markFail w) s

/-- Take what Fenlink replies brought, in order; a node's later events wait behind one that cannot be converted yet. -/
def State.flTake : List (Nat × Nat × FlEv) → State → State
  | [], s => s
  | (p, a, e) :: es, s =>
    if s.flWait.any fun x => x.1 == p && x.2.1 == a then State.flTake es { s with flWait := s.flWait ++ [(p, a, e)] }
    else match e with
      | .reply t => State.flTake es (s.flClose p a t)
      | .edge i l t => match s.flEdge p a i l t with
        | some s => State.flTake es s
        | none => State.flTake es { s with flWait := s.flWait ++ [(p, a, e)] }

/-- The events that wait are tried again with `es` behind them. -/
def State.flRun (s : State) (es : List (Nat × Nat × FlEv)) : State := State.flTake (s.flWait ++ es) { s with flWait := [] }

/-- Every 50,000 ns each enabled lane stores the P of its axis, once (R80); readings that waited for it are
converted (R81, R140). -/
def axisHistorySampleEff (s : State) : State :=
  let k := s.now / 50000
  if s.now % 50000 ≠ 0 ∨ k < s.histK then s
  else
    let s := (List.range 16).foldl (fun (s : State) l =>
      if s.on Reg.AXIS_HIST_SEL_EN (l / 4) (l % 4) then
        let ax := s.rd Reg.AXIS_HIST_SEL_AXIS (l / 4) (l % 4)
        { s with hist := tput [] s.hist l (((k, s.rd Reg.AXIS_POS ax, tget false s.axDisc ax) :: tget [] s.hist l).take 1024) }
      else s) s
    let s := { s with histK := k + 1, axDisc := [] }
    let s := s.marks.foldl (fun s w => match w.edge with
      | some t => s.markTake w t
      | none => s) s
    s.flRun []

def execAxisHistorySample (s : State) : Host.Outcome State Fault Refusal := .next (axisHistorySampleEff s)

/-- AXIS_CONVERT (R82); where its sample is not yet taken the descriptor is not started yet (log 25). -/
def axisConvertEff (n : Nat) (s : State) : State :=
  let s0 := s
  s.withDesc n 0x23 fun j s =>
    if !(dget j.d 16 6 2 == 0 && dZero j.d 17 24 && dget j.d 24 40 24 == 0 && dZero j.d 32 64) then s.complete j St.badDesc
    else match s.convert (dget j.d 16 0 6) (dget j.d 24 0 40) with
      | .ok p => s.complete j St.ok (p % 256 + 2 ^ 8 * (p / 256))
      | .noLane => s.complete j St.refusedState
      | .stale => s.complete j St.refusedState (2 ^ 48)
      | .disc => s.complete j St.refusedState (2 ^ 49)
      | .future => s.complete j St.refusedState (2 ^ 50)
      | .wait => s0

def execAxisConvert (n : Nat) (s : State) : Host.Outcome State Fault Refusal := .next (axisConvertEff n s)

/-! ### Writing and removing entries (R89, R90) -/

/-- An entry is near at this edge (R88). -/
def State.near (s : State) (e : TEntry) : Bool :=
  let sp := s.rd Reg.AXIS_SCHED e.axis
  posAhead e.pos sp && decide (posDist e.pos sp < s.lv Reg.AXIS_GUARD_GUARD e.axis)
def State.behind (s : State) (e : TEntry) : Bool := posReached (s.rd Reg.AXIS_SCHED e.axis) e.pos

/-- AXIS_CFG.EN as it stands (R79): on AX0–AX39 the source unit is configured. -/
def State.axisEn (s : State) (ax : Nat) : Bool :=
  if ax < 16 then s.lon Reg.DRV_CFG_EN ax else if ax < 32 then s.lon Reg.STP_CFG_EN (ax - 16)
  else if ax < 38 then s.stnOn (ax - 32) else if ax < 40 then true else s.lon Reg.AXIS_CFG_EN ax

/-- The state of the live crossing of an id, abandonment apart; 0 where there is none. -/
def State.crxState (s : State) (crx : Nat) : Nat :=
  match s.live? crx with
  | some c => if c.abandon.isSome then 6 else c.state
  | none => 0

/-- The entry slots of a TIDE_INSERT or MANIFEST_TIDE that are used (R89): index and entry. -/
def slots (d : Desc) : List (Nat × TEntry) :=
  (if dget d 16 15 1 = 1 then [(dget d 16 0 13, entryAt d 32)] else []) ++
    if dget d 18 15 1 = 1 then [(dget d 18 0 13, entryAt d 48)] else []

/-- Reserved fields of a TIDE_INSERT or MANIFEST_TIDE are zero. -/
def slotsZero (d : Desc) : Bool := dget d 16 13 2 == 0 && dget d 18 13 2 == 0 && dZero d 20 32

/-- The BAD_DESC row of R89. -/
def slotsBad (d : Desc) : Bool :=
  let es := slots d
  (match es with | [a, b] => a.1 == b.1 | _ => false) || es.any fun x => !entryOk x.2 || x.2.crx != dCrx d

/-- TIDE_INSERT (R85, R88, R89): word writes follow R21. -/
def tideInsertEff (n : Nat) (s : State) : State :=
  s.withDesc n 0x20 fun j s =>
    let es := slots j.d
    if !slotsZero j.d || slotsBad j.d then s.complete j St.badDesc
    else if es.any fun x => !s.axisEn x.2.axis || (x.2.crx != 0 && s.crxState x.2.crx != 2) then s.complete j St.refusedState
    else if es.any fun x => s.entryFenced x.2 then s.complete j St.fenced
    else if es.any fun x => s.occupied x.1 then s.complete j St.overlap
    else
      let nr := es.map fun x => s.near x.2
      let bh := es.map fun x => s.behind x.2
      let onlyB := dget j.d 16 15 1 == 0
      let bit (l : List Bool) : Nat :=
        let v := (if l.getD 0 false then 1 else 0) + (if l.getD 1 false then 2 else 0)
        if onlyB then 2 * v else v
      let s := es.foldl (fun s x =>
        let (_, new, s) := s.eccPart 1 (x.1 / 2)
        (if new then s.tideEcc (x.1 / 2) else s).putEntry x.1 x.2 true) s
      let s := s.decideDue fun i _ => es.any fun x => x.1 == i
      let w : TideWait := ⟨j, bit nr + 4 * bit bh, ((es.zip bh).filter fun x => x.2).map fun x => (x.1.1, s.now)⟩
      { s with tideWaits := s.tideWaits ++ [w] }.tideSettle

def execTideInsert (n : Nat) (s : State) : Host.Outcome State Fault Refusal := .next (tideInsertEff n s)

/-- TIDE_REMOVE (R90). -/
def tideRemoveEff (n : Nat) (s : State) : State :=
  s.withDesc n 0x21 fun j s =>
    let us := (List.range 8).filter fun i => dget j.d (16 + 2 * i) 15 1 == 1
    let is := us.map fun i => dget j.d (16 + 2 * i) 0 13
    if ((List.range 8).any fun i => dget j.d (16 + 2 * i) 13 2 != 0) ∨ !dZero j.d 32 64 then s.complete j St.badDesc
    else if is.any fun i => (match s.entry? i with
        | some e => decide (2 ≤ s.crxState e.crx)
        | none => false) then s.complete j St.refusedState
    else
      let s := s.decideDue noFresh
      let (k, s) := is.foldl (fun (x : Nat × State) i =>
        match x.2.entry? i with
        | some e =>
          let (_, new, s) := x.2.eccPart 1 (i / 2)
          if new then (x.1, s.tideEcc (i / 2)) else (x.1 + 1, (s.delEntry i).dropAction e St.missed)
        | none => x) (0, s)
      s.complete j St.ok (k + 16 * (is.length - k))

def execTideRemove (n : Nat) (s : State) : Host.Outcome State Fault Refusal := .next (tideRemoveEff n s)

/-- AXIS_REZERO (R90); on a port that is boomed or laid up the action is fenced (R92, log 26). -/
def axisRezeroEff (n : Nat) (s : State) : State :=
  s.withDesc n 0x22 fun j s =>
    let ax := dget j.d 16 0 6
    if ax < 40 ∨ !(dget j.d 16 6 2 == 0 && dZero j.d 17 24 && dget j.d 24 40 24 == 0 && dZero j.d 32 64) then s.complete j St.badDesc
    else if s.entries.any fun x => x.2.axis == ax && decide (2 ≤ s.crxState x.2.crx) then s.complete j St.refusedState
    else if s.fenced (38 + s.lv Reg.AXIS_CFG_PORT ax) then s.complete j St.fenced
    else (s.rezeroTo ax (dget j.d 24 0 40)).complete j St.ok

def execAxisRezero (n : Nat) (s : State) : Host.Outcome State Fault Refusal := .next (axisRezeroEff n s)

/-! ### Unit actions of later chapters -/

/-- HV_STEP (R287). -/
def hvStepEff (s : State) : State :=
  s.actStatus 0x20 fun d s =>
    let (ok, s) := s.hvStepTo d.e.target (signed 16 (d.e.arg % 2 ^ 16)) (d.e.arg / 2 ^ 16)
    (if ok then St.ok else St.refusedState, s)

def execHvStep (s : State) : Host.Outcome State Fault Refusal := .next (hvStepEff s)

/-- HTR_STEP (R294). -/
def htrStepEff (s : State) : State :=
  s.actStatus 0x21 fun d s =>
    let (ok, s) := s.htrStepTo d.e.target d.e.arg
    (if ok then St.ok else St.refusedState, s)

def execHtrStep (s : State) : Host.Outcome State Fault Refusal := .next (htrStepEff s)

/-- MOTION_START (R230): it takes effect, and has its record, at the next sample of its axis (R226). -/
def motionStartEff (s : State) : State :=
  s.act 0x28 fun d s =>
    if s.actFenced d then s.actRefuse d St.fenced else s.motAsk d.e.target (.tide d) (.profile (d.e.arg % 4096))

def execMotionStart (s : State) : Host.Outcome State Fault Refusal := .next (motionStartEff s)

/-- MOTION_STOP as a tide action (R232). -/
def tideMotionStopEff (s : State) : State := s.actStatus 0x29 fun d s => (St.ok, s.motStop d.e.target 3)

def execTideMotionStop (s : State) : Host.Outcome State Fault Refusal := .next (tideMotionStopEff s)

/-- LAW_PARAM (R274). -/
def lawParamEff (s : State) : State :=
  s.actStatus 0x30 fun d s =>
    match s.lawParamStatus d.e.target with
    | 0 => (St.ok, s.lawParamWrite d.e.target d.e.arg)
    | r => (r, s)

def execLawParam (s : State) : Host.Outcome State Fault Refusal := .next (lawParamEff s)

/-- EMU_GATE (R260); a host write of GATE at this edge wins (R66). -/
def emuGateEff (s : State) : State :=
  s.actStatus 0x38 fun d s =>
    let e := d.e.target
    (St.ok, if s.swWrote Reg.EMU_CFG_GATE e then s else (s.wr Reg.EMU_CFG_GATE (d.e.arg % 2) e).emuCfg s e)

def execEmuGate (s : State) : Host.Outcome State Fault Refusal := .next (emuGateEff s)

end Sys2Proof.Machine
end

