-- ==== Sys2Proof/Machine/Crossing.lean ====
section
/-! DEFINITION. Crossings from boarding to landing (R97–R124): manifests, boarding, cast-off, windows, landing, and the two kinds of
abandonment. Exposure is in Station.lean. -/

namespace Sys2Proof.Machine

/-! ### Reading a manifest (R100–R105) -/

/-- A manifest's descriptors with an opcode. -/
def ofKind (ms : List Job) (opc : Nat) : List Desc := (ms.map (·.d)).filter fun d => dOpc d == opc

def hdStations (h : Desc) : Nat := dget h 16 0 6
def hdPath (h : Desc) : Bool := dget h 17 0 1 == 1
def hdWin (h : Desc) : Nat := dget h 18 0 4
def hdTide (h : Desc) : Nat := dget h 19 0 7

/-- The order of R100: kinds, LINK, and station descriptors that match STATIONS; every descriptor carries the head's CRX. -/
def orderOk (h : Desc) (ms : List Desc) : Bool :=
  let kinds := List.replicate (popcount (hdStations h) 6) 0x02 ++ (if hdPath h then [0x03] else []) ++
    List.replicate (hdWin h) 0x04 ++ List.replicate (hdTide h) 0x05
  ms.map dOpc == kinds && (ms.filter fun d => dOpc d == 0x02).map (fun d => dget d 16 0 3) == bitsOf (hdStations h) 6 &&
    ms.all fun d => dCrx d == dCrx h

/-- A MANIFEST_STATION (R102). -/
def partOf (d : Desc) : Part where
  stn := dget d 16 0 3
  tags := dget d 16 3 1 == 1
  lvlBits := dget d 16 4 2
  lpi := dget d 17 0 2
  dotSet := dget d 17 2 2
  width := dget d 20 0 32
  lines := dget d 24 0 24
  stride := dget d 28 0 32
  lvlBase := dget d 32 0 64
  tagBase := dget d 40 0 64
  start := dget d 48 0 40
  first := dget d 48 40 24
  endPos := dget d 56 0 40
  next0 := 0
  next1 := 0
  begun := false
  done := false
  met := false

/-- The valid windows of the MANIFEST_WINDOW descriptors, numbered from 0 (R104). -/
def winsOf (ds : List Desc) : List Win :=
  ((ds.flatMap fun d => ([16, 32, 48].filter fun b => dget d b 63 1 == 1).map fun b => (d, b)).zipIdx).map fun x =>
    let (d, b) := x.1
    ⟨x.2, dget d b 40 6, dget d b 46 5, dget d b 51 1 == 1, dget d b 0 40, dget d (b + 8) 0 40, false, false, false, none⟩

/-- Check 0x02 of R106 for the head. -/
def headOk2 (h : Desc) : Bool :=
  dget h 16 6 2 == 0 && dget h 17 2 6 == 0 && decide (hdWin h ≤ 8) && dget h 18 4 4 == 0 && decide (hdTide h ≤ 64) &&
    dget h 19 7 1 == 0 && dget h 20 13 3 == 0 && dget h 22 6 2 == 0 && dZero h 23 24 && dget h 24 40 24 == 0 &&
    dget h 32 40 24 == 0 && decide (1 ≤ dget h 40 0 32) && decide (dget h 40 0 32 ≤ 1000000) && dZero h 50 64

/-- Check 0x02 of R106 for a station descriptor (R102). -/
def stationOk2 (d : Desc) : Bool :=
  let p := partOf d
  (p.lvlBits == 1 || p.lvlBits == 2) && dget d 16 6 2 == 0 && p.lpi != 3 && dget d 17 4 4 == 0 && dZero d 18 20 &&
    decide (1 ≤ p.width) && decide (p.width ≤ 31200) && decide (1 ≤ p.lines) && dget d 24 24 8 == 0 && p.stride % 64 == 0 &&
    decide (p.rowL ≤ p.stride) && decide (p.rowT ≤ p.stride) && p.lvlBase % 64 == 0 && p.tagBase % 64 == 0 &&
    (p.tags || p.tagBase == 0) && dget d 56 40 24 == 0

/-- Check 0x02 of R106 for path and window descriptors (R104). -/
def pathOk2 (d : Desc) : Bool := dget d 16 0 32 != 0 && dZero d 21 24 && dZero d 32 64
def windowOk2 (d : Desc) : Bool :=
  [16, 32, 48].all fun b =>
    if dget d b 63 1 = 1 then dget d b 52 11 == 0 && dget d (b + 8) 40 24 == 0 else dZero d b (b + 16)

/-- The generated block of R105: offset in the block and entry. -/
def generated (c : Crossing) : List (Nat × TEntry) :=
  let mk (off pos ax act target arg : Nat) : Nat × TEntry := (off, ⟨pos, ax, act, false, c.eq, target, arg, c.crx⟩)
  let n := c.parts.length
  [mk 0 c.castPos c.castAxis 0x10 0 0] ++
    (c.parts.zipIdx.flatMap fun x =>
      [mk (1 + 2 * x.2) x.1.start c.castAxis 0x11 x.1.stn x.1.first, mk (2 + 2 * x.2) x.1.endPos c.castAxis 0x12 x.1.stn x.1.last]) ++
    (c.wins.zipIdx.flatMap fun x =>
      let arg := x.1.id + (if x.1.sense then 2 ^ 8 else 0)
      [mk (1 + 2 * n + 2 * x.2) x.1.openPos x.1.axis 0x13 x.1.sensor arg,
       mk (2 + 2 * n + 2 * x.2) x.1.closePos x.1.axis 0x14 x.1.sensor arg]) ++
    [mk (1 + 2 * n + 2 * c.wins.length) c.landPos c.castAxis 0x15 0 0]

/-- The crossing that a manifest describes (R101–R104); slot and times are given as it enters boarding. -/
def crossingOf (ms : List Job) : Crossing :=
  let j := ms.headD ⟨0, 0, 0, 0⟩
  let h := j.d
  let p := (ofKind ms 0x03).headD 0
  { crx := dCrx h, state := 1, status := St.ok, eq := j.eq, chain := ms, stations := hdStations h, subst := dget h 17 1 1 == 1,
    path := hdPath h, segMask := dget p 16 0 32, profile := dget p 20 0 8, stopAxes := dget p 24 0 32, hvRest := dget p 28 0 32,
    castAxis := dget h 22 0 6, castPos := dget h 24 0 40, landPos := dget h 32 0 40, speed := dget h 40 0 32, fill := dget h 48 0 16,
    deadline := 0, genIdx := dget h 20 0 13, parts := (ofKind ms 0x02).map partOf, wins := winsOf (ofKind ms 0x04), details := [],
    overflow := 0, castSeq := 0, slot := 0, stateTime := 0, lost := 0, expMask := 0, abandon := none, uses := [] }

/-- Words of a line of a part: level row, tag row (R165). -/
def Part.wordsL (p : Part) : Nat := (p.rowL + 31) / 32
def Part.wordsT (p : Part) : Nat := (p.rowT + 31) / 32

/-- A station's capacity in a part's format, in lines (R165). -/
def State.capacity (s : State) (p : Part) : Nat :=
  let w := p.wordsL + p.wordsT
  if w = 0 then 0 else s.shareWords p.stn / w

/-- Lines that boarding asks for on a part's station (R108). -/
def State.fillGoal (s : State) (c : Crossing) (p : Part) : Nat := min (if c.fill = 0 then s.capacity p else c.fill) p.lines

/-! ### The checks of R106 -/

/-- Boarding is open (R9, R106 check 0x10). -/
def State.boardingOpen (s : State) : Bool :=
  s.rd Reg.PWR_STAT_MODE == 0 && !s.on Reg.PWR_STAT_HELD && !s.on Reg.PWR_STAT_CHANGING && !s.abLatched && !s.on Reg.SEQ_STAT_EBB

/-- The commit units and nodes (unit, node address) that check 0x20 of R106 and R363 take a crossing with entries `es` to use: named
stations, target units, and the ports and nodes behind Fenlink points, sheet sensors and mark sensors. -/
def State.usesOf (s : State) (c : Crossing) (es : List TEntry) : List (Nat × Nat) :=
  let node (x : Nat × Nat) : List (Nat × Nat) := [(114 + x.1, 0), (0xF0 + x.1, x.2)]
  (c.parts.map fun p => (p.stn, 0)) ++ (es.filterMap s.targetUnit).map (·, 0) ++
  (es.flatMap fun e =>
    if (e.action = 1 ∨ e.action = 2) ∧ 64 ≤ e.target then
      node (s.lv Reg.IO_PTMAP_PORT (e.target - 64), s.lv Reg.IO_PTMAP_NODE (e.target - 64))
    else if e.action = 0x16 then ((s.markNode e.target).map node).getD []
    else []) ++
  c.wins.flatMap fun w => ((s.sheetNode w.sensor).map node).getD []

/-- A lay-up that waits names a unit or node of the list (R363). -/
def State.layupHolds (s : State) (us : List (Nat × Nat)) : Bool :=
  s.layups.any fun l => !l.applied && us.contains (l.unit, l.node)

/-- A list holds an index twice. -/
def hasDup : List Nat → Bool
  | [] => false
  | x :: xs => xs.contains x || hasDup xs

/-- The first failing row of R106 for a chain whose order is right: check code and status; `none` where it passes. -/
def State.manifestCheck (s : State) (ms : List Job) : Option (Nat × Nat) :=
  let c := crossingOf ms
  let h := (ms.headD ⟨0, 0, 0, 0⟩).d
  let tide := (ofKind ms 0x05).flatMap slots
  let gen := generated c
  let G := gen.length
  let all := (gen.map fun x => (c.genIdx + x.1, x.2)) ++ tide
  let sAx := s.rd Reg.AXIS_SCHED c.castAxis
  let segs := bitsOf c.segMask 32
  if !headOk2 h || !(ofKind ms 0x02).all stationOk2 || !(ofKind ms 0x03).all pathOk2 || !(ofKind ms 0x04).all windowOk2 ||
      !(ofKind ms 0x05).all slotsZero then some (0x02, St.badDesc)
  else if !posAhead c.landPos c.castPos || (c.parts.any fun p => !posAhead p.endPos p.start) ||
      (c.wins.any fun w => !posAhead w.closePos w.openPos) then some (0x03, St.badDesc)
  else if 8191 < c.genIdx + G - 1 || hasDup (tide.map (·.1)) || (tide.any fun x => decide (c.genIdx ≤ x.1) && decide (x.1 < c.genIdx + G)) then
    some (0x04, St.badDesc)
  else if (ofKind ms 0x05).any slotsBad then some (0x05, St.badDesc)
  else if !s.boardingOpen then some (0x10, St.refusedState)
  else if 24 ≤ s.liveCrx.length || 32 ≤ s.crossings.length then some (0x11, St.refusedState)
  else if s.crossings.any fun x => x.crx == c.crx then some (0x12, St.refusedState)
  else if !s.axisEn c.castAxis || (c.wins.any fun w => !s.axisEn w.axis) || (tide.any fun x => !s.axisEn x.2.axis) then
    some (0x13, St.refusedState)
  else if (c.parts.any fun p => !s.stnOn p.stn || s.refusing p.stn || bitOf (s.rd Reg.STN_DOT_STAT_SET_BAD p.stn) p.dotSet) ||
      (s.unitBad.any fun x => tget false s.poison (wordKey 2 x.2) &&
        ((tide.any fun e => s.targetUnit e.2 == some x.1) || (decide (6 ≤ x.1) && decide (x.1 < 38) && bitOf c.stopAxes (x.1 - 6)) ||
          (decide (78 ≤ x.1) && decide (x.1 < 110) && bitOf c.hvRest (x.1 - 78)))) then some (0x14, St.refusedState)
  else if c.parts.any fun p => p.lpi != s.lv Reg.STN_SCAN_CFG_LPI p.stn then some (0x15, St.refusedState)
  else if !(posAhead c.castPos sAx && decide (s.lv Reg.AXIS_GUARD_GUARD c.castAxis ≤ posDist c.castPos sAx)) then some (0x16, St.refusedState)
  else if (c.parts.any fun p => s.fenced p.stn) || (all.any fun x => s.entryFenced x.2) || s.layupHolds (s.usesOf c (all.map (·.2))) then some (0x20, St.fenced)
  else if segs.any fun k => s.jams.any fun x => x.1 == k then some (0x21, St.fenced)
  else if all.any fun x => s.occupied x.1 then some (0x30, St.overlap)
  else if s.liveCrx.any fun x => (x.segMask &&& c.segMask) != 0 && x.profile != c.profile then some (0x31, St.overlap)
  else if s.rd Reg.HOSTIF_BUDGET_CAP_CAP < s.budget (s.liveCrx ++ [c]) then some (0x40, St.refusedBudget)
  else if c.parts.any fun p => s.capacity p == 0 || decide (s.capacity p < min c.fill p.lines) then some (0x41, St.refusedBudget)
  else none

/-- Every descriptor of a chain completes with `status`, the head's with a check code (R106). -/
def State.refuseChain (s : State) (ms : List Job) (code status : Nat) : State :=
  match ms with
  | [] => s
  | h :: t => t.foldl (fun s j => s.complete j status) (s.complete h status code)

/-- The least number below `n` that `used` does not hold. -/
def lowestFree (n : Nat) (used : List Nat) : Nat := ((List.range n).find? fun i => !used.contains i).getD 0

/-- An earlier live crossing that names station `n` has lines still to be fetched or written: a crossing behind it is queued (R108). -/
def State.queued (s : State) (n : Nat) : Bool := s.liveCrx.any fun x => x.parts.any fun q => q.stn == n && !q.done

/-- A crossing enters boarding (R98, R106): its record is produced, then its entries are written; an uncorrectable word met by that
ends what uses it (R21), and where that is this crossing nothing more is written. -/
def State.enterBoarding (s : State) (ms : List Job) : State :=
  let c := crossingOf ms
  let h := (ms.headD ⟨0, 0, 0, 0⟩).d
  let t := dget h 44 0 32
  let c := { c with deadline := s.now + 1000000 * (if t = 0 then 500 else t), stateTime := s.stamp,
                    slot := lowestFree 32 (s.crossings.map (·.slot)),
                    parts := c.parts.map fun p => { p with met := s.queued p.stn } }
  let es := ((generated c).map fun x => (c.genIdx + x.1, x.2)) ++ (ofKind ms 0x05).flatMap slots
  let c := { c with uses := s.usesOf c (es.map (·.2)) }
  let s := { s with crossings := s.crossings ++ [c] }.budgetShow
  let s := (s.crxRecord c St.ok (s.rd Reg.HOSTIF_BUDGET_USED_USED)).chartChange
  es.foldl (fun s x =>
    if (s.live? c.crx).isNone then s
    else
      let (_, new, s) := s.eccPart 1 (x.1 / 2)
      let s := if new then s.tideEcc (x.1 / 2) else s
      if (s.live? c.crx).isNone then s else s.putEntry x.1 x.2 false) s

/-- A manifest chain has been read whole: it is checked, and boards or stays drafted (R98, R106). -/
def State.boardCheck (s : State) (ms : List Job) : State :=
  match s.manifestCheck ms with
  | some (code, status) => s.refuseChain ms code status
  | none => s.enterBoarding ms

/-- Boarding requests are taken: the ferryman runs (R25) and no image switch is pending (R360). -/
def State.boardsNow (s : State) : Bool := s.boot.running && s.boot.switch.isNone

/-- MANIFEST_HEAD (R100, R101, R106): the chain's order is judged from the accepted descriptors. -/
def manifestHeadEff (n : Nat) (s : State) : State :=
  if !s.boardsNow then s
  else s.withDesc n 0x01 fun j s =>
    let q := s.sqs n
    let k := dLink j.d
    let ms := q.accepted.take k
    if !orderOk j.d ms then
      (s.setSq n { q with accepted := q.accepted.drop k, running := q.running + ms.length }).refuseChain
        (j :: ms.map fun d => { j with d := d }) 0x01 St.badDesc
    else if k = 0 then s.boardCheck [j]
    else s.setSq n { q with manifest := [j] }

def execManifestHead (n : Nat) (s : State) : Host.Outcome State Fault Refusal := .next (manifestHeadEff n s)

/-- A further descriptor of the chain under assembly on ring `n` (R100); with the last one the chain is judged. Outside a chain it
completes with BAD_DESC. FLG.FENCE waits for the descriptors ahead of the chain (R39, log 103). -/
def State.member (s : State) (n opc : Nat) : State :=
  let q := s.sqs n
  match q.manifest with
  | [] => s.withDesc n opc fun j s => s.complete j St.badDesc 0x01
  | h :: _ =>
    match q.accepted with
    | [] => s
    | d :: ds =>
      if dOpc d ≠ opc ∨ !s.boardsNow ∨ (dFence d ∧ q.running ≠ q.manifest.length) then s
      else
        let ms := q.manifest ++ [⟨n, s.rd Reg.SQ_CFG_EQ n, s.ownSq n, d⟩]
        let fin := decide (dLink h.d < ms.length)
        let s := s.setSq n { q with accepted := ds, running := q.running + 1, manifest := if fin then [] else ms }
        if fin then s.boardCheck ms else s

/-- MANIFEST_STATION (R102). -/
def manifestStationEff (n : Nat) (s : State) : State := s.member n 0x02
def execManifestStation (n : Nat) (s : State) : Host.Outcome State Fault Refusal := .next (manifestStationEff n s)

/-- MANIFEST_PATH (R104). -/
def manifestPathEff (n : Nat) (s : State) : State := s.member n 0x03
def execManifestPath (n : Nat) (s : State) : Host.Outcome State Fault Refusal := .next (manifestPathEff n s)

/-- MANIFEST_WINDOW (R104). -/
def manifestWindowEff (n : Nat) (s : State) : State := s.member n 0x04
def execManifestWindow (n : Nat) (s : State) : Host.Outcome State Fault Refusal := .next (manifestWindowEff n s)

/-- MANIFEST_TIDE (R104). -/
def manifestTideEff (n : Nat) (s : State) : State := s.member n 0x05
def execManifestTide (n : Nat) (s : State) : Host.Outcome State Fault Refusal := .next (manifestTideEff n s)

/-! ### Boarding (R108, R109, R123) -/

/-- The fill condition of R108 on a part's station has been met: it was queued as the crossing entered boarding (no crossing can
come before it later), or its share holds the lines asked for, which stay there. -/
def State.filled (s : State) (c : Crossing) (p : Part) : Bool :=
  p.met || decide (s.fillGoal c p ≤ ((s.stns p.stn).lines.filter fun h => h.crx == c.crx && s.lineIn h).length)

/-- The fill condition is met on every named station (R109). -/
def boardedEff (crx : Nat) (s : State) : State :=
  match s.live? crx with
  | none => s
  | some c =>
    if c.state ≠ 1 ∨ !(c.parts.all fun p => s.filled c p) then s
    else
      let c := { c with state := 2, stateTime := s.stamp }
      let s := s.setCrx { c with chain := [] }
      let mine := (s.entries.filter fun x => x.2.crx == crx).map (·.1)
      let s := { s with tideArmed := mine.foldl (fun t i => tput false t i true) s.tideArmed }
      let s := s.decideDue fun i _ => mine.contains i
      let s := (s.crxRecord { c with details := [] } St.ok (s.castData c)).chartChange
      c.chain.foldl (fun s j => s.complete j St.ok) s

def execBoarded (crx : Nat) (s : State) : Host.Outcome State Fault Refusal := .next (boardedEff crx s)

/-- The bound on boarding has passed (R108). -/
def boardingTimeoutEff (crx : Nat) (s : State) : State :=
  match s.live? crx with
  | none => s
  | some c => if c.state ≠ 1 ∨ s.now < c.deadline then s else (s.toDrafted c St.timeout).pwrTake

def execBoardingTimeout (crx : Nat) (s : State) : Host.Outcome State Fault Refusal := .next (boardingTimeoutEff crx s)

/-- CROSSING_ABANDON (R123). -/
def crossingAbandonEff (n : Nat) (s : State) : State :=
  s.withDesc n 0x08 fun j s =>
    if !dZero j.d 16 64 then s.complete j St.badDesc
    else match s.live? (dCrx j.d) with
      | none => s.complete j St.refusedState
      | some c =>
        if c.state = 1 then ((s.toDrafted c St.refusedState).complete j St.ok).pwrTake
        else if c.state = 2 ∧ c.abandon = none then (s.localAbandon c Cause.host).complete j St.ok
        else s.complete j St.refusedState

def execCrossingAbandon (n : Nat) (s : State) : Host.Outcome State Fault Refusal := .next (crossingAbandonEff n s)

/-- PATH_CLEAR (R119). -/
def pathClearEff (n : Nat) (s : State) : State :=
  s.withDesc n 0x09 fun j s =>
    if !dZero j.d 16 64 then s.complete j St.badDesc
    else if s.jams.any fun x => x.2 == dCrx j.d then
      ({ s with jams := s.jams.filter fun x => x.2 != dCrx j.d }).complete j St.ok
    else s.complete j St.refusedState

def execPathClear (n : Nat) (s : State) : Host.Outcome State Fault Refusal := .next (pathClearEff n s)

/-! ### Cast-off, windows, landing -/

/-- CAST_OFF is issued (R98, R110, R368). -/
def castOffEff (s : State) : State :=
  s.act 0x10 fun d s =>
    match s.live? d.e.crx with
    | none => s
    | some c =>
      if c.state ≠ 2 ∨ c.abandon.isSome then s
      else
        let c := { c with state := 3, castSeq := s.castCount, stateTime := s.stamp }
        let s := ({ s with castCount := s.castCount + 1 }).setCrx c
        let s := if s.rd Reg.GEN_LB_STAT_PENDING = 65535 then s.wr Reg.GEN_LB_STAT_SAT 1 else s.cnt Reg.GEN_LB_STAT_PENDING
        (s.crxRecord c St.ok (s.castData c)).chartChange

def execCastOff (s : State) : Host.Outcome State Fault Refusal := .next (castOffEff s)

/-- WINDOW_OPEN is issued (R117). -/
def windowOpenEff (s : State) : State :=
  s.act 0x13 fun d s =>
    match s.live? d.e.crx with
    | none => s
    | some c => s.setCrx { c with wins := c.wins.map fun w => if w.id == d.e.arg % 256 then { w with opened := true } else w }

def execWindowOpen (s : State) : Host.Outcome State Fault Refusal := .next (windowOpenEff s)

/-- WINDOW_CLOSE is issued (R117); on a Fenlink sensor whose node still serves, an unsatisfied window waits for the node (R320). -/
def windowCloseEff (s : State) : State :=
  s.act 0x14 fun d s =>
    let id := d.e.arg % 256
    match s.live? d.e.crx with
    | none => s
    | some c =>
      match c.wins.find? fun w => w.id == id && !w.closed with
      | none => s
      | some w =>
        match s.sheetNode w.sensor with
        | some (p, a) =>
          if w.sat ∨ s.nodeFenced p a then s.closeWin c.crx id
          else s.setCrx { c with wins := c.wins.map fun v => if v.id == id then { v with wait := some s.now } else v }
        | none => s.closeWin c.crx id

def execWindowClose (s : State) : Host.Outcome State Fault Refusal := .next (windowCloseEff s)

/-- LAND is issued (R116): exposures end, open windows close, and the crossing lands or spoils unless a jam takes it. A window whose
WINDOW_CLOSE has issued is not open (R117); the judgement of its node's reply (R320) comes after the crossing's end (log 93). -/
def landEff (s : State) : State :=
  s.act 0x15 fun d s =>
    match s.live? d.e.crx with
    | none => s
    | some c =>
      if c.state ≠ 3 ∨ c.abandon.isSome then s
      else
        let s := c.parts.foldl (fun s p =>
          if (s.stns p.stn).expo.any fun e => e.crx == c.crx then s.endExpo p.stn .truncated
          else s.partDone c.crx p.stn 0 [] .truncated) s
        let s := (c.wins.filter fun w => w.opened && !w.closed && w.wait.isNone).foldl (fun s w => s.closeWin c.crx w.id) s
        match s.live? c.crx with
        | none => s
        | some c => if c.abandon.isSome then s else (s.landEnd c).pwrTake

def execLand (s : State) : Host.Outcome State Fault Refusal := .next (landEff s)

/-- A filtered, debounced edge of sheet sensor `i` (R117, R340). -/
def sheetEdgeEff (i : Nat) (level : Bool) (ns : Nat) (s : State) : State :=
  let n := s.lv Reg.IO_SHEET_INPUT i
  if 32 ≤ i ∨ !s.lon Reg.IO_SHEET_EN i ∨ 64 ≤ n ∨ ns < 100 * s.lv Reg.IO_GPIO_CFG_FILT n ∨ ns < 1000 * max 1 (s.lv Reg.IO_SHEET_DEBOUNCE i) then s
  else s.sheetJudge i (level == s.lon Reg.IO_SHEET_COVER_LVL i)

def execSheetEdge (sensor : Nat) (level : Bool) (ns : Nat) (s : State) : Host.Outcome State Fault Refusal :=
  .next (sheetEdgeEff sensor level ns s)

/-! ### Abandonment -/

/-- Step 5 of R120: no station exposes the crossing any more. -/
def abandonCompleteEff (crx : Nat) (s : State) : State :=
  match s.live? crx with
  | none => s
  | some c => if c.abandon = none ∨ s.exposing crx ≠ 0 then s else (s.abandonEnd c).pwrTake

def execAbandonComplete (crx : Nat) (s : State) : Host.Outcome State Fault Refusal := .next (abandonCompleteEff crx s)

/-- The cause of the engine-wide abandonment that starts (R122, R332). -/
def engineCause (m : Nat) : Nat :=
  if bitOf m 0 then Cause.ebb else if bitOf m 1 then Cause.refLoss else if bitOf m 2 then Cause.faultA else Cause.faultB

/-- Edge E of R121: every station is to stop at its next line boundary. -/
def engineAbandonEff (s : State) : State :=
  if s.abCauses = 0 ∨ s.eng.isSome then s
  else
    let cause := engineCause s.abCauses
    let s := s.liveCrx.foldl (fun s c => if c.abandon.isSome then s else s.setCrx { c with expMask := s.exposing c.crx }) s
    let s := (List.range 6).foldl (fun s n => s.stnStop n 4) s
    { s with eng := some ⟨cause, s.now⟩, abCauses := 0 }

def execEngineAbandon (s : State) : Host.Outcome State Fault Refusal := .next (engineAbandonEff s)

/-- 1 ms after E (R121): a station still exposing has its laser enable cut, and stops there. -/
def engineAbandonLaserCutEff (s : State) : State :=
  match s.eng with
  | none => s
  | some a =>
    if s.now < a.start + 1000000 then s
    else
      let s := (List.range 6).foldl (fun s n => if (s.stns n).expo.isSome then (s.lenFall n).stopNow n else s) s
      if s.aLatched then s.lensUpdate else s

def execEngineAbandonLaserCut (s : State) : Host.Outcome State Fault Refusal := .next (engineAbandonLaserCutEff s)

/-- Insert a crossing by its id. -/
def idIns (c : Crossing) : List Crossing → List Crossing
  | [] => [c]
  | d :: ds => if c.crx ≤ d.crx then c :: d :: ds else d :: idIns c ds

/-- Steps 2 to 5 of R121, once every station has stopped; with a class A latch the outputs are held from step 4 on (R331). -/
def engineAbandonShutdownEff (s : State) : State :=
  match s.eng with
  | none => s
  | some a =>
    if (List.range 6).any fun n => (s.stns n).expo.isSome then s
    else
      let s := (List.range 32).foldl (fun s h => s.hvZero h) s
      let s := (List.range 32).foldl (fun s m => s.motStop m 4) s
      let s := (List.range 16).foldl (fun s n => s.drvHalt n false) s
      let s := (List.range 4).foldl (fun s k => s.htrDown k) s
      let s := if s.aLatched then { s with graveHold := true } else s
      let s := (s.liveCrx.foldr idIns []).foldl (fun s c =>
        match s.live? c.crx with
        | none => s
        | some c =>
          if c.state = 1 then s.toDrafted c St.refusedState
          else if c.abandon.isSome then s.abandonEnd c
          else
            let lost := (s.owned c.crx).length
            let s := s.dropOwned c.crx St.abandoned
            let s := c.parts.foldl (fun s p => s.feedDrop p.stn c.crx) s
            match s.live? c.crx with
            | none => s
            | some c => s.abandonEnd { c with abandon := some a.cause, lost := lost }) s
      { s with eng := none }.pwrTake

def execEngineAbandonShutdown (s : State) : Host.Outcome State Fault Refusal := .next (engineAbandonShutdownEff s)

end Sys2Proof.Machine
end

