-- ==== Sys2Proof/Machine/Frame.lean ====
section
/-! DEFINITION. What a station puts on its port for a group of lines: reading rows from the Hold (R163, R165, R169), dot codes (R170,
R171), offsets and stagger (R177, R178), mirroring (R137), Beam Link frames (R184, R185) and the pulses of a direct port (R173,
R174, R192). -/

namespace Sys2Proof.Machine

/-- A beam row that writes a line in a sweep: its emitter and the dot codes of pixels 0 to WIDTH − 1 in image order, `none` where the
pixel stays dark (R170). -/
structure Beam where
  em : Nat
  codes : List (Option Nat)
deriving DecidableEq, Repr

/-! ### Words of the Hold -/

/-- The word of the Hold at place `w` of station `n`'s share (R165). -/
def State.shareWord (s : State) (n w : Nat) : Nat := s.lv Reg.STN_HOLD_CFG_HOLD_BASE n * 2048 + w % max 1 (s.shareWords n)

/-- Read `k` words of a share from place `w`: the words, `none` where one is poisoned (R169), by R20 and R21. -/
def readWords (n : Nat) : Nat → Nat → State → List (Option Nat) × State
  | 0, _, s => ([], s)
  | k + 1, w, s =>
    let a := s.shareWord n w
    let (bad, s) :=
      if (tget [] s.flips (wordKey 0 a)).isEmpty && !tget false s.poison (wordKey 0 a) then (false, s)
      else
        let (r, s) := s.eccRead 0 a
        (r == 2, s)
    let (ws, s') := readWords n k (w + 1) s
    ((if bad then none else some (tget 0 s.hold a)) :: ws, s')

/-- Pixel `x` of a row of `bits`-bit pixels (R163, R169). -/
def rowPixel (bits : Nat) (ws : List (Option Nat)) (x : Nat) : Option Nat :=
  match ws.getD (x * bits / 256) none with
  | none => none
  | some v => some (v / 2 ^ (x * bits % 256) % 2 ^ bits)

/-! ### Dot codes -/

/-- The dot code of level `v` and tag `t` in set `k` of station `n` (R171). -/
def State.dotCode (s : State) (n k v t : Nat) : Nat :=
  let i := 4 * v + t
  if i < 8 then field (s.rd Reg.STN_DOT_MAP_MAP_LO n k) (4 * i) 4 else field (s.rd Reg.STN_DOT_MAP_MAP_HI n k) (4 * (i - 8)) 4

/-- The code of a pixel written as the substitute (R170). -/
def substCode (c : Crossing) : Option Nat := if c.subst then some 0 else none

/-- A whole line written as the substitute. -/
def substLine (c : Crossing) (p : Part) : List (Option Nat) := List.replicate p.width (substCode c)

/-- A line written from its rows: pixels of a poisoned word are substituted (R169, R171). -/
def State.lineCodes (s : State) (c : Crossing) (p : Part) (lv tg : List (Option Nat)) : List (Option Nat) :=
  (List.range p.width).map fun x =>
    match rowPixel p.lvlBits lv x, (if p.tags then rowPixel 2 tg x else some 0) with
    | some v, some t => some (s.dotCode p.stn p.dotSet v t)
    | _, _ => substCode c

/-! ### Places along the sweep (R177, R178, R137) -/

/-- O_e (R177). -/
def State.beamOfs (s : State) (n e : Nat) : Int := 64 * s.lvI Reg.STN_BEAM_OFS_PIXELS n e + s.lv Reg.STN_BEAM_OFS_TICKS n e

/-- The delay of emitter `e` in a group with base `b` (R178). -/
def State.stagger (s : State) (n e : Nat) (b : Int) : Int :=
  (((e / 10 : Nat) : Int) + b.fdiv (max 1 (s.rows n) : Nat)) % 4 * s.lv Reg.STN_STAGGER_STEP n

/-- Ticks from position 0 of the sweep's emission to the first pixel that a beam emits (R137, R177, R178). -/
def State.beamFirst (s : State) (n : Nat) (b : Int) (x : Beam) : Int :=
  let o := s.beamOfs n x.em + s.stagger n x.em b
  if s.lon Reg.STN_POLY_MIRROR n then 64 * ((31200 : Int) - x.codes.length) - o else o

/-- A beam's codes in emission order (R137). -/
def State.emission (s : State) (n : Nat) (x : Beam) : List (Option Nat) :=
  if s.lon Reg.STN_POLY_MIRROR n then x.codes.reverse else x.codes

/-! ### Beam Link frames (R184, R185) -/

/-- Cut codes into chunks of 16. -/
def chunksOf : Nat → List (Option Nat) → List (List (Option Nat))
  | 0, _ => []
  | k + 1, cs => if cs.isEmpty then [] else cs.take 16 :: chunksOf k (cs.drop 16)

/-- The number of dark chunks that `cs` begins with. -/
def darkRun (cs : List (List (Option Nat))) : Nat := (cs.takeWhile fun c => c.all (·.isNone)).length

/-- A chunk's payload; a dark pixel beside lit ones has a code the manual does not state, a free value. -/
def chunkWord : List (Option Nat) → State → Nat × State
  | [], s => (0, s)
  | some c :: cs, s =>
    let (v, s) := chunkWord cs s
    (c + 16 * v, s)
  | none :: cs, s =>
    let (f, s) := s.takeFree 16
    let (v, s) := chunkWord cs s
    (f + 16 * v, s)

/-- The blocks of a beam's chunks from chunk `k` on, with their play edges: data blocks and SKIPs; `skip` chunks of a run are
still covered. -/
def beamChunks (em edge : Nat) : Nat → Nat → List (List (Option Nat)) → State → List (Nat × Bool × Nat) × State
  | _, _, [], s => ([], s)
  | k, skip, c :: cs, s =>
    if skip ≠ 0 then beamChunks em edge (k + 1) (skip - 1) cs s
    else
      let r := darkRun (c :: cs)
      if r ≠ 0 then
        let (bs, s) := beamChunks em edge (k + 1) (r - 1) cs s
        ((edge + 16 * k, false, 0x55 + 2 ^ 8 * em + 2 ^ 14 * k + 2 ^ 26 * r) :: bs, s)
      else
        let (v, s) := chunkWord c s
        let (bs, s) := beamChunks em edge (k + 1) 0 cs s
        ((edge + 16 * k, true, v) :: bs, s)

/-- Merge blocks in order of play edge; at equal edges the left ones, of the lower emitters, come first. -/
def mergeBlocks : Nat → List (Nat × Bool × Nat) → List (Nat × Bool × Nat) → List (Nat × Bool × Nat)
  | 0, as, bs => as ++ bs
  | _, [], bs => bs
  | _, as, [] => as
  | k + 1, a :: as, b :: bs => if a.1 ≤ b.1 then a :: mergeBlocks k as (b :: bs) else b :: mergeBlocks k (a :: as) bs

/-- Insert a beam by its emitter. -/
def beamIns (x : Beam) : List Beam → List Beam
  | [] => [x]
  | y :: ys => if x.em ≤ y.em then x :: y :: ys else y :: beamIns x ys

/-- The BEAM block of a beam and its chunks. -/
def State.beamBlocks (s : State) (n : Nat) (b : Int) (x : Beam) : Nat × List (Nat × Bool × Nat) × State :=
  let d : Nat := s.lv Reg.STN_SOS_DELAY_SOS_DELAY n
  let t : Int := ((d - d % 64 : Nat) : Int) + s.beamFirst n b x
  let edge := unsigned 16 (t.fdiv 64)
  let cs := s.emission n x
  let (bs, s) := beamChunks x.em edge 0 0 (chunksOf (cs.length + 1) cs) s
  (0x87 + 2 ^ 8 * x.em + 2 ^ 14 * edge + 2 ^ 30 * (t % 64).toNat + 2 ^ 36 * cs.length, bs, s)

/-- The BEAM blocks and the merged chunks of a frame's beams. -/
def State.frameBeams (s : State) (n : Nat) (b : Int) : List Beam → List Nat × List (Nat × Bool × Nat) × State
  | [] => ([], [], s)
  | x :: xs =>
    let (h, c, s) := s.beamBlocks n b x
    let (hs, cs, s) := s.frameBeams n b xs
    (h :: hs, mergeBlocks (c.length + cs.length) c cs, s)

/-- The bytes of a 64-bit payload, low byte first. -/
def payloadBytes (v : Nat) : List Byte := (List.range 8).map fun i => BitVec.ofNat 8 (v / 2 ^ (8 * i))

/-- The used sub-pulses of dot code `c` in set `k` (R172). -/
def State.pulsesOf (s : State) (n k c : Nat) : List (Nat × Nat) :=
  let v := s.rd Reg.STN_WAVE_SUB01 n (16 * k + c) + 2 ^ 32 * s.rd Reg.STN_WAVE_SUB23 n (16 * k + c)
  ((List.range 4).filter fun j => field v (16 * j + 7) 7 != 0).map fun j => (field v (16 * j) 7, field v (16 * j + 7) 7)

/-- No beam lights (R184): no code has a used sub-pulse. -/
def State.allDark (s : State) (n set : Nat) (beams : List Beam) : Bool :=
  beams.all fun x => x.codes.all fun c => match c with | none => true | some c => (s.pulsesOf n set c).isEmpty

/-- The frame of a sweep of a Beam Link station (R185), for the sweep's marker: `lines` are the crossings with a line in the group, lowest and highest. -/
def State.sendFrame (s : State) (n : Nat) (b : Int) (set : Nat) (beams : List Beam) (lines : List (Nat × Nat × Nat)) : State :=
  match (if s.lv Reg.BL_CFG_PORT n = 1 ∧ s.bst n = Bst.up then (s.bls n).mark else none) with
  | none => s
  | some c =>
    let beams := beams.foldr beamIns []
    let m := c % 2 ^ 16
    let mir : Nat := if s.lon Reg.STN_POLY_MIRROR n then 1 else 0
    let dark : Nat := if s.allDark n set beams then 1 else 0
    let (hs, cs, s) := s.frameBeams n b beams
    let data := (cs.filter fun c => c.2.1).flatMap fun c => payloadBytes c.2.2
    let blocks := (false, 0x78 + 2 ^ 8 * m + 2 ^ 24 * beams.length + 2 ^ 30 * set + 2 ^ 32 * mir + 2 ^ 33 * dark) ::
      hs.map (fun h => (false, h)) ++ cs.map (·.2) ++ [(false, 0x99 + 2 ^ 8 * m + 2 ^ 24 * crc32c data)]
    let s := s.fillTo n
    let x := s.bls n
    let (bs, r, al) := layBlocks (s.lanesUsed n) x.pos 0 x.align blocks
    (s.setBl n { x with mark := none, pos := r, align := al,
                        frames := (x.frames.filter fun f => f.sweep != m) ++ [⟨m, s.rowEnd n r, lines, false⟩] }).emit (.frame n bs)

/-! ### Lit time and direct ports (R173, R192, R195) -/

/-- The lit ticks of a dot code. -/
def State.litTicks (s : State) (n k c : Nat) : Nat := ((s.pulsesOf n k c).map fun x => x.2 - x.1).sum

/-- The lit time of an emitter grows by what a beam lights (R195). -/
def State.countLit (s : State) (n set : Nat) (x : Beam) : State :=
  let t := (x.codes.map fun c => match c with | some c => s.litTicks n set c | none => 0).sum
  let b := s.bls n
  s.setBl n { b with onTime := b.onTime.set x.em (b.onTime.getD x.em 0 + t) }

/-- Spans in order, joined where they touch or overlap (R173). -/
def joinSpans (l : List (Int × Int)) : List (Int × Int) :=
  l.foldr (fun a acc => match acc with
    | [] => [a]
    | b :: t => if b.1 ≤ a.2 then (a.1, max a.2 b.2) :: t else a :: b :: t) []

/-- The spans over which a direct port lights a beam, in ticks after the SOS stamp (R173, R192). -/
def State.directSpans (s : State) (n : Nat) (b : Int) (set : Nat) (x : Beam) : List (Int × Int) :=
  let t0 : Int := s.lv Reg.STN_SOS_DELAY_SOS_DELAY n + s.beamFirst n b x
  let mir := s.lon Reg.STN_POLY_MIRROR n
  let spans := ((s.emission n x).zipIdx).flatMap fun y =>
    match y.1 with
    | none => []
    | some c =>
      let ps := s.pulsesOf n set c
      let ps := if mir then (ps.map fun q => (64 - q.2, 64 - q.1)).reverse else ps
      ps.map fun q => (t0 + 64 * y.2 + q.1, t0 + 64 * y.2 + (max q.2 (q.1 + 4) : Nat))
  joinSpans spans

/-- A direct port reads the waveform words of its set (R19, R174): which of the four may be used. -/
def State.waveRead (s : State) (n set : Nat) : List Nat × State :=
  (List.range 4).foldl (fun a q =>
    let (ok, s) := a.2.dotRead n set (waveWord n set (4 * q))
    (if ok then a.1 ++ [q] else a.1, s)) ([], s)

/-- The pulses of a sweep on a direct port; a dot code whose waveform word is uncorrectable lights nothing (R21, log 102). -/
def State.sendDirect (s : State) (n : Nat) (b : Int) (set : Nat) (beams : List Beam) : State :=
  if s.lv Reg.BL_CFG_PORT n ≠ 2 ∨ beams.isEmpty then s
  else
    let (ok, s) := s.waveRead n set
    s.emit (.direct n ((beams.foldr beamIns []).map fun x =>
      (x.em, s.directSpans n b set { x with codes := x.codes.map fun c => c.filter fun k => ok.contains (k / 4) })))

end Sys2Proof.Machine
end

