-- ==== Sys2Proof/Machine/Station.lean ====
section
/-! DEFINITION. Stations (R125–R142): beam detectors and facets, the lag and the phase loop, sweeps and the lines they write,
exposure and registration. -/

namespace Sys2Proof.Machine

/-! ### Readiness (R133) -/

/-- The three conditions under which the base of the next group is kept (R134). -/
def State.sweepOk (s : State) (n : Nat) : Bool :=
  s.on Reg.SPLL_STAT_LOCKED n && s.headReady n && s.on Reg.STN_SCAN_STAT_FACET_LOCK n

/-- STN_SCAN_STAT.READY (R133). -/
def State.stnReady (s : State) (n : Nat) : Bool := s.sweepOk n && s.on Reg.STN_SCAN_STAT_PHASE_OK n

/-- Facet lock falls (R127, R155). -/
def State.facetLost (s : State) (n : Nat) : State :=
  let ready := s.stnReady n
  let s := ((((s.baseLost n).wr Reg.STN_SCAN_STAT_FACET_LOCK 0 n).cnt Reg.STN_DET_CNT_FACET_LOSS n).fcClear n).unlearn n
  let s := if ready then s.raiseLive Src.facetLoss n else s
  s.scanLost n

/-- A facet mismatch (R127): the third in a row loses facet lock; while learning the run begins anew. -/
def State.mismatch (s : State) (n : Nat) : State :=
  let x := s.stns n
  if s.on Reg.STN_SCAN_STAT_FACET_LOCK n then
    if 2 ≤ x.mism then s.facetLost n else s.setStn n { x with mism := x.mism + 1 }
  else if s.on Reg.STN_SCAN_STAT_LEARNING n then s.unlearn n
  else s

/-! ### Detectors (R125, R126) -/

/-- The sweep's marker on the clock lane (R182): the head counts it while the link is UP. -/
def State.beamMark (s : State) (n : Nat) : State :=
  if s.bst n < Bst.clock then s
  else
    let b := s.bls n
    let s := s.emit (.beamMarker n (s.lv Reg.STN_SOS_DELAY_SOS_DELAY n % 64))
    if s.bst n = Bst.up then s.setBl n { b with mark := some b.marker, marker := b.marker + 1 } else s

/-- A sweep begins, accepted or flown, at stamp `t`: a sweep that ended without an accepted EOS is a mismatch; the facet advances; its tick
clock takes its values (R159). -/
def State.sweepBegin (s : State) (n t : Nat) : State :=
  let x := s.stns n
  let s := if x.sweep.isSome && !x.eosSeen then s.mismatch n else s
  let f := (s.rd Reg.STN_SCAN_STAT_FACET n + 1) % facets s n
  let s := ((s.wr Reg.STN_SCAN_STAT_FACET f n).clkStart n f).beamMark n
  s.setStn n { s.stns n with sweep := some t, begun := true, eosSeen := false }

/-- Learning starts once the scan clock is locked and an SOS is accepted (R126); the first sweep measured has position 0, and FC is held at 0
(R155). -/
def State.learnStart (s : State) (n : Nat) : State :=
  if s.on Reg.SPLL_STAT_LOCKED n && !s.on Reg.STN_SCAN_STAT_FACET_LOCK n && !s.on Reg.STN_SCAN_STAT_LEARNING n then
    (((s.fcClear n).wr Reg.STN_SCAN_STAT_LEARNING 1 n).wr Reg.STN_SCAN_STAT_FACET 0 n).setStn n
      { s.stns n with learn := List.replicate (facets s n) 0, learnN := 0 }
  else s

/-- The SOS predicted from the last two accepted (R125), `none` before two: m, the ticks of m sweep periods, and m times the predicted
tick, where m sweeps lie between those two edges. -/
def Stn.predict (x : Stn) : Option (Nat × Nat × Nat) :=
  match x.sos0, x.sos1 with
  | some a, some b =>
    let m := max 1 x.sosGap
    some (m, a - b, a * m + (x.flown + 1) * (a - b))
  | _, _ => none

/-- An edge at tick `tick` lies inside the SOS window (R125). -/
def State.inSosWindow (s : State) (n tick : Nat) : Bool :=
  match (s.stns n).predict with
  | none => true
  | some (m, per, t) => decide (((tick * m : Nat) - (t : Int)).natAbs * 1024 ≤ max 1 (s.lv Reg.STN_DET_WIN n) * per)

/-- An SOS edge at tick `tick` of the station's tick clock with a pulse of `pulse` × 4 ns (R125). -/
def sosEdgeEff (n tick pulse : Nat) (s : State) : State :=
  if 6 ≤ n ∨ pulse < s.lv Reg.STN_DET_MIN_PULSE n ∨ !s.inSosWindow n tick then s
  else
    let s := s.sweepBegin n tick
    let x := s.stns n
    (s.setStn n { x with sos0 := some tick, sos1 := x.sos0, sosGap := x.flown + 1, flown := 0 }).learnStart n

def execSosEdge (stn tick pulse : Nat) (s : State) : Host.Outcome State Fault Refusal := .next (sosEdgeEff stn tick pulse s)

/-- No SOS was accepted inside the window: the sweep is flown at the predicted tick (R125). After more than FLY_MAX flown sweeps without
facet lock the prediction is given up, and the next two edges start a new one (log 27). -/
def sosWindowExpireEff (n : Nat) (s : State) : State :=
  match (s.stns n).predict with
  | none => s
  | some (m, _, t) =>
    if 6 ≤ n then s
    else
      let s := (s.sweepBegin n ((2 * t + m) / (2 * m))).cnt Reg.STN_DET_CNT_FLOWN n
      let k := (s.stns n).flown + 1
      let s := s.setStn n { s.stns n with flown := k }
      if k ≤ s.lv Reg.STN_DET_FLY_MAX n then s
      else if s.on Reg.STN_SCAN_STAT_FACET_LOCK n then s.mismatch n
      else
        let s := s.unlearn n
        s.setStn n { s.stns n with sos0 := none, sos1 := none }

def execSosWindowExpire (stn : Nat) (s : State) : Host.Outcome State Fault Refusal := .next (sosWindowExpireEff stn s)

/-- The duration of facet `f` is judged, or learned (R126, R127). -/
def State.eosFacet (s : State) (n f D : Nat) : State :=
  let x := s.stns n
  if s.on Reg.STN_SCAN_STAT_FACET_LOCK n then
    if 64 * max 1 (s.lv Reg.STN_DET_FACET_TOL n) < ((D : Int) - s.rd Reg.STN_FACET_DUR_DUR n f).natAbs then s.mismatch n
    else s.setStn n { x with mism := 0 }
  else if s.on Reg.STN_SCAN_STAT_LEARNING n then
    s.setStn n { x with learn := x.learn.set f (x.learn.getD f 0 + D), learnN := x.learnN + 1 }
  else s

/-- An EOS edge (R125, R154–R158): accepted between half a period and one period after its SOS. -/
def eosEdgeEff (n tick pulse : Nat) (s : State) : State :=
  let x := s.stns n
  match x.sweep, x.predict with
  | some t0, some (m, per, _) =>
    let D := tick - t0
    if 6 ≤ n ∨ pulse < s.lv Reg.STN_DET_MIN_PULSE n ∨ x.eosSeen ∨ tick < t0 ∨ 2 * D * m < per ∨ per < D * m then s
    else
      let f := s.rd Reg.STN_SCAN_STAT_FACET n
      let s := s.setStn n { x with eosSeen := true }
      let s := (s.eosCorrect n f D).eosStep n ((f + 1) % facets s n)
      s.eosFacet n f D
  | _, _ => s

def execEosEdge (stn tick pulse : Nat) (s : State) : Host.Outcome State Fault Refusal := .next (eosEdgeEff stn tick pulse s)

/-- The first place of the largest element, from place `i`, with the best so far. -/
def argMax : Nat → Nat × Nat → List Nat → Nat
  | _, best, [] => best.1
  | i, best, x :: xs => argMax (i + 1) (if best.2 < x then (i, x) else best) xs

/-- Revolutions of a learning run (R126). -/
def State.learnRevs (s : State) (n : Nat) : Nat := 2 ^ (4 + min 4 (s.lv Reg.STN_DET_LEARN n))

/-- Every sweep of the learning run has been measured (R126): facet 0 is chosen, the means are stored, FC is initialised (R155). -/
def facetLearnEndEff (n : Nat) (s : State) : State :=
  let x := s.stns n
  let F := facets s n
  let revs := s.learnRevs n
  if 6 ≤ n ∨ !s.on Reg.STN_SCAN_STAT_LEARNING n ∨ x.learnN < F * revs then s
  else
    let m := argMax 0 (0, 0) x.learn
    let rest := (x.learn.eraseIdx m).foldl max 0
    let ambig := decide (x.learn.getD m 0 < rest + 64 * revs)
    let m := if ambig then 0 else m
    let durs := (List.range F).map fun i => (Config.rnd (x.learn.getD ((m + i) % F) 0) revs).toNat
    let s := (List.range F).foldl (fun s i => s.wr Reg.STN_FACET_DUR_DUR (durs.getD i 0) n i) s
    let s := (s.wb Reg.STN_SCAN_STAT_FACET_AMBIG ambig n).wr Reg.STN_SCAN_STAT_FACET ((s.rd Reg.STN_SCAN_STAT_FACET n + F - m) % F) n
    let s := ((s.unlearn n).wr Reg.STN_SCAN_STAT_FACET_LOCK 1 n).setCause Src.facetLoss n false
    s.fcFromLearning n durs

def execFacetLearnEnd (stn : Nat) (s : State) : Host.Outcome State Fault Refusal := .next (facetLearnEndEff stn s)

/-! ### Lines of a group (R112, R131, R167) -/

/-- A group's slot as a line offset of an exposed crossing. -/
def Expo.off (e : Expo) (slot : Int) : Int := signed 40 (unsigned 40 (slot - e.c0))

/-- The frontier moves past consecutive lines that were emitted or dropped (R131). -/
def advance : Nat → Nat → List Nat → Nat × List Nat
  | 0, f, a => (f, a)
  | k + 1, f, a => if a.contains f then advance k (f + 1) (a.filter (· != f)) else (f, a)

/-- Lines of the exposed crossing have passed: the frontier moves and frees words, and exposure ends at LAST (R111, R131, R167). -/
def State.passLines (s : State) (n : Nat) (offs : List Nat) : State :=
  let x := s.stns n
  match x.expo with
  | none => s
  | some e =>
    let all := e.ahead ++ offs
    let (f, a) := advance all.length e.front all
    let lines := x.lines.filter fun h => !(h.crx == e.crx && decide (h.off < f))
    let s := (s.setStn n { x with expo := some { e with front := f, ahead := a }, lines := lines }).shareShow n
    match (s.live? e.crx).bind fun c => c.parts.find? fun p => p.stn == n with
    | none => s
    | some p => if p.lines ≤ f then s.endExpo n .complete else s

/-! Which row a raster lighter fetches next (R166, R345). -/

/-- The first line offset from `off` on that falls to lighter `k` (0 or 1) of the station: every line with tags, else its parity. -/
def Part.forLighter (p : Part) (k off : Nat) : Nat := if p.tags ∨ (p.first + off) % 2 = k then off else off + 1

/-- The next offset of lighter `k`, and the part with it changed. -/
def Part.nextOf (p : Part) (k : Nat) : Nat := if k = 0 then p.next0 else p.next1
def Part.setNext (p : Part) (k v : Nat) : Part := if k = 0 then { p with next0 := v } else { p with next1 := v }

/-- The crossing and part that lighter `k` of station `n` works on: in boarding order the first with a row left for it (R108, R166). -/
def State.rasterWork (s : State) (n k : Nat) : Option (Crossing × Part) :=
  (s.liveCrx.filter fun c => c.abandon.isNone).findSome? fun c =>
    match c.parts.find? fun p => p.stn == n && !p.done && decide (p.forLighter k (p.nextOf k) < p.lines) with
    | some p => some (c, p)
    | none => none

/-- The lighter has finished with the last row of crossing `crx` that falls to it (R345): it latches. -/
def State.rasterDone (s : State) (l crx : Nat) : State :=
  let r := s.rlts l
  let left : Bool := match (s.live? crx).bind fun c => c.parts.find? fun (p : Part) => p.stn == l / 2 with
    | none => false
    | some p => decide (p.forLighter (l % 2) (p.nextOf (l % 2)) < p.lines)
  if left || r.rows.any (fun x => x.crx == crx) || r.crx != crx then s else s.latchCrc l

/-- The lighter's CRC is for crossing `crx` from here on (R345). -/
def State.rasterFor (s : State) (l crx : Nat) : State :=
  let r := s.rlts l
  if r.crx = crx then s
  else
    let s := s.latchCrc l
    s.setRlt l { s.rlts l with crx := crx, crc := 0xFFFFFFFF }

/-- The rows of the exposed crossing's part `p` at which lighter `k` of station `n` stands lie at or below line offset `hi`, which was
substituted: it skips them, and goes on at offset `goal` (R113). -/
def State.skipRows (s : State) (n crx hi goal : Nat) (p : Part) (k : Nat) : State :=
  if hi < p.forLighter k (p.nextOf k) then s
  else
    let v := min p.lines (max goal (p.nextOf k))
    let s := match s.live? crx with
      | none => s
      | some c => match c.parts.find? fun (q : Part) => q.stn == n with
        | some q => s.setCrx (c.setPart (q.setNext k v))
        | none => s
    let s := s.wr Reg.LT_NEXT_LINE_LINE ((p.first + p.forLighter k v) % 2 ^ 24) (2 * n + k)
    if v = p.lines then
      let s := if (s.rlts (2 * n + k)).rows.isEmpty then s.rasterFor (2 * n + k) crx else s
      s.rasterDone (2 * n + k) crx
    else s

/-- What a sweep has written so far: beams, line offsets passed, the highest that underran. -/
structure Group where
  beams : List Beam
  offs : List Nat
  under : Option Nat

/-- Line `off` of the exposed crossing is written by emitter `e`: from the share, or as the substitute (R112, R167, R169). -/
def State.writeLine (s : State) (n : Nat) (c : Crossing) (p : Part) (off e : Nat) (g : Group) : Group × State :=
  let line := p.first + off
  match (s.stns n).lines.find? fun h => h.crx == c.crx && h.off == off && s.lineIn h with
  | none =>
    let s := (s.defect c.crx n 0x01 line line).setStn n { s.stns n with subst := (s.stns n).subst + 1 }
    (⟨g.beams ++ [⟨e, substLine c p⟩], off :: g.offs, some (max off (g.under.getD 0))⟩, s)
  | some h =>
    let (lv, s) := readWords n h.wl h.base s
    let (tg, s) := readWords n h.wt (h.base + h.wl) s
    let s := if (lv ++ tg).any (·.isNone) then (s.defect c.crx n 0x02 line line).cnt Reg.STN_HOLD_ECC_LINES_HIT n else s
    let (ok, s) := s.dotRead n p.dotSet (mapWord n p.dotSet)
    (⟨g.beams ++ [⟨e, if ok then s.lineCodes c p lv tg else List.replicate p.width none⟩], off :: g.offs, g.under⟩, s)

/-- Row `r` of the group with base `b` (R129–R131): a row mapped to a failed emitter is blank (R197, R199). -/
def State.writeRow (s : State) (n : Nat) (b : Int) (r : Nat) (g : Group) : Group × State :=
  match (s.stns n).expo with
  | none => (g, s)
  | some e =>
    match s.live? e.crx with
    | none => (g, s)
    | some c =>
      match c.parts.find? fun p => p.stn == n with
      | none => (g, s)
      | some p =>
        let o := e.off (b + s.lv Reg.STN_SCAN_CFG_PITCH n * r)
        if o < e.front ∨ (p.lines : Int) ≤ o ∨ e.ahead.contains o.toNat then (g, s)
        else
          let off := o.toNat
          let em := s.rowEmitter n r
          if bitOf (s.failed n) em then
            let s := if bitOf e.blank r then s
              else (s.defect c.crx n 0x04 r (p.first + off)).setStn n { s.stns n with expo := some { e with blank := setBit e.blank r true } }
            (⟨g.beams, off :: g.offs, g.under⟩, s)
          else s.writeLine n c p off em g

/-- Write rows `r` onwards, `k` of them. -/
def State.writeRows (n : Nat) (b : Int) : Nat → Nat → Group → State → Group × State
  | 0, _, g, s => (g, s)
  | k + 1, r, g, s =>
    let (g, s) := s.writeRow n b r g
    State.writeRows n b k (r + 1) g s

/-- The group with base `b` is decided and written (R129, R167, R185). -/
def State.writeGroup (s : State) (n : Nat) (b : Int) : State :=
  let R := s.rows n
  let (g, s) := State.writeRows n b (min 32 R) 0 ⟨[], [], none⟩ s
  let x := s.stns n
  let part := x.expo.bind fun e => (s.live? e.crx).bind fun c => (c.parts.find? fun p => p.stn == n).map fun p => (e, p)
  match part with
  | none => s.sendFrame n b 0 [] []
  | some (e, p) =>
    let lo := g.offs.foldl min p.lines
    let hi := g.offs.foldl max 0
    let lines := if g.beams.isEmpty then [] else [(e.crx, (p.first + lo) % 2 ^ 24, (p.first + hi) % 2 ^ 24)]
    let s := g.beams.foldl (fun s z => s.countLit n p.dotSet z) s
    let s := (s.sendFrame n b p.dotSet g.beams lines).sendDirect n b p.dotSet g.beams
    let s := match g.under with
      | some hi => (List.range 2).foldl (fun (s : State) (k : Nat) => s.skipRows n e.crx hi (e.off (b + 2 * R)).toNat p k) s
      | none => s
    s.passLines n g.offs

/-! ### Re-basing (R134, R135) -/

/-- The first base slot at or after which slot `c` is written from base `b` on: b + PITCH × r for its row r (R129). -/
def rowStart (R P : Nat) (b c : Int) : Int :=
  match (List.range R).find? fun (r : Nat) => (c - b - (P * r : Nat)) % ((max 1 R : Nat) : Int) == 0 with
  | some r => b + (P * r : Nat)
  | none => c + 1

/-- Slots that no sweep will write once the base moves from `b` to `b + k` (R134). -/
def droppedSlots (R P : Nat) (b : Int) (k : Nat) : List Int :=
  ((List.range (k + P * (R - 1))).map fun (i : Nat) => b + i).filter fun c =>
    decide (rowStart R P b c ≤ c) && decide (c < rowStart R P (b + k) c)

/-- One drop (R135): lines in the dropped slots pass, recorded as OVERSPEED. -/
def State.rebase (s : State) (n : Nat) (b : Int) (k : Nat) : State :=
  let s := (s.cnt Reg.STN_OVS_CNT_DROPS n).setStn n { s.stns n with dropped := (s.stns n).dropped + 1 }
  let cs := droppedSlots (s.rows n) (s.lv Reg.STN_SCAN_CFG_PITCH n) b k
  let s := match (s.stns n).expo with
    | none => s
    | some e =>
      match (s.live? e.crx).bind fun c => c.parts.find? fun (p : Part) => p.stn == n with
      | none => s
      | some p =>
        let offs : List Nat := ((cs.map e.off).filter fun (o : Int) =>
          decide ((e.front : Int) ≤ o) && decide (o < p.lines) && !e.ahead.contains o.toNat).map Int.toNat
        if offs.isEmpty then s
        else (s.defect e.crx n 0x03 (p.first + offs.foldl min p.lines) (p.first + offs.foldl max 0)).passLines n offs
  s.raise Src.stnOverspeed n

/-! ### The phase loop and F_now (R132, R141) -/

/-- The lag of a sweep in 1/256 line drives the trim of the station's polygon (R132): a shared pair is driven by its even station. -/
def State.phaseLoop (s : State) (n : Nat) (L : Int) : State :=
  if s.lon Reg.STN_POLY_PAIR_SHARE n && n % 2 == 1 then s
  else
    let x := s.stns n
    let sum := x.sumL + L
    let lim : Int := 85899345
    let trim (S : Int) : Int := Config.rnd (L * 2 ^ 24) (2 ^ s.lv Reg.STN_PHASE_KP_SHIFT n) + Config.rnd (S * 2 ^ 24) (2 ^ s.lv Reg.STN_PHASE_KI_SHIFT n)
    let ovr := decide (lim < trim sum) || decide (trim sum < -lim)
    s.setStn n { x with sumL := if ovr then x.sumL else sum, trim := max (-lim) (min lim (trim sum)) }

/-- F_now moves towards F_target while the station is not exposing; with drum trim it is written to its loop (R141, R272). -/
def State.slew (s : State) (n : Nat) : State :=
  let x := s.stns n
  if x.expo.isSome then s
  else
    let step : Int := max 1 (s.rd Reg.STN_REG_CFG_SLEW n)
    let f := x.fNow + max (-step) (min step (x.fTarget - x.fNow))
    let s := s.setStn n { x with fNow := f }
    if f ≠ x.fNow ∧ s.lon Reg.STN_POLY_PAIR_SHARE n ∧ s.lon Reg.STN_REG_TRIM_TRIM_EN n then
      s.wrI Reg.LOOP_TRIM_TRIM (Config.rnd (f * 4 * 2 ^ 32) (s.lineRatio n)) (s.lv Reg.STN_REG_TRIM_TRIM_LOOP n)
    else s

/-! ### The sweep start (R134) -/

/-- LAG, its maximum and the run of sweeps in tolerance (R133, R134). -/
def State.lagShow (s : State) (n : Nat) (L : Int) : State :=
  let t := max (-(2 ^ 15)) (min (2 ^ 15 - 1) (Config.rnd L 4))
  let s := (s.wrI Reg.STN_LAG_LAG t n).wr Reg.STN_LAG_LAG_MAX (max (s.rd Reg.STN_LAG_LAG_MAX n) t.natAbs) n
  let k := if L.natAbs ≤ 4 * s.lv Reg.STN_PHASE_READY_TOL n then min 64 ((s.stns n).okRun + 1) else 0
  (s.setStn n { s.stns n with okRun := k }).wb Reg.STN_SCAN_STAT_PHASE_OK (decide (64 ≤ k)) n

/-- λ at this edge in 1/256 line (R128): its value at the last drum count, and what the drum port's speed estimate adds since, at most one
count's worth (log 107). -/
def State.lamNow (s : State) (n : Nat) : Nat :=
  let x := s.stns n
  let v := (s.axisRate (s.lv Reg.STN_POLY_DRUM_AXIS n)).toNat
  let dt := s.now - x.lamAt
  (x.lam + (s.lineRatio n * min (v * dt) 256000000000) / 256000000000) / 2 ^ 24

/-- X in 1/256 line (R134). -/
def State.sweepX (s : State) (n : Nat) : Int :=
  let f := if s.lon Reg.STN_POLY_PAIR_SHARE n then 0 else (s.stns n).fNow
  (s.lamNow n : Int) - 4 * (s.lvI Reg.STN_PHASE_PHASE_OFS n + f)

/-- The lag against the next group's base, which is set where it is not kept (R134). -/
def State.sweepLag (s : State) (n : Nat) (X : Int) : Int × State :=
  let x := s.stns n
  let s := if x.bSet then s else s.setStn n { x with b := nearest X 256, bSet := true, okRun := 0 }
  (signed 48 (unsigned 48 (X - 256 * (s.stns n).b)), s)

/-- The sweep writes its group, after a re-base where the lag calls for one, or is skipped (R134). -/
def State.sweepGroup (s : State) (n : Nat) (L : Int) : State :=
  let b := (s.stns n).b
  if L < -128 then ((s.clkSweep n b).cnt Reg.STN_OVS_CNT_SKIPS n).sendFrame n b 0 [] []
  else
    let k := ((L + 128).fdiv 256).toNat
    let s := if k = 0 then s else s.rebase n b k
    let b := b + k
    let s := (s.clkSweep n b).writeGroup n b
    s.setStn n { s.stns n with b := b + s.rows n }

/-- A sweep starts (R134); the line boundary lets a station stop take effect first (R392). -/
def sweepStartEff (n : Nat) (s : State) : State :=
  if 6 ≤ n ∨ !(s.stns n).begun then s
  else
    let s := s.setStn n { s.stns n with begun := false, sweepAt := s.now }
    let s := if (s.stns n).stop = 0 then s else s.stopNow n
    let s := s.shareShow n
    let s := if (s.stns n).expo.isSome then
        s.wr Reg.STN_HOLD_STAT_FILL_MIN (min (s.rd Reg.STN_HOLD_STAT_FILL_MIN n) (s.rd Reg.STN_HOLD_STAT_FILL n)) n
      else s
    let s := if s.sweepOk n then
        let (L, s) := s.sweepLag n (s.sweepX n)
        ((s.lagShow n L).phaseLoop n L).sweepGroup n L
      else (s.baseLost n).sendFrame n 0 0 [] []
    (s.slew n).charSweep n

def execSweepStart (stn : Nat) (s : State) : Host.Outcome State Fault Refusal := .next (sweepStartEff stn s)

/-! ### Exposure (R111, R131, R133, R141) -/

/-- EXPOSE_START (R131, R141). -/
def State.exposeStart (s : State) (n crx : Nat) : State :=
  match s.live? crx with
  | none => s
  | some c =>
    match c.parts.find? fun p => p.stn == n && !p.done with
    | none => s
    | some p =>
      let s := (s.endExpo n .truncated).charAbort n
      let x := s.stns n
      let W := (s.rdI Reg.STN_REG_OFS_R n - x.fNow + 32).fdiv 64
      let s := s.wrI Reg.STN_REG_STAT_APPLIED (64 * W + x.fNow) n
      let c0 : Int := (s.rd Reg.AXIS_SCHED (32 + n) + s.lv Reg.STN_LEAD_LINE_LEAD n : Nat) + W
      let x := { x with wLast := W, expo := some ⟨crx, c0, 0, [], 0⟩, stop := if s.eng.isSome then 16 else 0 }
      let s := s.setStn n x
      let s := match s.live? crx with
        | none => s
        | some c => s.setCrx (c.setPart { p with begun := true })
      if s.stnReady n then s else s.raise Src.scanUnready n

def exposeStartEff (s : State) : State :=
  s.actStatus 0x11 fun d s => (St.ok, s.exposeStart d.e.target d.e.crx)

def execExposeStart (s : State) : Host.Outcome State Fault Refusal := .next (exposeStartEff s)

/-- EXPOSE_END (R111). -/
def exposeEndEff (s : State) : State :=
  s.actStatus 0x12 fun d s =>
    let n := d.e.target
    (St.ok, if (s.stns n).expo.any fun e => e.crx == d.e.crx then s.endExpo n .truncated else s.partDone d.e.crx n 0 [] .truncated)

def execExposeEnd (s : State) : Host.Outcome State Fault Refusal := .next (exposeEndEff s)

/-! ### Registration marks (R139, R140) -/

/-- MARK_WINDOW (R139). -/
def markWindowEff (s : State) : State :=
  s.actStatus 0x16 fun d s =>
    let a := d.e.arg
    let w : MarkWin :=
      { sensor := d.e.target, stn := field a 0 3, sense := bitOf a 3, axis := d.e.axis, pos := d.e.pos, len := field a 4 12,
        exp := field a 16 12, got := false, edge := none, wait := none }
    (St.ok, { s with marks := s.marks ++ [w] })

def execMarkWindow (s : State) : Host.Outcome State Fault Refusal := .next (markWindowEff s)

/-- A mark window has reached its end (R139). -/
def State.markOver (s : State) (w : MarkWin) : Bool := posReached (s.rd Reg.AXIS_SCHED w.axis) ((w.pos + w.len) % pos40)

/-- An edge on mark sensor `m` at device time `time` goes to the earliest-opened window still waiting for one (R139, R140); a window that
waits for its Fenlink node still takes an edge that lay inside it (R320). -/
def State.markAt (s : State) (m : Nat) (falling : Bool) (time : Nat) : State :=
  match s.marks.find? fun w => w.sensor == m && !w.got && w.sense == falling && (w.wait.isSome || !s.markOver w) with
  | none => s
  | some w => s.markTake w time

/-- The level of the local input MARKINm that an edge at device time `time` brought has lasted FILTER (R139). -/
def markEdgeEff (m : Nat) (falling : Bool) (time : Nat) (s : State) : State :=
  if 16 ≤ m ∨ !s.on Reg.MARK_SRC_EN m ∨ s.on Reg.MARK_SRC_SRC m ∨ posDist s.now time < 100 * s.rd Reg.MARK_SRC_FILTER m then s
  else s.markAt m falling time

def execMarkEdge (sensor : Nat) (falling : Bool) (time : Nat) (s : State) : Host.Outcome State Fault Refusal :=
  .next (markEdgeEff sensor falling time s)

/-- The first mark window whose end has come closes (R139, R140); without an edge on a Fenlink sensor it waits for the node (R320). -/
def markWindowCloseEff (s : State) : State :=
  match s.marks.find? fun w => w.edge.isNone && w.wait.isNone && s.markOver w with
  | none => s
  | some w =>
    if w.got then { s with marks := s.marks.filter fun x => x != w }
    else match s.markNode w.sensor with
      | some (p, a) =>
        if s.nodeFenced p a then s.markFail w
        else { s with marks := s.marks.map fun x => if x == w then { x with wait := some s.now } else x }
      | none => s.markFail w

def execMarkWindowClose (s : State) : Host.Outcome State Fault Refusal := .next (markWindowCloseEff s)

end Sys2Proof.Machine
end

