-- ==== Sys2Proof/Machine/Raster.lean ====
section
/-! DEFINITION. Raster lighters and the shares of the Hold (R164–R167, R344, R345), and the loading of dot-code sets (R172, R175,
R176, R191). -/

namespace Sys2Proof.Machine

/-! ### Which row a lighter fetches next (R166, R113) -/

/-- The words of the share's ring between its next free word and its oldest line (R165). -/
def State.ringFree (s : State) (n : Nat) : Nat :=
  let x := s.stns n
  let w := s.shareWords n
  match x.lines with
  | [] => w
  | h :: _ => (h.base + w - x.alloc % max 1 w) % max 1 w

/-- Reserve lines `lo` to `lo + k` − 1 of a part, in line order (R165). -/
def State.reserve (s : State) (crx : Nat) (p : Part) : Nat → Nat → State
  | 0, _ => s
  | k + 1, lo =>
    let x := s.stns p.stn
    let h : HLine := ⟨crx, lo, x.alloc, p.wordsL, p.wordsT, false, p.wordsT == 0, false, 0⟩
    let s := s.setStn p.stn
      { x with lines := x.lines ++ [h], alloc := (x.alloc + p.wordsL + p.wordsT) % max 1 (s.shareWords p.stn) }
    s.reserve crx p k (lo + 1)

/-- The row of line offset `off` is read from host memory (R164). -/
def State.rowRead (s : State) (l : Nat) (c : Crossing) (p : Part) (off : Nat) : State :=
  let k := l % 2
  let tag := p.tags && k == 1
  let len := 32 * (if tag then p.wordsT else p.wordsL)
  let r := s.rlts l
  let s := s.setRlt l { r with rows := r.rows ++ [⟨c.crx, off, tag, s.readCount 0 len⟩] }
  let p' := p.setNext k (off + 1)
  let s := match s.live? c.crx with
    | none => s
    | some c => s.setCrx (c.setPart p')
  let s := ((s.wr Reg.LT_STAT_BUSY 1 l).wr Reg.LT_STAT_WAIT_SPACE 0 l).wr Reg.LT_NEXT_LINE_LINE (p.first + p.forLighter k (off + 1)) l
  s.emitReads 0 ((if tag then p.tagBase else p.lvlBase) + off * p.stride) len

/-- Offset `off` of the part needs words, and how many lines are reserved with it (R165, log 28): the lines between those that the two
lighters have reached and it. -/
def State.reserveFrom (s : State) (crx : Nat) (p : Part) (off : Nat) : Option (Nat × Nat) :=
  let x := s.stns p.stn
  let front := match x.expo with
    | some e => if e.crx = crx then e.front else 0
    | none => 0
  if off < front ∨ x.lines.any (fun h => h.crx == crx && h.off == off) then none
  else
    let top := (x.lines.filter fun h => h.crx == crx).foldl (fun m h => max m (h.off + 1)) 0
    let lo := max front (max top (min (p.forLighter 0 p.next0) (p.forLighter 1 p.next1)))
    some (min lo off, off + 1 - min lo off)

/-- A raster lighter issues the read of its next row, where the share has free words for it and the link has tags left for its requests
(R27, R113, R164, R166, R344). -/
def rasterRowFetchEff (l : Nat) (s : State) : State :=
  let n := l / 2
  let k := l % 2
  if 12 ≤ l ∨ !s.pf0.bme ∨ s.pf0.flr then s
  else match s.rasterWork n k with
    | none => s
    | some (c, p) =>
      let off := p.forLighter k (p.nextOf k)
      if s.tagLimit 0 < s.readsOut + s.readCount 0 (32 * (if p.tags && k == 1 then p.wordsT else p.wordsL)) then s
      else match s.reserveFrom c.crx p off with
        | none => s.rowRead l c p off
        | some (lo, m) =>
          if s.ringFree n < m * (p.wordsL + p.wordsT) then (s.wr Reg.LT_STAT_WAIT_SPACE 1 l).wr Reg.LT_NEXT_LINE_LINE (p.first + off) l
          else ((s.reserve c.crx p m lo).rowRead l c p off).shareShow n

def execRasterRowFetch (lt : Nat) (s : State) : Host.Outcome State Fault Refusal := .next (rasterRowFetchEff lt s)

/-! ### A read completes (R344, R345) -/

/-- Write words into a share from place `w` (R21, R165). -/
def State.writeWords (s : State) (n : Nat) : Nat → List Nat → State
  | _, [] => s
  | w, v :: vs =>
    let a := s.shareWord n w
    let s := s.eccWrite 0 a
    ({ s with hold := tput 0 s.hold a v }).writeWords n (w + 1) vs

/-- Change the reserved line of a row. -/
def State.setLine (s : State) (n : Nat) (r : Row) (f : HLine → HLine) : State :=
  let x := s.stns n
  s.setStn n { x with lines := x.lines.map fun h => if h.crx == r.crx && h.off == r.off then f h else h }

/-- A row arrives whole. -/
def State.rowArrive (s : State) (l : Nat) (r : Row) (bs : List Byte) : State :=
  let n := l / 2
  match (s.stns n).lines.find? fun h => h.crx == r.crx && h.off == r.off with
  | none => s
  | some h =>
    let cnt := if r.tag then h.wt else h.wl
    let s := s.writeWords n (if r.tag then h.base + h.wl else h.base) (Machine.entries 32 cnt bs)
    let s := (s.cnt Reg.LT_BYTES l 0 (32 * cnt)).setRlt l { (s.rlts l) with crc := crc32cRun (s.rlts l).crc (bs.take (32 * cnt)) }
    s.setLine n r fun h => if r.tag then { h with gotT := true, time := s.now } else { h with gotL := true, time := s.now }

/-- A row's read fails (R344): nothing is written, the line is absent. -/
def State.rowFail (s : State) (l : Nat) (r : Row) (poisoned : Bool) : State :=
  let s := (s.cnt Reg.LT_ERR_READ_FAIL l).setLine (l / 2) r fun h => { h with absent := true }
  if poisoned then s.raise Src.eccUe Src.noUnit 3 else s

/-- The oldest read of raster lighter `l` completes; an injection armed for the fabric meets it (R22). Transfers that waited for a tag go on
(R27). -/
def rasterReadCompleteEff (l : Nat) (data : ReadRes) (s : State) : State :=
  match (s.rlts l).rows with
  | [] => s
  | r :: rs =>
    if 12 ≤ l then s
    else
      let (inj, s) := s.fabricTake
      let s := s.setRlt l { s.rlts l with rows := rs }
      let s := if (s.live? r.crx).isSome then s.rasterFor l r.crx else s
      let s := if inj = 1 then s.eccCe 3 0x1000 else s
      let s := if inj = 2 then (s.eccUe 3 0x1000).rowFail l r false
        else match data with
          | .ok bs => s.rowArrive l r bs
          | .fail .poisoned => s.rowFail l r true
          | .fail _ => s.rowFail l r false
      let s := if rs.isEmpty then s.wr Reg.LT_STAT_BUSY 0 l else s
      (List.range 18).foldl (fun s i => State.xferRun (14 + i) xferFuel s) ((s.rasterDone l r.crx).shareShow (l / 2))

def execRasterReadComplete (lt : Nat) (data : ReadRes) (s : State) : Host.Outcome State Fault Refusal :=
  .next (rasterReadCompleteEff lt data s)

/-! ### DOT_SET_LOAD (R172, R175, R176, R191) -/

/-- A waveform entry is valid from sub-pulse `j` on, the one before ending at `e` (R172). -/
def waveOk (v : Nat) : Nat → Nat → Nat → Bool
  | 0, _, _ => true
  | k + 1, j, e =>
    let p := field v (16 * j) 16
    if field p 7 7 = 0 then v / 2 ^ (16 * j) == 0
    else decide (e ≤ field p 0 7) && decide (field p 0 7 < field p 7 7) && decide (field p 7 7 ≤ 64) && waveOk v k (j + 1) (field p 7 7)

/-- The station's copy of set `k` is written (R175); a set whose tables are both rewritten is good again (R176). -/
def State.setDot (s : State) (n k : Nat) (map wave : Option (List Nat)) : State :=
  let s := match map with
    | some (v :: _) =>
      ((s.eccWrite 2 (mapWord n k)).wr Reg.STN_DOT_MAP_MAP_LO v n k).wr Reg.STN_DOT_MAP_MAP_HI (v / 2 ^ 32) n k
    | _ => s
  let s := match wave with
    | some vs =>
      let s := (List.range 4).foldl (fun s c => s.eccWrite 2 (waveWord n k (4 * c))) s
      (List.range 16).foldl (fun s c =>
        (s.wr Reg.STN_WAVE_SUB01 (vs.getD c 0) n (16 * k + c)).wr Reg.STN_WAVE_SUB23 (vs.getD c 0 / 2 ^ 32) n (16 * k + c)) s
    | none => s
  if map.isSome && wave.isSome then s.wr Reg.STN_DOT_STAT_SET_BAD (setBit (s.rd Reg.STN_DOT_STAT_SET_BAD n) k false) n else s

/-- A live crossing names station `n` with dot-code set `k`, other than one that enters boarding at this very edge, which the load precedes
(R175). -/
def State.dotUsed (s : State) (n k : Nat) : Bool :=
  s.liveCrx.any fun c => !(c.state == 1 && c.stateTime == s.stamp) && c.parts.any fun p => p.stn == n && p.dotSet == k

/-- The load's source has been read and checked: where a link is UP the waveform goes to the head first (R191), else the station's copy is
written at this edge; a link in SYNC writes the set to its head again. -/
def State.dotApply (s : State) (j : Job) (n k : Nat) (map wave : Option (List Nat)) : State :=
  let len := (if map.isSome then 8 else 0) + (if wave.isSome then 128 else 0)
  match (if s.lv Reg.BL_CFG_PORT n = 1 then wave else none) with
  | none => (s.setDot n k map wave).loadDone 12 (some len) j St.ok
  | some vs =>
    if s.bst n = Bst.up then
      (s.setBl n { s.bls n with load := some ⟨j, k, map, vs, len⟩ }).sendWave n k (vs.flatMap fun v => leBytes 8 v)
    else
      let s := s.setDot n k map wave
      (if s.bst n = Bst.sync then s.syncOne n k else s).loadDone 12 (some len) j St.ok

/-- DOT_SET_LOAD (R175), with what its source read returned; while an earlier one writes the same head it waits. -/
def dotSetLoadEff (n : Nat) (data : ReadRes) (s0 : State) : State :=
  s0.withDesc n 0x44 fun j s =>
    let t := dget j.d 16 0 3
    let k := dget j.d 16 3 2
    let m := dget j.d 16 5 1 == 1
    let w := dget j.d 16 6 1 == 1
    if dCrx j.d ≠ 0 ∨ 5 < t ∨ dget j.d 24 0 64 % 8 ≠ 0 ∨ !(dget j.d 16 7 1 == 0 && dZero j.d 17 24 && dZero j.d 32 64) then
      s.complete j St.badDesc
    else if s.dotUsed t k then s.complete j St.refusedState
    else if s.isBoomed t then s.complete j St.fenced
    else if !m && !w then s.complete j St.ok
    else if (s.bls t).load.isSome then s0
    else s.loadRead s0 12 j (dget j.d 24 0 64) ((if m then 8 else 0) + (if w then 128 else 0)) data fun bs s =>
      let map := if m then some (entries 8 1 bs) else none
      let wave := if w then some (entries 8 16 (if m then bs.drop 8 else bs)) else none
      match wave.bind fun vs => vs.findIdx? fun v => !waveOk v 4 0 0 with
      | some c => s.loadDone 12 (some 0) j St.badDesc (c + 2 ^ 8)
      | none => s.dotApply j t k map wave

def execDotSetLoad (n : Nat) (data : ReadRes) (s : State) : Host.Outcome State Fault Refusal := .next (dotSetLoadEff n data s)

/-- The head has read back the set that a DOT_SET_LOAD writes (R191): equal, the station's copy is written at this edge, unless a crossing has
come to use the set (log 112). -/
def State.loadBack (s : State) (n : Nat) (l : HeadLoad) (bytes : List Byte) : State :=
  if bytes = l.wave.flatMap (fun v => leBytes 8 v) then
    let s := s.setBl n { s.bls n with load := none }
    if s.dotUsed n l.set then (s.headBad n).loadDone 12 (some l.len) l.job St.refusedState
    else (s.setDot n l.set l.map (some l.wave)).loadDone 12 (some l.len) l.job St.ok
  else s.headBad n

end Sys2Proof.Machine
end

