-- ==== Sys2Proof/Machine/Fenlink.lean ====
section
/-! DEFINITION. Fenlink (R315–R327): cycles and poll rounds, admission, replies, missed replies and booms, node lists, and what a port does
as Moored begins and ends or as it is laid up. -/

namespace Sys2Proof.Machine

def FPort.init : FPort :=
  { mode := 0, cycAt := none, due := [], last := 0, roundAt := none, pollAt := 0, resumeAt := 0, roll := none, called := 0, rot := 0, errs := [] }
def State.fports (s : State) (p : Nat) : FPort := tget FPort.init s.fport p
def State.setFport (s : State) (p : Nat) (x : FPort) : State := { s with fport := tput FPort.init s.fport p x }

/-! ### Frames (R315, R316) -/

/-! Frame types. -/
namespace Fl
def sync : Nat := 1
def poll : Nat := 2
def output : Nat := 3
def admitNode : Nat := 4
def call : Nat := 5
def rate : Nat := 6
def reply : Nat := 0x81
def hello : Nat := 0x82
end Fl

/-- The body of a frame: ADDR, TYPE, TALLY, LEN, payload, CRC. -/
def flBody (addr typ tally : Nat) (pay : List Byte) : List Byte :=
  let b := [BitVec.ofNat 8 addr, BitVec.ofNat 8 typ] ++ leBytes 2 tally ++ [BitVec.ofNat 8 pay.length] ++ pay
  b ++ leBytes 2 (crc16 b)

/-- The bits of a byte, least significant first. -/
def lsbFirst (b : Byte) : List Bool := (List.range 8).map b.getLsbD

/-- The levels of the line that carry a body (R315): characters of Fenlink-1, or the preamble, the delimiter and the body in Manchester code, a 1
low then high, of Fenlink-2. -/
def flLine (gen : Nat) (body : List Byte) : List Bool :=
  if gen = 1 then ([0x55, 0x55, 0xD5] ++ body).flatMap fun b => (lsbFirst b).flatMap fun x => [!x, x]
  else body.flatMap fun b => [false] ++ lsbFirst b ++ [true]

/-- How long one level of port `p`'s line lasts, in ns (R315, R325). -/
def State.flLevel (s : State) (p : Nat) : Nat := if s.lv Reg.FL_CFG_GEN p = 1 then (if (s.fports p).mode = 2 then 500 else 20) else 1000

/-- Port `p` sends a frame at device time `t`. -/
def State.flFrame (s : State) (p t addr typ tally : Nat) (pay : List Byte) : State :=
  s.emit (.fenlink p (t % pos40) (s.flLevel p) (flLine (s.lv Reg.FL_CFG_GEN p) (flBody addr typ tally pay)))

/-- A frame from a node: its address, TYPE, TALLY and payload; `none` where its CRC fails or LEN disagrees with its length. -/
def flParse (fr : List Byte) : Option (Nat × Nat × Nat × List Byte) :=
  let n := fr.length
  if n < 7 ∨ 39 < n ∨ byteAt fr 4 + 7 ≠ n ∨ bytesAt fr (n - 2) 2 ≠ crc16 (fr.take (n - 2)) then none
  else some (byteAt fr 0, byteAt fr 1, bytesAt fr 2 2, (fr.drop 5).take (n - 7))

/-- S, the slots of a Fenlink-2 cycle (R317). -/
def State.flSlots (s : State) (p : Nat) : Nat := (s.lv Reg.FL_CFG_CYCLE_US p - 24) / 16
/-- The unit of a port (R67). -/
def flUnit (p : Nat) : Nat := 114 + p
/-- Port `p` runs: enabled, in service, not stopped for Moored. -/
def State.flRunning (s : State) (p : Nat) : Bool := s.lon Reg.FL_CFG_EN p && !s.fenced (flUnit p) && (s.fports p).mode == 0

/-- The node list entries of port `p`, ascending. -/
def State.flList (s : State) (p : Nat) : List (Nat × FNode) :=
  (s.fnode.filter fun e => e.1 / 256 == p).map fun e => (e.1 % 256, e.2)

/-- When slot `k` of the present cycle of port `p` begins (R317). -/
def State.flSlotAt (s : State) (p k : Nat) : Nat := (s.fports p).cycAt.getD 0 + 24000 + 16000 * k
/-- This edge lies in slot `k` of a Fenlink-2 cycle; a poll's answer has no slot. -/
def State.flInSlot (s : State) (p k : Nat) : Bool :=
  !(s.lv Reg.FL_CFG_GEN p == 1 && (s.fports p).mode == 0) || (decide (s.flSlotAt p k ≤ s.now) && decide (s.now ≤ s.flSlotAt p k + 16000))
/-- The last frame of a Fenlink-1 port, or one of Moored upkeep, has had its answer time: the frame and REPLY_US (R318). -/
def State.flWaited (s : State) (p : Nat) : Bool := decide ((s.fports p).pollAt + 80000 + 1000 * s.lv Reg.FL_CFG_REPLY_US p ≤ s.now)

/-- Read the node list word of address `a` (R18, R21): whether it may be used. -/
def State.flRead (s : State) (p a : Nat) : Bool × State := s.tableRead (flUnit p) (nodeWord p a)

/-- The enabled nodes of port `p` whose entries can be read, and the state after reading them. -/
def State.flNodes (s : State) (p : Nat) : List (Nat × FNode) × State :=
  ((s.flList p).filter fun x => x.2.en).foldl (fun r x =>
    let (ok, s) := r.2.flRead p x.1
    (if ok then r.1 ++ [x] else r.1, s)) ([], s)

/-- The node is admitted and gets frames. -/
def State.flServed (s : State) (p a : Nat) : Bool := s.on Reg.FL_NODE_ADMITTED p a && !s.nodeFenced p a

/-! ### Admission (R323) -/

/-- A port's next roll-call at device time `t`: ADMIT to the lowest node due, else CALL to the next address that the list does not enable. -/
def State.flRoll (s : State) (p t : Nat) (ns : List (Nat × FNode)) : State :=
  let x := s.fports p
  match ns.find? fun (n : Nat × FNode) => !s.on Reg.FL_NODE_ADMITTED p n.1 && !s.nodeFenced p n.1 &&
      (match n.2.admitAt with | none => true | some t => decide (t + 1000000000 ≤ s.now)) with
  | some (a, n) =>
    let s := (s.setFnode p a { n with admitAt := some s.now }).setFport p { x with roll := some (a, true) }
    s.flFrame p t a Fl.admitNode 0 (leBytes 2 (s.rd Reg.FL_TALLY_NEXT p))
  | none =>
    match ((List.range 255).map fun i => (x.called + i) % 255 + 1).find? fun a => !(s.fnodes p a).en with
    | some a => (s.setFport p { x with roll := some (a, false), called := a }).flFrame p t a Fl.call 0 []
    | none => s.setFport p { x with roll := none }

/-! ### Missed replies (R324) -/

/-- A scheduled reply or poll of a node is missed; the third in a row booms it. -/
def State.flMiss (s : State) (p a : Nat) : State :=
  let x := s.fports p
  let s := s.setFport p { x with due := x.due.filter (· != a) }
  let m := s.rd Reg.FL_NODE_MISSES p a + 1
  let s := s.cnt Reg.FL_CNT1_MISSED p
  if m < 3 then s.wr Reg.FL_NODE_MISSES m p a
  else (((s.boomNode p a).raise Src.flNodeBoom (0xF0 + p) a).flClose p a (s.now + 1))

/-- Replies of an earlier cycle or poll that never came are missed. -/
def State.flOverdue (s : State) (p : Nat) : State := (s.fports p).due.foldl (fun s a => s.flMiss p a) s

/-! ### FENLINK_CYCLE (R317, R321) -/

/-- The nodes whose outputs go out in a cycle's OUTPUT: those changed, ascending, and then others in rotation (R321, log 34). -/
def State.flOutputs (s : State) (p : Nat) (ns : List (Nat × FNode)) : List Nat × List Nat :=
  let as := (ns.map (·.1)).filter fun a => s.flServed p a
  let ch := (as.filter fun a => (s.fnodes p a).sent != some (s.rd Reg.FL_NODE_OUT p a)).take 8
  let r := (s.fports p).rot
  let rest := (as.filter (fun a => decide (r < a)) ++ as.filter (fun a => decide (a ≤ r))).filter fun a => !ch.contains a
  (ch, rest.take (8 - ch.length))

/-- OUTPUT is sent at device time `t` to at most 8 nodes. -/
def State.flSend (s : State) (p t : Nat) (as : List Nat) : State :=
  if as = [] then s
  else
    let pay := as.flatMap fun a => leBytes 1 a ++ leBytes 1 (s.rd Reg.FL_NODE_OUT p a) ++ leBytes 2 (s.rd Reg.FL_NODE_TALLY_TALLY p a)
    let s := as.foldl (fun s a => s.setFnode p a { s.fnodes p a with sent := some (s.rd Reg.FL_NODE_OUT p a) }) s
    s.flFrame p t 0 Fl.output 0 pay

/-- A Fenlink-2 port starts a cycle. -/
def fenlinkCycleEff (p : Nat) (s : State) : State :=
  let us := s.lv Reg.FL_CFG_CYCLE_US p
  if 4 ≤ p ∨ !s.flRunning p ∨ s.lv Reg.FL_CFG_GEN p ≠ 1 ∨ us = 0 ∨ s.now % (1000 * us) ≠ 0 ∨ (s.fports p).cycAt = some s.now ∨
      s.now < (s.fports p).resumeAt then s
  else
    let s := s.flOverdue p
    let c := s.now / (1000 * us)
    let (ns, s) := s.flNodes p
    let s := (s.wr Reg.FL_CYCLE_CYCLE c p).flFrame p s.now 0 Fl.sync 0 (leBytes 2 c ++ leBytes 5 s.stamp)
    let (ch, rest) := s.flOutputs p ns
    let s := s.flSend p (s.now + 7760) (ch ++ rest)
    let due := (ns.filter fun n => s.flServed p n.1 && decide (n.2.slot + 1 < s.flSlots p) && c % 2 ^ n.2.every == n.2.phase).map (·.1)
    let s := s.setFport p { s.fports p with cycAt := some s.now, due := due, rot := rest.getLastD (s.fports p).rot }
    s.flRoll p (s.flSlotAt p (s.flSlots p - 1)) ns

def execFenlinkCycle (port : Nat) (s : State) : Host.Outcome State Fault Refusal := .next (fenlinkCycleEff port s)

/-! ### FENLINK_POLL (R318, R325) -/

/-- A port sends the next frame of its round, once the last has had its answer time: POLL to the next node, or the CALL or ADMIT that ends
it; in Moored upkeep POLL to nodes with wake points only, every MOOR_POLL_MS. -/
def fenlinkPollEff (p : Nat) (s : State) : State :=
  let x := s.fports p
  let moor := x.mode == 2
  if 4 ≤ p ∨ !(moor && s.lon Reg.FL_CFG_EN p && !s.fenced (flUnit p) || s.flRunning p && s.lv Reg.FL_CFG_GEN p == 0) then s
  else if (!x.due.isEmpty || x.roll.isSome) && !s.flWaited p then s
  else if moor && decide (x.last = 0) && decide (s.now < x.roundAt.getD 0 + 1000000 * s.lv Reg.FL_CFG_MOOR_POLL_MS p) then s
  else
    let s := s.flOverdue p
    let (ns, s) := s.flNodes p
    let s := match x.roundAt with
      | some t => if x.last = 0 ∧ !moor then s.wr Reg.FL_CYCLE_ROUND_US (min 65535 ((s.now - t) / 10000)) p else s
      | none => s
    let x := { s.fports p with roll := none, pollAt := s.now, roundAt := if x.last = 0 then some s.now else x.roundAt }
    match ns.find? fun (n : Nat × FNode) => decide (x.last < n.1) && s.flServed p n.1 && (!moor || n.2.wake != 0) with
    | some (a, n) =>
      let out := s.rd Reg.FL_NODE_OUT p a
      let s := s.setFport p { x with due := [a], last := a }
      (s.setFnode p a { n with sent := some out }).flFrame p s.now a Fl.poll (s.rd Reg.FL_NODE_TALLY_TALLY p a) (leBytes 1 out)
    | none =>
      let s := s.setFport p { x with last := 0 }
      if moor then s else s.flRoll p s.now ns

def execFenlinkPoll (port : Nat) (s : State) : Host.Outcome State Fault Refusal := .next (fenlinkPollEff port s)

/-! ### REPLY (R316, R319, R320) -/

/-- A frame is discarded (R316); more than 16 within 1 s raise FL_BUS (R326). -/
def State.flBad (s : State) (p : Nat) : State :=
  let x := s.fports p
  let es := (s.now :: x.errs.filter fun t => decide (s.now < t + 1000000000)).take 17
  let s := (s.cnt Reg.FL_CNT1_CRC_ERR p).setFport p { x with errs := es }
  if es.length = 17 then s.raise Src.flBus (flUnit p) else s

/-- The device time of a stamp (R319). -/
def State.flTime (s : State) (u delay : Nat) : Nat :=
  let a := s.now / 100
  ((((a : Int) - (((a + 2 ^ 28 - u % 2 ^ 28) % 2 ^ 28 : Nat) : Int)) * 100 + 10 * delay) % (pos40 : Int)).toNat

/-- The edges of a reply: those it lists with their stamps, or on Fenlink-1 the points whose level differs from the previous reply, with the
arrival; in Moored stamps are not converted (R318, R319, R325). Point, level, time, arrival only. -/
def State.flEdges (s : State) (p : Nat) (n : FNode) (was levels : Nat) (edges : List (Nat × Bool × Nat)) : List (Nat × Bool × Nat × Bool) :=
  if s.lv Reg.FL_CFG_GEN p = 0 then
    if n.replied then ((List.range 8).filter fun i => bitOf was i != bitOf levels i).map fun i => (i, bitOf levels i, s.stamp, true) else []
  else (edges.take 6).map fun e =>
    if (s.fports p).mode = 2 then (e.1 % 8, e.2.1, s.stamp, true) else (e.1 % 8, e.2.1, s.flTime e.2.2 n.delay, false)

/-- The start of the slot or poll that a reply answers. -/
def State.flStart (s : State) (p : Nat) (n : FNode) : Nat :=
  let x := s.fports p
  if s.lv Reg.FL_CFG_GEN p = 1 ∧ x.mode = 0 then s.flSlotAt p n.slot else x.pollAt

/-- A valid reply of a scheduled node with its present tally; in Moored upkeep a change of a wake point wakes the device (R325). -/
def State.flAccept (s : State) (p a levels flags : Nat) (edges : List (Nat × Bool × Nat)) : State :=
  let n := s.fnodes p a
  let x := s.fports p
  let es := s.flEdges p n (s.rd Reg.FL_NODE_IN p a) levels edges
  let start := s.flStart p n
  let wakes := x.mode == 2 && p == 0 && n.replied && (s.rd Reg.FL_NODE_IN p a ^^^ levels) &&& n.wake != 0
  let s := (s.setFport p { x with due := x.due.filter (· != a) }).setFnode p a { n with replied := true }
  let s := (s.wr Reg.FL_NODE_IN levels p a).wr Reg.FL_NODE_MISSES 0 p a
  let s := if bitOf flags 1 then (s.cnt Reg.FL_CNT3_EDGE_OVF p).flRec p a 7 St.ok flags else s
  let s := (es.filter fun e => bitOf n.ev e.1 && !bitOf n.dir e.1).foldl (fun s e =>
    s.flRec p a 6 St.ok (e.1 + (if e.2.1 then 8 else 0) + 2 ^ 4 * e.2.2.1 + (if e.2.2.2 then 2 ^ 44 else 0))) s
  let s := s.flRun ((es.map fun e => (p, a, FlEv.edge e.1 e.2.1 e.2.2.1)) ++ [(p, a, FlEv.reply start)])
  if wakes then s.wakeAsk 3 else s

/-- The edge records of a REPLY's payload: point, level, stamp. -/
def flRecords (pay : List Byte) : List (Nat × Bool × Nat) :=
  (List.range (byteAt pay 2)).map fun i =>
    let w := bytesAt pay (3 + 4 * i) 4
    (w % 8, bitOf w 3, w / 16)

/-- A REPLY of node `a` (R316, R322, R324): a retired tally is stale, an unscheduled frame is discarded, and one with another tally does not
count. -/
def State.flReply (s : State) (p a tally : Nat) (pay : List Byte) : State :=
  let x := s.fports p
  if tally ≠ 0 ∧ tally = (s.fnodes p a).retired ∧ tally ≠ s.rd Reg.FL_NODE_TALLY_TALLY p a then
    (((s.wr Reg.FL_NODE_STALE_SEEN 1 p a).cnt Reg.FL_CNT2_STALE p).flRec p a 5 St.staleTally tally).raise Src.flStale (0xF0 + p) a
  else if !x.due.contains a ∨ !s.flInSlot p (s.fnodes p a).slot then s.flBad p
  else if tally ≠ s.rd Reg.FL_NODE_TALLY_TALLY p a then s
  else s.flAccept p a (byteAt pay 0) (byteAt pay 1) (flRecords pay)

/-- A REPLY frame arrives: one that is damaged, of another TYPE, or whose N disagrees with its payload, is discarded (R316). -/
def replyEff (p : Nat) (frame : List Byte) (s : State) : State :=
  if 4 ≤ p ∨ !(s.flRunning p || (s.fports p).mode == 2) then s
  else match flParse frame with
    | none => s.flBad p
    | some (a, typ, tally, pay) =>
      let n := byteAt pay 2
      if typ ≠ Fl.reply ∨ a = 0 ∨ pay.length ≠ 3 + 4 * n ∨ 6 < n ∨ (s.lv Reg.FL_CFG_GEN p = 0 ∧ n ≠ 0) then s.flBad p
      else s.flReply p a tally pay

def execReply (port : Nat) (frame : List Byte) (s : State) : Host.Outcome State Fault Refusal := .next (replyEff port frame s)

/-- A scheduled reply or poll does not arrive valid (R324): its slot, or the wait for it, is over. -/
def replyMissedEff (p a : Nat) (s : State) : State :=
  let x := s.fports p
  let ovr := if s.lv Reg.FL_CFG_GEN p = 1 ∧ x.mode = 0 then decide (s.flSlotAt p (s.fnodes p a).slot + 16000 ≤ s.now)
    else s.flWaited p
  if x.due.contains a && ovr then s.flMiss p a else s

def execReplyMissed (port node : Nat) (s : State) : Host.Outcome State Fault Refusal := .next (replyMissedEff port node s)

/-! ### HELLO (R323) -/

/-- Node `a` answers ADMIT or CALL: admitted, refused for its identity, or a stranger. -/
def State.flHello (s : State) (p a id tally : Nat) : State :=
  let x := s.fports p
  let n := s.fnodes p a
  let offer := s.rd Reg.FL_TALLY_NEXT p
  match x.roll with
    | none => s.flBad p
    | some (b, admitNode) =>
      if b ≠ a ∨ !s.flInSlot p (s.flSlots p - 1) then s.flBad p
      else
        let s := (s.setFport p { x with roll := none }).wr Reg.FL_NODE_ID_UNIT_ID id p a
        if !admitNode then
          ((s.cnt Reg.FL_CNT2_STRANGERS p).flRec p a 3 St.ok (id % 2 ^ 32)).raise Src.flStranger (0xF0 + p) a
        else if n.id ≠ id % 2 ^ 32 then
          if n.wrong.contains (id % 2 ^ 32) then s
          else (s.setFnode p a { n with wrong := n.wrong ++ [id % 2 ^ 32] }).flRec p a 2 St.mismatch (id % 2 ^ 32)
        else if tally ≠ offer then s
        else
          let s := ((s.wr Reg.FL_NODE_ADMITTED 1 p a).wr Reg.FL_NODE_TALLY_TALLY offer p a).wr Reg.FL_NODE_MISSES 0 p a
          let s := (s.wr Reg.FL_TALLY_NEXT (if offer = 65535 then 1 else offer + 1) p).wr Reg.FL_STAT_ADMITTED (s.rd Reg.FL_STAT_ADMITTED p + 1) p
          (s.setFnode p a { n with admitAt := none, sent := none }).flRec p a 1 St.ok offer

/-- A HELLO frame arrives; one that is damaged, or of another TYPE or length, is discarded (R316). -/
def helloEff (p : Nat) (frame : List Byte) (s : State) : State :=
  if 4 ≤ p ∨ !s.flRunning p then s
  else match flParse frame with
    | none => s.flBad p
    | some (a, typ, _, pay) =>
      if typ ≠ Fl.hello ∨ a = 0 ∨ pay.length ≠ 6 then s.flBad p else s.flHello p a (bytesAt pay 0 4) (bytesAt pay 4 2)

def execHello (port : Nat) (frame : List Byte) (s : State) : Host.Outcome State Fault Refusal := .next (helloEff port frame s)

/-! ### NODE_LIST_LOAD (R321, R322) -/

/-- A node list entry of 16 bytes, `none` where R322 refuses it; its other fields are the node's present ones. -/
def nodeOf (old : FNode) (v : Nat) : Option FNode :=
  let e := field v 72 3
  let ph := field v 80 7
  if field v 33 7 ≠ 0 ∨ field v 70 2 ≠ 0 ∨ field v 75 5 ≠ 0 ∨ field v 87 1 ≠ 0 ∨ field v 96 32 ≠ 0 ∨ 2 ^ e ≤ ph then none
  else some (nodeRaw old v)

/-- Two nodes share a slot and answer in one cycle (R327). -/
def slotClash : List FNode → Bool
  | [] => false
  | n :: ns => (ns.any fun m => m.slot == n.slot && n.phase % 2 ^ min n.every m.every == m.phase % 2 ^ min n.every m.every) || slotClash ns

/-- Check 0x02 of R327 over the enabled nodes of a list, with `S` slots (log 35). -/
def listClash (gen S : Nat) (ns : List FNode) : Bool :=
  (decide (gen = 1) && ns.any fun n => decide (S < n.slot + 2)) || slotClash ns

/-- The node list entry alone. -/
def FNode.entry (n : FNode) : FNode := { FNode.init with id := n.id, en := n.en, dir := n.dir, wake := n.wake, ev := n.ev, slot := n.slot, every := n.every, phase := n.phase, delay := n.delay }

/-- Node `a` of port `p` is the source of an enabled sheet or mark sensor. -/
def State.flSource (s : State) (p a : Nat) : Bool :=
  ((List.range 32).any fun i => s.sheetNode i == some (p, a)) || (List.range 16).any fun m => s.markNode m == some (p, a)

/-- Entries are written at one edge (R322): an admitted node whose entry changes is dropped. -/
def State.flWrite (s : State) (p first cnt : Nat) (es : List Nat) : State :=
  let s := s.tableWrite (nodeWord p) 2 first cnt fun w s =>
    (List.range 256).foldl (fun s a => if nodeWord p a = w then s.setFnode p a { FNode.init with retired := (s.fnodes p a).retired } else s) s
  (List.range cnt).foldl (fun s k =>
    let a := first + k
    let old := s.fnodes p a
    let n := (nodeOf old (es.getD k 0)).getD old
    let s := if n.entry = old.entry then s else (s.flRetire p a).wb Reg.FL_NODE_LISTED n.en p a
    let r := (s.fnodes p a).retired
    s.setFnode p a (if n.entry = old.entry then n else { n with retired := r, admitAt := none, wrong := [], sent := none })) s

/-- NODE_LIST_LOAD, with what its source read returned. -/
def nodeListLoadEff (n : Nat) (data : ReadRes) (s0 : State) : State :=
  s0.withDesc n 0x56 fun j s =>
    let p := dget j.d 16 0 2
    let first := dget j.d 17 0 8
    let cnt := dget j.d 18 0 8
    if dget j.d 16 2 6 ≠ 0 ∨ !dZero j.d 19 24 ∨ !dZero j.d 32 64 ∨ dCrx j.d ≠ 0 ∨ first = 0 ∨ 256 < first + cnt ∨ dget j.d 24 0 3 ≠ 0 then
      s.complete j St.badDesc
    else if cnt = 0 then s.complete j St.ok
    else s.loadRead s0 12 j (dget j.d 24 0 64) (16 * cnt) data fun bs s =>
      let es := Machine.entries 16 cnt bs
      let new (a : Nat) : FNode := let old := s.fnodes p a
        if first ≤ a ∧ a < first + cnt then (nodeOf old (es.getD (a - first) 0)).getD old else old
      match firstBad (nodeOf FNode.init) first es with
      | some i => s.loadDone 12 (some 0) j St.badDesc i
      | none =>
        let list := ((List.range 256).map new).filter fun n => n.en
        let live := s.crossings.any fun c => c.state == 2 || c.state == 3
        if listClash (s.lv Reg.FL_CFG_GEN p) (s.flSlots p) list ∨
            (live ∧ (List.range cnt).any fun k => (new (first + k)).entry != (s.fnodes p (first + k)).entry && s.flSource p (first + k)) then
          s.loadDone 12 (some 0) j St.refusedState
        else (s.flWrite p first cnt es).loadDone 12 (some (16 * cnt)) j St.ok

def execNodeListLoad (n : Nat) (data : ReadRes) (s : State) : Host.Outcome State Fault Refusal := .next (nodeListLoadEff n data s)

/-! ### Ports and nodes that stop (R325, R364) -/

/-- One final OUTPUT or POLL round (R325, R364): frames of 8 nodes, or polls whose answers are not heard (log 152). -/
def State.flFinal (s : State) (p : Nat) : State :=
  let as := ((s.flList p).map (·.1)).filter fun a => s.flServed p a
  if !s.lon Reg.FL_CFG_EN p then s
  else if s.lv Reg.FL_CFG_GEN p = 1 then
    (List.range ((as.length + 7) / 8)).foldl (fun s i => s.flSend p (s.now + 16000 * i) ((as.drop (8 * i)).take 8)) s
  else as.zipIdx.foldl (fun s x =>
    s.flFrame p (s.now + (80000 + 1000 * s.lv Reg.FL_CFG_REPLY_US p) * x.2) x.1 Fl.poll (s.rd Reg.FL_NODE_TALLY_TALLY p x.1) (leBytes 1 (s.rd Reg.FL_NODE_OUT p x.1))) s

/-- Step 3 of Moored entry (R311, R325). -/
def State.flMoor (s : State) : State :=
  let s := [1, 2, 3].foldl (fun s p => (s.flFinal p).setFport p { s.fports p with mode := 1, due := [], roll := none }) s
  let s := if s.lv Reg.FL_CFG_GEN 0 = 1 ∧ s.lon Reg.FL_CFG_EN 0 then s.flFrame 0 s.now 0 Fl.rate 0 (leBytes 1 1) else s
  s.setFport 0 { s.fports 0 with mode := 2, due := [], roll := none, last := 0, roundAt := some s.now }

/-- The Fenlink ports resume after Moored (R311, R325), FL0 in 25 Mbit/s after 200 µs. -/
def State.flResume (s : State) : State :=
  let s := if s.lv Reg.FL_CFG_GEN 0 = 1 ∧ s.lon Reg.FL_CFG_EN 0 then s.flFrame 0 s.now 0 Fl.rate 0 (leBytes 1 0) else s
  [0, 1, 2, 3].foldl (fun s p => s.setFport p { s.fports p with mode := 0, due := [], roll := none, last := 0, roundAt := none,
                                                                         resumeAt := if p = 0 then s.now + 200000 else 0 }) s

/-- The tallies of all nodes of a port are retired without boom (R364); windows that wait for them close. -/
def State.flRetireAll (s : State) (p : Nat) : State := (s.flList p).foldl (fun s x => (s.flRetire p x.1).flClose p x.1 (s.now + 1)) s

end Sys2Proof.Machine
end

