-- ==== Sys2Proof/Machine/Therm.lean ====
section
/-! DEFINITION. Temperature sensors, throttling, hardware shutdown and the core-supply droop (R299–R304). -/

namespace Sys2Proof.Machine

/-! ### Readings (R299, R300) -/

/-- The points of curve `c`: code and temperature. -/
def State.curve (s : State) (c : Nat) : List (Nat × Int) :=
  (List.range 16).map fun p => (s.rd Reg.THM_CURVE_CODE c p, s.rdI Reg.THM_CURVE_TEMP c p)

/-- Codes strictly ascending. -/
def ascending : List Nat → Bool
  | a :: b :: t => decide (a < b) && ascending (b :: t)
  | _ => true

/-- A curve is strictly monotonic (R299). -/
def State.curveOk (s : State) (c : Nat) : Bool :=
  let cs := (s.curve c).map (·.1)
  ascending cs || ascending cs.reverse

/-- CURVE_BAD (R300). -/
def State.curveShow (s : State) : State :=
  s.wr Reg.THM_HW_STAT_CURVE_BAD ((List.range 4).foldl (fun m c => if s.curveOk c then m else m + 2 ^ c) 0)

/-- Interpolate code `x` on ascending points, `none` outside the span. -/
def interpolate (x : Nat) : List (Nat × Int) → Option Int
  | a :: b :: t =>
    if x < a.1 then none
    else if x ≤ b.1 then some (a.2 + nearest (((x - a.1 : Nat) : Int) * (b.2 - a.2)) (b.1 - a.1))
    else interpolate x (b :: t)
  | _ => none

/-- The temperature of a code on curve `c` (R299), `none` where the sensor counts as broken (R300). -/
def State.convertTemp (s : State) (c x : Nat) : Option Int :=
  let ps := s.curve c
  if !s.curveOk c then none else interpolate x (if ascending (ps.map (·.1)) then ps else ps.reverse)

/-- What sensor `i` reads: `die` the eight die temperatures, `adc` the codes of the ADC inputs. -/
def State.sensorTemp (s : State) (die : List Int) (adc : List Nat) (i : Nat) : Option Int :=
  if !s.on Reg.THM_SENS_CFG_EN i then none
  else if i < 8 then some (die.getD i 0)
  else s.convertTemp (s.rd Reg.THM_SENS_CFG_CURVE i) (adc.getD (if i < 40 then s.rd Reg.THM_SENS_CFG_ADC_IN i else i) 0)

/-! ### Throttling (R301) -/

/-- THR_MIN: 0 acts as 1, above 256 acts as 256. -/
def State.thrMin (s : State) : Nat := min 256 (max 1 (s.rd Reg.THM_CFG_THR_MIN))

/-- The effective temperature of a sensor after a reading. -/
def nextEff (T : Int) (hyst : Nat) : Option Int → Int
  | none => T
  | some e => if e ≤ T then T else if T < e - hyst then T + hyst else e

/-- The factor of a sensor with effective temperature `te`. -/
def State.factor (s : State) (i : Nat) (te : Int) : Nat :=
  let e := te - s.rdI Reg.THM_SENS_THR_T_THR i
  if e ≤ 0 then 256
  else max s.thrMin (256 - (256 * e.toNat + (max 1 (s.rd Reg.THM_SENS_THR_T_SPAN i) - 1)) / max 1 (s.rd Reg.THM_SENS_THR_T_SPAN i))

/-- Sensor `i` takes reading `t` (R299–R301). -/
def State.sensorTake (s : State) (i : Nat) (t : Option Int) : State :=
  match t with
  | none =>
    let en := s.on Reg.THM_SENS_CFG_EN i
    let was := s.on Reg.THM_SENS_STAT_BROKEN i
    let s := (s.wr Reg.THM_SENS_STAT_TEMP 0x8000 i).wr Reg.THM_SENS_STAT_BROKEN 1 i
    let f := if en then s.thrMin else 256
    let s := (s.wr Reg.THM_SENS_STAT_FACTOR f i).wb Reg.THM_SENS_STAT_THROTTLING (decide (f < 256)) i
    let s := s.setCause Src.thermBroken Src.noUnit en i
    if en && !was then s.raise Src.thermBroken Src.noUnit i else s
  | some T =>
    let te := nextEff T (s.rd Reg.THM_CFG_THR_HYST) (tget none s.tEff i)
    let s := { s with tEff := tput none s.tEff i (some te) }
    let f := s.factor i te
    let s := (s.wrI Reg.THM_SENS_STAT_TEMP T i).wr Reg.THM_SENS_STAT_BROKEN 0 i
    let s := (s.wr Reg.THM_SENS_STAT_FACTOR f i).wb Reg.THM_SENS_STAT_THROTTLING (decide (f < 256)) i
    s.setCause Src.thermBroken Src.noUnit false i

/-- The least factor over the enabled sensors that name a target. -/
def State.least (s : State) (names : Nat → Bool) (n : Nat) : Nat :=
  (List.range n).foldl (fun m i =>
    if s.on Reg.THM_SENS_CFG_EN i && names i then min m (s.rd Reg.THM_SENS_STAT_FACTOR i) else m) 256

/-- HB_SIXTEENTHS and THROTTLE: the lower of what the droop and the thermal throttle call for (R304). -/
def State.hbShow (s : State) : State :=
  ((s.wr Reg.GEN_CLK_STAT_HB_SIXTEENTHS (min s.hbTherm s.hbDroop)).wb Reg.GEN_CLK_STAT_THROTTLE (decide (s.hbTherm < 16))).wb
    Reg.GEN_CLK_STAT_DROOP (decide (s.hbDroop < 16))

/-- The factors of the targets (R301): the harbour clock takes its at once, heaters and drive channels theirs at their next step. -/
def State.throttle (s : State) : State :=
  let f (u : Nat) : Nat := s.least (fun i => if u < 4 then bitOf (s.rd Reg.THM_SENS_TGT_HTR_MASK i) u else bitOf (s.rd Reg.THM_SENS_TGT_DRV_MASK i) (u - 4)) 48
  let s := { s with thrAt := s.now, thrWant := (List.range 20).foldl (fun t u => tput 256 t u (f u)) s.thrWant }
  { s with hbTherm := max 4 ((s.least (fun i => s.on Reg.THM_SENS_TGT_HB i) 8 + 15) / 16) }.hbShow

/-- What a rail's sense reads in mV (R305). -/
def State.railMv (s : State) (n code : Nat) : Nat := (Config.rnd (code * s.rd Reg.RAIL_SCALE_SCALE n : Nat) 256).toNat

/-- Rail `n` reads `code` on its sense (R305). -/
def State.railSense (s : State) (n code : Nat) : State :=
  let mv := s.railMv n code
  (s.wr Reg.RAIL_STAT_MV mv n).wb Reg.RAIL_STAT_GOOD
    (decide (s.rd Reg.RAIL_LVL2_LO_MV n ≤ mv) && decide (mv ≤ s.rd Reg.RAIL_LVL2_HI_MV n)) n

/-- The sensors are read at a whole millisecond of device time (R299–R301), which is also a 10 µs edge of the rails' senses (R305). -/
def sensorReadEff (die : List Int) (adc : List Nat) (s : State) : State :=
  if s.now % 1000000 ≠ 0 ∨ s.now / 1000000 < s.thermMs then s
  else
    let s := { s with thermMs := s.now / 1000000 + 1 }.curveShow
    let s := (List.range 48).foldl (fun s i => s.sensorTake i (s.sensorTemp die adc i)) s
    let s := s.throttle
    let s := (List.range 16).foldl (fun s n => if s.on Reg.RAIL_CFG_EN n then s.railSense n (adc.getD (s.rd Reg.RAIL_CFG_SNS_IN n) 0) else s) s
    (List.range 6).foldl (fun s n => if s.lv Reg.BL_CFG_PORT n = 0 then s else s.otUpdate n) s

def execSensorRead (die : List Int) (adc : List Nat) (s : State) : Host.Outcome State Fault Refusal := .next (sensorReadEff die adc s)

/-! ### Hardware shutdown (R302, R303) -/

/-- A die comparator trips at 125 °C (R302). -/
def dieTripEff (i : Nat) (s : State) : State :=
  if 8 ≤ i ∨ s.hasCause Src.dieTrip Src.noUnit i then s
  else
    let was := s.on Reg.THM_HW_STAT_DIE_HOLD
    let s := ((s.wr Reg.THM_HW_STAT_DIE_HOLD 1).wr Reg.THM_HW_STAT_DIE_TRIPPED 1).lensUpdate
    let s := (List.range 6).foldl (fun s n => s.endExpo n .stopped) s
    let s := (List.range 16).foldl (fun s n => s.drvTrip n Src.dieTrip) s
    let s := (List.range 16).foldl (fun s k => s.stpTrip k Src.dieTrip) s
    let s := (List.range 32).foldl (fun s h => s.hvTrip h Src.dieTrip) s
    let s := (List.range 4).foldl (fun s k => s.htrTrip k Src.dieTrip) s
    let s := s.raiseLive Src.dieTrip Src.noUnit i
    if was then s else s.powerRec 5 St.ok (1 + 2 ^ 9)

def execDieTrip (sensor : Nat) (s : State) : Host.Outcome State Fault Refusal := .next (dieTripEff sensor s)

/-- Every die sensor has read below 110 °C (R302). -/
def dieHoldReleaseEff (s : State) : State :=
  if !s.on Reg.THM_HW_STAT_DIE_HOLD ∨
      !((List.range 8).all fun i => !s.on Reg.THM_SENS_STAT_BROKEN i && decide (s.rdI Reg.THM_SENS_STAT_TEMP i < 1760)) then s
  else
    let s := (s.wr Reg.THM_HW_STAT_DIE_HOLD 0).lensUpdate
    let s := ((List.range 8).foldl (fun s i => s.setCause Src.dieTrip Src.noUnit false i) s).powerRec 5 St.ok 1
    if bitOf (s.rd Reg.FLT_LATCH) Src.dieTrip then s else s.tripsClear Src.dieTrip

def execDieHoldRelease (s : State) : Host.Outcome State Fault Refusal := .next (dieHoldReleaseEff s)

/-- `code` lies inside the narrowed window [LO + 16, HI − 16] of comparator `j` (R303). -/
def State.fusInside (s : State) (j code : Nat) : Bool :=
  decide (s.rd Reg.THM_FUS_CMP_LO j + 16 ≤ code) && decide (code + 16 ≤ s.rd Reg.THM_FUS_CMP_HI j)

/-- Comparator `j`, holding, reads `code`: a reading not inside the narrowed window starts its second over (R303). -/
def State.fusNote (s : State) (j code : Nat) : State :=
  if s.fusInside j code then s else { s with fusAt := tput 0 s.fusAt j s.now }

/-- Fuser comparator `j` has read `code` outside its window for `us` µs, past its filter (R303), the window without its ends (log 160); one whose HTR_MASK is 0 is unused. -/
def htrHwtripEff (j code us : Nat) (s : State) : State :=
  if 8 ≤ j ∨ s.rd Reg.THM_FUS_CMP_HTR_MASK j = 0 ∨ us < 10 then s
  else if bitOf (s.rd Reg.THM_HW_STAT_FUS_HOLD) j then s.fusNote j code
  else if s.rd Reg.THM_FUS_CMP_LO j < code ∧ code < s.rd Reg.THM_FUS_CMP_HI j then s
  else
    let s := { s with fusAt := tput 0 s.fusAt j s.now }
    let s := s.wr Reg.THM_HW_STAT_FUS_HOLD (setBit (s.rd Reg.THM_HW_STAT_FUS_HOLD) j true)
    let s := (s.wr Reg.THM_HW_STAT_FUS_TRIPPED (setBit (s.rd Reg.THM_HW_STAT_FUS_TRIPPED) j true))
    (s.raiseLive Src.htrHwtrip Src.noUnit j).powerRec 5 St.ok (2 ^ (1 + j) + 2 ^ 9)

def execHtrHwtrip (cmp code us : Nat) (s : State) : Host.Outcome State Fault Refusal :=
  .next (htrHwtripEff cmp code us s)

/-- Comparator `j`, holding, lets its heaters go (R303). -/
def State.fusRelease (s : State) (j : Nat) : State :=
  if !bitOf (s.rd Reg.THM_HW_STAT_FUS_HOLD) j then s
  else
    let s := s.wr Reg.THM_HW_STAT_FUS_HOLD (setBit (s.rd Reg.THM_HW_STAT_FUS_HOLD) j false)
    (s.setCause Src.htrHwtrip Src.noUnit false j).powerRec 5 St.ok (2 ^ (1 + j))

/-- The reading, now `code`, has stayed inside the narrowed window for 1 s (R303). -/
def fuserCmpReleaseEff (j code : Nat) (s : State) : State :=
  if 8 ≤ j then s
  else if !s.fusInside j code then s.fusNote j code
  else if s.now < tget 0 s.fusAt j + 1000000000 then s
  else s.fusRelease j

def execFuserCmpRelease (cmp code : Nat) (s : State) : Host.Outcome State Fault Refusal := .next (fuserCmpReleaseEff cmp code s)

/-! ### Core supply droop (R304) -/

/-- VDD_CORE falls below DROOP_MV. -/
def coreDroopEff (mv : Nat) (s : State) : State :=
  if min 725 (max 650 (s.rd Reg.THM_DROOP_DROOP_MV)) ≤ mv then s
  else
    let d := min 16 (max 4 (s.rd Reg.THM_DROOP_DROOP_SIXT))
    let s := ({ s with hbDroop := d, droopAt := s.now }.hbShow).wr Reg.GEN_CLK_STAT_DROOP 1
    (s.cnt Reg.THM_DROOP_CNT_EVENTS).raiseLive Src.coreDroop Src.noUnit

def execCoreDroop (mv : Nat) (s : State) : Host.Outcome State Fault Refusal := .next (coreDroopEff mv s)

/-- VDD_CORE has stayed above DROOP_MV + 10 mV: after DROOP_HOLD µs the clock climbs one sixteenth, the cause being over, and then one
each µs. -/
def droopRecoverEff (s : State) : State :=
  let us := if s.hasCause Src.coreDroop Src.noUnit then max 1 (s.rd Reg.THM_DROOP_DROOP_HOLD) else 1
  if !s.on Reg.GEN_CLK_STAT_DROOP ∨ s.now < s.droopAt + 1000 * us then s
  else ({ s with hbDroop := min 16 (s.hbDroop + 1), droopAt := s.now }.hbShow).setCause Src.coreDroop Src.noUnit false

def execDroopRecover (s : State) : Host.Outcome State Fault Refusal := .next (droopRecoverEff s)

end Sys2Proof.Machine
end

