-- ==== Sys2Proof/Machine/Seq.lean ====
section
/-! DEFINITION. The power sequencer: rails, stages, SEQBELL and Ebb (R305–R309). -/

namespace Sys2Proof.Machine

/-! SEQ_STAT.STATE (R307) and the causes of an Ebb. -/
namespace Sst
def idle : Nat := 0
def up : Nat := 1
def running : Nat := 2
def shutdown : Nat := 3
def down : Nat := 4
def offWait : Nat := 5
def halted : Nat := 6
end Sst
namespace EbbBy
def input : Nat := 0
def rail : Nat := 1
def external : Nat := 2
def upFail : Nat := 3
def host : Nat := 4
end EbbBy
def State.sst (s : State) : Nat := s.rd Reg.SEQ_STAT_STATE
def State.setSst (s : State) (t : Nat) : State := s.wr Reg.SEQ_STAT_STATE t

/-- SEQ_STAT.EBB: EBB_N is low while any participant pulls it (R308). -/
def State.ebbShow (s : State) : State := s.wb Reg.SEQ_STAT_EBB (s.sequ.ownEbb || s.sequ.idleEbb || s.sequ.extEbb)

/-- T_SHUT in ms. -/
def State.tShut (s : State) : Nat := min 100 (max 1 (s.rd Reg.SEQ_CFG_T_SHUT))

/-! ### Ebb (R308) -/

/-- A power-mode change stops after its present step, and pending requests are discarded (R309): Moored entry goes on to the end of that
step, any other change ends here (log 145). -/
def State.dropChange (s : State) : State :=
  let s := { s with pwr := { s.pwr with kept := none, wake := none } }.wr Reg.PWR_STAT_HELD 0
  if s.pwr.target = some 2 ∧ s.pwr.step ≠ 0 then { s with pwr := { s.pwr with ebb := true } }
  else { s with pwr := { s.pwr with target := none, step := 0 } }.wr Reg.PWR_STAT_CHANGING 0

/-- Steps 1 to 3 of an Ebb with cause `c`: the record, vector 49, and the engine-wide abandonment of R121. What VINSNS reads at an Ebb of another
cause than INPUT no command gives: a free value (log 146). -/
def State.ebbSteps (s : State) (c : Nat) : State :=
  let s := (s.wr Reg.SEQ_STAT_CAUSE c).cnt Reg.SEQ_CNT_EBBS
  let s := if c = EbbBy.input then s
    else
      let (v, s) := s.takeFree (2 ^ 16)
      { s with sequ := { s.sequ with vins := v } }
  let s := (s.ebbShow.powerRec 1 St.ok (c + 2 ^ 3 * (s.sequ.vins % 2 ^ 16))).signal 0 49
  let s := if s.eng.isSome then s else { s with abCauses := setBit s.abCauses 0 true }
  { s with sequ := { s.sequ with ebbAt := some s.now } }.dropChange

/-- An Ebb with cause `c` arises (R307, R308). A further cause changes nothing but its count, and the cause shown where it arises at
the edge of the first one (R308, log 29). -/
def State.ebb (s : State) (c : Nat) : State :=
  let st := s.sst
  if st = Sst.up ∨ st = Sst.running then
    let q := s.sequ
    let waits := if s.pwr.step = 3 then q.wait else 0
    let s := { s with sequ := { q with ownEbb := true, shutAt := some s.now, mon := 0, wait := waits, dwellAt := none, released := none } }
    (s.setSst Sst.shutdown).ebbSteps c
  else if st = Sst.idle ∨ st = Sst.halted then
    if c = EbbBy.input then { s with sequ := { s.sequ with idleEbb := true } }.ebbSteps c
    else if c = EbbBy.external then s.ebbSteps c
    else s
  else
    let s := s.cnt Reg.SEQ_CNT_EBBS
    if s.sequ.ebbAt = some s.now ∧ c < s.rd Reg.SEQ_STAT_CAUSE then s.wr Reg.SEQ_STAT_CAUSE c else s

/-- VINSNS, now `mv`, has been below PFAIL_MV for `us` µs (R308). -/
def inputFailureEff (mv us : Nat) (s : State) : State :=
  if min 1000 (max 300 (s.rd Reg.SEQ_PFAIL_PFAIL_MV)) ≤ mv ∨ us < max 1 (s.rd Reg.SEQ_PFAIL_PFAIL_US) then s
  else ({ s with sequ := { s.sequ with vins := mv } }.wr Reg.SEQ_STAT_INPUT_GOOD 0).ebb EbbBy.input

def execInputFailure (mv us : Nat) (s : State) : Host.Outcome State Fault Refusal := .next (inputFailureEff mv us s)

/-- VINSNS rises above PFAIL_MV + 50 mV (R308). -/
def inputGoodEff (mv : Nat) (s : State) : State :=
  if mv ≤ min 1000 (max 300 (s.rd Reg.SEQ_PFAIL_PFAIL_MV)) + 50 then s
  else
    let at_ := if s.on Reg.SEQ_STAT_INPUT_GOOD then s.sequ.goodAt else s.now
    { s with sequ := { s.sequ with vins := mv, goodAt := at_ } }.wr Reg.SEQ_STAT_INPUT_GOOD 1

def execInputGood (mv : Nat) (s : State) : Host.Outcome State Fault Refusal := .next (inputGoodEff mv s)

/-- Another participant has held EBB_N low for `ns` ns (R308). -/
def externalEbbEff (ns : Nat) (s : State) : State :=
  if ns < 2000 then s else ({ s with sequ := { s.sequ with extEbb := true } }.ebbShow).ebb EbbBy.external

def execExternalEbb (ns : Nat) (s : State) : Host.Outcome State Fault Refusal := .next (externalEbbEff ns s)

/-- Every other participant has released EBB_N: the line rises unless the device pulls it (R308). -/
def ebbNReleaseEff (s : State) : State := { s with sequ := { s.sequ with extEbb := false } }.ebbShow

def execEbbNRelease (s : State) : Host.Outcome State Fault Refusal := .next (ebbNReleaseEff s)

/-- SEQ_CTL.DOWN is written: Ebb with cause HOST; ignored in IDLE and HALTED (R307, R308). -/
def State.seqDown (s : State) : State := s.ebb EbbBy.host

/-- The row stands for the write from its posting stage to its effect (R62, R298, log 97). -/
def seqDownEff (src : Port) (s : State) : State := s.access src 0x7C208 true fun s => s.staged 0x7C000 State.seqDown

def execSeqDown (src : Port) (s : State) : Host.Outcome State Fault Refusal := .next (seqDownEff src s)

/-! ### Rails and stages (R305, R306) -/

/-- A rail record (R313). -/
def State.railRec (s : State) (n what : Nat) : State :=
  s.powerRec 3 St.timeout (n + 2 ^ 4 * what + 2 ^ 6 * s.rd Reg.RAIL_STAT_MV n)

/-- The work of the present stage is done: SEQBELL is released (R306). -/
def State.release_ (s : State) : State := { s with sequ := { s.sequ with released := some s.now } }

/-- Switch the rails `m` on and wait for them (R305). -/
def State.railsOn (s : State) (m : Nat) : State :=
  let s := (bitsOf m 16).foldl (fun s n => s.wr Reg.RAIL_STAT_ON 1 n) s
  { s with sequ := { s.sequ with wait := m, stageAt := s.now } }

/-- Switch the rails `m` off and wait for those that were on (R305, R307). -/
def State.railsOff (s : State) (m : Nat) : State :=
  let was := (bitsOf m 16).foldl (fun a n => setBit a n (s.on Reg.RAIL_STAT_ON n)) 0
  let s := (bitsOf m 16).foldl (fun s n => s.wr Reg.RAIL_STAT_ON 0 n) s
  { s with sequ := { s.sequ with wait := was, stageAt := s.now, mon := (bitsOf m 16).foldl (fun a n => setBit a n false) s.sequ.mon } }

/-- The enabled rails whose stage is `k`, as a mask. -/
def State.railsAt (s : State) (f : Fld) (k : Nat) : Nat :=
  (List.range 16).foldl (fun m n => setBit m n (s.on Reg.RAIL_CFG_EN n && s.rd f n == k)) 0

/-- Stage `k` begins; SEQBELL is pulled low (R305, R306). -/
def State.stageBegin (s : State) (k : Nat) : State :=
  let s := { s.wr Reg.SEQ_STAT_STAGE k with sequ := { s.sequ with released := none, dwellAt := none } }
  let s := if s.sst = Sst.up then s.railsOn (s.railsAt Reg.RAIL_CFG_STAGE_ON k) else s.railsOff (s.railsAt Reg.RAIL_CFG_STAGE_OFF k)
  if s.sequ.wait = 0 then s.release_ else s

/-- Rail `n` is no longer waited for: with the last of them the dwell begins on the way up, and the work is done on the way
down. -/
def State.railDone (s : State) (n : Nat) (up : Bool) : State :=
  let w := setBit s.sequ.wait n false
  let s := { s with sequ := { s.sequ with wait := w } }
  if w ≠ 0 then s
  else if up then { s with sequ := { s.sequ with dwellAt := some (s.now + 100000 * s.rd Reg.SEQ_CFG_DWELL) } }
  else if s.sst = Sst.down then s.release_
  else s

/-- Rails come up: in UP, or at Moored exit (R305, R311). -/
def State.railsRise (s : State) : Bool := s.sst == Sst.up || s.pwr.step == 4
/-- Rails go down: in DOWN, or at Moored entry. -/
def State.railsFall (s : State) : Bool := s.sst == Sst.down || s.pwr.step == 3

/-- A rail's sense reaches GOOD_MV on the way up, or falls below OFF_MV on the way down (R305). -/
def railGoodEff (n code : Nat) (s : State) : State :=
  if 16 ≤ n then s
  else
    let s := s.railSense n code
    let mv := s.railMv n code
    if !bitOf s.sequ.wait n then s
    else if s.railsRise then
      if mv < s.rd Reg.RAIL_LVL1_GOOD_MV n then s
      else { s with sequ := { s.sequ with mon := setBit s.sequ.mon n true } }.railDone n true
    else if s.railsFall ∧ mv < s.rd Reg.RAIL_LVL1_OFF_MV n then s.railDone n false
    else s

def execRailGood (rail code : Nat) (s : State) : Host.Outcome State Fault Refusal := .next (railGoodEff rail code s)

/-- The dwell ends (R305). -/
def stageDwellEndEff (s : State) : State :=
  match s.sequ.dwellAt with
  | none => s
  | some t =>
    if s.now < t then s
    else
      let s := { s with sequ := { s.sequ with dwellAt := none } }
      if s.sst = Sst.up then s.release_ else s

def execStageDwellEnd (s : State) : Host.Outcome State Fault Refusal := .next (stageDwellEndEff s)

/-- A rail is not good within T_UP (R307): Ebb with cause UP_FAIL. -/
def railUpTimeoutEff (n : Nat) (s : State) : State :=
  if 16 ≤ n ∨ !s.railsRise ∨ !bitOf s.sequ.wait n ∨ s.now < s.sequ.stageAt + 1000000 * max 1 (s.rd Reg.RAIL_TIME_T_UP n) then s
  else (((s.wr Reg.RAIL_STAT_UP_FAIL 1 n).railRec n 0).raise Src.seqRail Src.noUnit n).ebb EbbBy.upFail

def execRailUpTimeout (rail : Nat) (s : State) : Host.Outcome State Fault Refusal := .next (railUpTimeoutEff rail s)

/-- A rail is still up at T_DOWN (R305): it is flagged and the sequence goes on. -/
def railDownTimeoutEff (n : Nat) (s : State) : State :=
  if 16 ≤ n ∨ !s.railsFall ∨ !bitOf s.sequ.wait n ∨ s.now < s.sequ.stageAt + 1000000 * max 1 (s.rd Reg.RAIL_TIME_T_DOWN n) then s
  else (((s.wr Reg.RAIL_STAT_DOWN_TMO 1 n).railRec n 1).raise Src.seqDownTmo Src.noUnit n).railDone n false

def execRailDownTimeout (rail : Nat) (s : State) : Host.Outcome State Fault Refusal := .next (railDownTimeoutEff rail s)

/-- A monitored rail, now reading `code`, has been outside its window for `us` µs; FLT_US counts in steps of 10 (R305, R307). -/
def railRunFaultEff (n code us : Nat) (s : State) : State :=
  if 16 ≤ n ∨ !bitOf s.sequ.mon n ∨ us < s.rd Reg.RAIL_TIME_FLT_US n / 10 * 10 then s
  else
    let s := s.railSense n code
    if s.on Reg.RAIL_STAT_GOOD n then s
    else (((s.wr Reg.RAIL_STAT_RUN_FAULT 1 n).railRec n 2).raise Src.seqRail Src.noUnit n).ebb EbbBy.rail

def execRailRunFault (rail code us : Nat) (s : State) : Host.Outcome State Fault Refusal := .next (railRunFaultEff rail code us s)

/-! ### States (R307) -/

/-- The sequencer starts power-up from stage 0 (R307); from OFF_WAIT and HALTED it releases EBB_N. -/
def State.powerUp (s : State) : State :=
  let keep := s.sst == Sst.idle && s.sequ.idleEbb
  (({ s with sequ := { s.sequ with ownEbb := false, idleEbb := keep, offAt := none } }.ebbShow).setSst Sst.up).stageBegin 0

/-- SEQ_CTL.GO is written (R307). -/
def State.seqGo (s : State) : State :=
  if s.sst = Sst.idle then s.powerUp
  else if s.sst = Sst.halted ∧ s.on Reg.SEQ_STAT_INPUT_GOOD ∧ !s.abLatched then s.powerUp
  else s

/-- The row stands for the write from its posting stage to its effect (R62, R298, log 97). -/
def seqGoEff (src : Port) (s : State) : State := s.access src 0x7C208 true fun s => s.staged 0x7C000 State.seqGo

def execSeqGo (src : Port) (s : State) : Host.Outcome State Fault Refusal := .next (seqGoEff src s)

/-- SEQBELL has been high for `high` ns since this participant let it go: 4.0 µs after it rose the stage is over (R306, R307). With SEQBELL_EN = 0
its own release counts as the rise. -/
def seqbellStageAdvanceEff (high : Nat) (s : State) : State :=
  match s.sequ.released with
  | none => s
  | some t =>
    let k := s.rd Reg.SEQ_STAT_STAGE
    if s.now < t + 4000 ∨ s.on Reg.SEQ_CFG_SEQBELL_EN ∧ (high < 4000 ∨ s.now < t + high) then s
    else if s.sst = Sst.up then
      if k < 63 then s.stageBegin (k + 1)
      else ({ s with sequ := { s.sequ with released := none } }.setSst Sst.running).powerRec 4 St.ok 1
    else if s.sst = Sst.down then
      if 0 < k then s.stageBegin (k - 1)
      else
        let s := { s with sequ := { s.sequ with released := none, offAt := some s.now } }
        let wait := s.rd Reg.SEQ_STAT_CAUSE == EbbBy.input && s.on Reg.SEQ_CFG_AUTO_RESTART
        (s.setSst (if wait then Sst.offWait else Sst.halted)).powerRec 4 St.ok 0
    else s

def execSeqbellStageAdvance (high : Nat) (s : State) : Host.Outcome State Fault Refusal := .next (seqbellStageAdvanceEff high s)

/-- A high shorter than 3.5 µs on SEQBELL is ignored and counted (R306). -/
def seqbellGlitchEff (s : State) : State := if s.on Reg.SEQ_CFG_SEQBELL_EN && s.sequ.released.isSome then s.cnt Reg.SEQ_CNT_BELL_GLITCH else s

def execSeqbellGlitch (s : State) : Host.Outcome State Fault Refusal := .next (seqbellGlitchEff s)

/-- T_SHUT after the Ebb (R307). -/
def tShutExpireEff (s : State) : State :=
  match s.sequ.shutAt with
  | none => s
  | some t =>
    if s.sst ≠ Sst.shutdown ∨ s.now < t + 1000000 * s.tShut then s
    else
      let s := if s.pwr.ebb then { s with pwr := { s.pwr with target := none, step := 0, ebb := false } }.wr Reg.PWR_STAT_CHANGING 0 else s
      ({ s with sequ := { s.sequ with shutAt := none } }.setSst Sst.down).stageBegin 63

def execTShutExpire (s : State) : Host.Outcome State Fault Refusal := .next (tShutExpireEff s)

/-- T_OFF_MIN has passed with the input good: a restart from OFF_WAIT (R307), or the release of EBB_N after an input failure in IDLE or
HALTED (R308). -/
def tOffMinExpireEff (s : State) : State :=
  let T := 1000000 * s.rd Reg.SEQ_CFG_T_OFF_MIN
  if !s.on Reg.SEQ_STAT_INPUT_GOOD then s
  else if s.sst = Sst.offWait then
    match s.sequ.offAt with
    | none => s
    | some t => if s.now < t + T then s else s.powerUp
  else if s.sequ.idleEbb ∧ s.sequ.goodAt + T ≤ s.now then { s with sequ := { s.sequ with idleEbb := false } }.ebbShow
  else s

def execTOffMinExpire (s : State) : Host.Outcome State Fault Refusal := .next (tOffMinExpireEff s)

end Sys2Proof.Machine
end

