-- ==== Sys2Proof/Machine/FaultRows.lean ====
section
/-! DEFINITION. The fault collector's rows (R328–R337, R342), the ferryman's watchdog (R25, R26), scrubbing and injection (R22). -/

namespace Sys2Proof.Machine

/-! ### Raising and clearing -/

/-- A fault source is raised (R331). -/
def faultRaiseEff (src unit inst info : Nat) (live : Bool) (s : State) : State :=
  if 64 ≤ src ∨ 256 ≤ unit ∨ 256 ≤ inst then s
  else
    let s := if live then s.raiseLive src unit inst info else s.raise src unit inst info
    if 0xF0 ≤ unit ∧ unit < 0xF4 ∧ s.nodeFenced (unit - 0xF0) inst then s.flClose (unit - 0xF0) inst (s.now + 1) else s

def execFaultRaise (src unit inst info : Nat) (live : Bool) (s : State) : Host.Outcome State Fault Refusal :=
  .next (faultRaiseEff src unit inst info live s)

/-- The source `src` has a lasting cause in unit `u` that other state shows (R133, R245, R279, R280, R284, R314). -/
def State.condLive (s : State) (src u : Nat) : Bool :=
  let loop (l : Nat) : Bool := s.lon Reg.LOOP_CFG_EN l && s.lv Reg.LOOP_CFG_CAP l + 62 == u
  match src with
  | 8 => decide (u < 6) && (s.stns u).expo.isSome && !s.sweepOk u
  | 25 => decide (22 ≤ u) && decide (u < 38) && (s.stpOpenAt (u - 22) false || s.stpOpenAt (u - 22) true)
  | 26 => decide (22 ≤ u) && decide (u < 38) && s.stpLost (u - 22)
  | 33 => decide (62 ≤ u) && decide (u < 78) && s.rd Reg.CAP_STAT_STATE (u - 62) == Cst.dead
  | 34 => (List.range 128).any fun l => loop l && s.on Reg.LOOP_STAT_ORPHAN l && !s.on Reg.LOOP_STAT_ECC l
  | 36 => (List.range 128).any fun l => loop l && s.on Reg.LOOP_STAT_ECC l
  | 47 => decide (u = Src.noUnit) && (List.range 16).any fun n => s.on Reg.RAIL_STAT_UP_FAIL n || s.on Reg.RAIL_STAT_RUN_FAULT n
  | _ => false

/-- FLT_LIVE bit of a source (R329): a lasting cause in some unit, or an event at this edge. -/
def State.srcLive (s : State) (src : Nat) : Bool :=
  (s.causes.any fun e => e.2 && e.1 / 65536 == src) || (eventSrc src && tget 0 s.raisedAt src == s.now + 1) ||
    (List.range 256).any fun u => s.condLive src u

/-- The lowest live source charged to unit `u` (R335, R365). -/
def State.unitLive (s : State) (u : Nat) : Option Nat :=
  (List.range 64).find? fun src => (s.causes.any fun e => e.2 && e.1 / 65536 == src && e.1 / 256 % 256 == u) || s.condLive src u

/-- A latch bit is cleared as its class allows (R334); a raise of its source at this edge leaves it set (R66). -/
def State.latchClear (s : State) (i : Nat) : State :=
  if !bitOf (s.rd Reg.FLT_LATCH) i ∨ s.cls i = 3 ∨ bitOf (s.rd Reg.FLT_GRAVE) i then s
  else if 1 ≤ s.actCls i ∧ s.srcLive i then s.wr Reg.FLT_SUMMARY_CLR_REFUSED 1
  else if tget 0 s.raisedAt i = s.now + 1 then s
  else (s.wr Reg.FLT_LATCH (setBit (s.rd Reg.FLT_LATCH) i false)).tripsClear i

/-- The bits of `mask` are written 0 in FLT_LATCH (R334), at the edge at which the posted write applies. -/
def State.latchWrite (s : State) (mask : Nat) : State :=
  (((bitsOf mask 64).filter (bitOf (s.edgeRd Reg.FLT_LATCH))).foldl (fun s i => s.latchClear i) s).lensUpdate

/-- FLT_LATCH is written; the row stands for the write from its posting stage to its effect (R62, R334, log 97). -/
def faultLatchClearEff (src : Port) (mask : Nat) (s : State) : State :=
  s.access src 0x88000 true fun s => s.staged 0x88000 fun s => s.latchWrite mask

def execFaultLatchClear (src : Port) (mask : Nat) (s : State) : Host.Outcome State Fault Refusal := .next (faultLatchClearEff src mask s)

/-! ### Fault input pairs (R336) -/

/-- Pair `i` is taken as in fault or broken. -/
def State.setPair (s : State) (i : Nat) (fault broken : Bool) : State :=
  let wasExt := s.hasCause (Src.ext i) Src.noUnit i
  let wasBrk := bitOf (s.rd Reg.FLT_EXT_STAT_BROKEN) i
  let s := (s.wr Reg.FLT_EXT_STAT_FAULT (setBit (s.rd Reg.FLT_EXT_STAT_FAULT) i fault)).wr Reg.FLT_EXT_STAT_BROKEN
    (setBit (s.rd Reg.FLT_EXT_STAT_BROKEN) i broken)
  let s := (s.setCause (Src.ext i) Src.noUnit (fault || broken) i).setCause Src.pairBroken Src.noUnit broken i
  let s := if broken && !wasBrk then s.raise Src.pairBroken Src.noUnit i else s
  if (fault || broken) && !wasExt then s.raise (Src.ext i) Src.noUnit i else s

/-- Pair `i` has read levels `a`, `b` for `us` µs; only a pair that PAIR_EN names is used. On A1 it is broken at the second of two samples 1 ms
apart that agree, and a sample that disagrees ends that at once; fault and no fault come after EXT_FILT. -/
def faultPairChangeEff (i : Nat) (a b : Bool) (us : Nat) (s : State) : State :=
  if 8 ≤ i ∨ !bitOf (s.rd Reg.FLT_EXT_CFG_PAIR_EN) i then s
  else if a = b then (if us < 1000 then s else s.setPair i false true)
  else if max 1 (s.rd Reg.FLT_EXT_CFG_EXT_FILT) ≤ us then s.setPair i a false
  else if bitOf (s.rd Reg.FLT_EXT_STAT_BROKEN) i then s.setPair i false false
  else s

def execFaultPairChange (pair : Nat) (a b : Bool) (us : Nat) (s : State) : Host.Outcome State Fault Refusal :=
  .next (faultPairChangeEff pair a b us s)

/-! ### Interlocks (R342) -/

/-- Input `i` is routed. -/
def State.intlkRouted (s : State) (i : Nat) : Bool :=
  s.rd Reg.IO_INTLK_ROUTE_STN i != 0 || s.rd Reg.IO_INTLK_ROUTE_HTR i != 0 || s.on Reg.IO_INTLK_ROUTE_HV_ALL i ||
    s.on Reg.IO_INTLK_ROUTE_DRV_ALL i || s.on Reg.IO_INTLK_ROUTE_STP_ALL i

/-- Routed input `i` opens, or an open input is routed: what it routes trips, and INTLK_OPEN is raised. -/
def State.intlkTrip (s : State) (i : Nat) : State :=
  if !s.intlkRouted i then s
  else
    let s := if s.on Reg.IO_INTLK_ROUTE_DRV_ALL i then (List.range 16).foldl (fun s n => s.drvTrip n Src.intlkOpen) s else s
    let s := if s.on Reg.IO_INTLK_ROUTE_STP_ALL i then (List.range 16).foldl (fun s k => s.stpTrip k Src.intlkOpen) s else s
    let s := if s.on Reg.IO_INTLK_ROUTE_HV_ALL i then (List.range 32).foldl (fun s h => s.hvTrip h Src.intlkOpen) s else s
    let s := (bitsOf (s.rd Reg.IO_INTLK_ROUTE_HTR i) 4).foldl (fun s k => s.htrTrip k Src.intlkOpen) s
    (s.raiseLive Src.intlkOpen Src.noUnit i).lensUpdate

/-- Input `i` is open or closed. -/
def State.setIntlk (s : State) (i : Nat) (isOpen : Bool) : State :=
  let was := bitOf (s.rd Reg.IO_INTLK_STAT_OPEN) i
  let s := s.wr Reg.IO_INTLK_STAT_OPEN (setBit (s.rd Reg.IO_INTLK_STAT_OPEN) i isOpen)
  if isOpen then (if was then s else s.intlkTrip i)
  else
    let s := (s.setCause Src.intlkOpen Src.noUnit false i).lensUpdate
    if bitOf (s.rd Reg.FLT_LATCH) Src.intlkOpen then s else s.tripsClear Src.intlkOpen

/-- An interlock input has been at `level` for `ns` ns: it reads open after 100 ns that differ from CLOSED_LVL, and closed after 10 ms that
equal it (R342). -/
def interlockChangeEff (i : Nat) (level : Bool) (ns : Nat) (s : State) : State :=
  if 8 ≤ i then s
  else
    let isOpen := level != s.on Reg.IO_INTLK_ROUTE_CLOSED_LVL i
    let s := s.wr Reg.IO_INTLK_STAT_LEVEL (setBit (s.rd Reg.IO_INTLK_STAT_LEVEL) i level)
    if ns < (if isOpen then 100 else 10000000) then s else s.setIntlk i isOpen

def execInterlockChange (input : Nat) (level : Bool) (ns : Nat) (s : State) : Host.Outcome State Fault Refusal :=
  .next (interlockChangeEff input level ns s)

/-! ### LANTERN (R337) -/

/-- The conditions under which LANTERN runs; in Moored the watchdog is suspended, and the A1 boot ROM does not toggle
it while it verifies an image. -/
def State.lanternRuns (s : State) : Bool :=
  !s.abLatched && !s.boot.rstLow && s.boot.reading.isNone && (s.rd Reg.PWR_STAT_MODE == 2 || (s.boot.wdArmed && !s.boot.lapsed))

/-- An edge of the always-on 500 µs timebase. -/
def lanternToggleEff (s : State) : State := if s.lanternRuns then { s with lantern := !s.lantern, lanternAt := s.now } else s

def execLanternToggle (s : State) : Host.Outcome State Fault Refusal := .next (lanternToggleEff s)

/-! ### The ferryman (R25, R26) -/

/-- The ferryman is reset (R21, R26): LANTERN stops, FERRY_WD is raised, boarding crossings return to drafted. -/
def State.ferryReset (s : State) : State :=
  let s := { s with boot := { s.boot with lapsed := true, running := false } }
  let s := (s.wr Reg.GEN_RESET_CAUSE_CAUSE (setBit (s.rd Reg.GEN_RESET_CAUSE_CAUSE) 5 true)).raise Src.ferryWd Src.noUnit
  (s.liveCrx.filter fun c => c.state == 1).foldl (fun s c => match s.live? c.crx with
    | some c => (s.toDrafted c St.refusedState).pwrTake
    | none => s) s

/-- A watchdog lapse (R26): counted, and then as above. -/
def State.ferryLapse (s : State) : State :=
  ({ s with lbDue := s.lbDue ++ [4] }.cnt Reg.FLT_WD_LAPSES).ferryReset

/-- WD_MS have passed since the last re-arm; in Moored the watchdog is suspended (R337). -/
def ferryWdEff (s : State) : State :=
  if !s.boot.wdArmed ∨ s.boot.lapsed ∨ s.boot.reading.isSome ∨ s.rd Reg.PWR_STAT_MODE = 2 ∨ s.boot.armBy.isSome ∨
      s.now < s.boot.wdAt + 1000000 * min 1000 (max 10 (s.rd Reg.FLT_WD_WD_MS)) then s
  else s.ferryLapse

def execFerryWd (s : State) : Host.Outcome State Fault Refusal := .next (ferryWdEff s)

/-- The highest COUNT of `n` counter words from `w`, and its word (R368). -/
def State.lbCount (s : State) (w n : Nat) : Nat × Nat :=
  (List.range n).foldl (fun m i =>
    let v := tget 0 s.logbook (w + i)
    let c := v % 2 ^ 48
    if crc16 ((List.range 6).map fun k => BitVec.ofNat 8 (c / 256 ^ k)) = v / 2 ^ 48 % 2 ^ 16 ∧ m.1 < c then (c, i) else m) (0, n - 1)

/-- A log book word is written. -/
def State.lbWrite (s : State) (w v : Nat) : State := { s with logbook := tput 0 s.logbook w v }.emit (.logbook w v)

/-- A counter of `n` words from `w` grows by `k`, in the word after the one that holds its value (R368). -/
def State.lbAdd (s : State) (w n k : Nat) : State :=
  let (c, i) := s.lbCount w n
  let c := (c + k) % 2 ^ 48
  s.lbWrite (w + (i + 1) % n) (c + 2 ^ 48 * crc16 ((List.range 6).map fun k => BitVec.ofNat 8 (c / 256 ^ k)))

/-- The running ferryman writes the event counters that are due (R367, R368, log 36). -/
def State.lbFlush (s : State) : State :=
  if !s.boot.running then s
  else s.lbDue.foldl (fun s i => s.lbAdd (64 + 8 * i) 8 1) { s with lbDue := [] }

/-- The ferryman re-arms its watchdog (R26); the first time after a handover ends IMAGE_SWITCH with OK (R360). -/
def ferrymanReArmEff (s : State) : State :=
  if s.rd Reg.GEN_BOOT_STAT_STAGE ≠ 4 then s
  else
    let job := s.boot.armJob
    let s := { s with boot := { s.boot with running := true, lapsed := false, wdArmed := true, wdAt := s.now, armBy := none, armJob := none } }
    let s := match job with
      | some j => s.complete j St.ok
      | none => s
    s.lbFlush

def execFerrymanReArm (s : State) : Host.Outcome State Fault Refusal := .next (ferrymanReArmEff s)

/-! ### Scrubbing and injection (R22) -/

/-- Some station reads the Hold. -/
def State.holdBusy (s : State) : Bool := (List.range 6).any fun n => (s.stns n).expo.isSome

/-- The read of a scrubber's next word when it is due; `upset` are bits that have flipped in it since it was written. While a station reads,
the Hold scrubber takes its slots whatever the interval (R22, A1). -/
def scrubReadEff (st : Nat) (upset : List Nat) (s : State) : State :=
  let due := tget 0 s.scrubDue st + 2 * max 1 (s.rd Reg.DIAG_ECC_SCRUB_SCRUB_INTERVAL st)
  let forced := st == 0 && s.holdBusy
  if st = 3 ∨ 5 ≤ st ∨ !s.on Reg.DIAG_ECC_SCRUB_SCRUB_EN st ∨ (s.rd Reg.PWR_STAT_MODE = 2 ∧ st < 3) ∨ (!forced ∧ s.now < due) then s
  else
    let w := tget 0 s.scrubPos st
    let s := { s with scrubPos := tput 0 s.scrubPos st ((w + 1) % storeWords st), scrubAt := tput 0 s.scrubAt st s.now,
                      scrubDue := tput 0 s.scrubDue st (if forced then s.now else due) }
    let (k, s) := (s.upset st w (upset.filter fun b => decide (b < 266))).eccRead st w
    if k ≠ 2 then s
    else match st with
      | 1 => s.tideEcc w
      | 2 => s.tableWordEcc w
      | 4 => s.ferryReset
      | _ => s

def execScrubRead (store : Nat) (upset : List Nat) (s : State) : Host.Outcome State Fault Refusal := .next (scrubReadEff store upset s)

/-- DIAG_ECC_INJ.ARM is written 1: the next write to STORE is corrupted. -/
def eccInjectArmEff (src : Port) (s : State) : State := s.access src 0xF0180 true fun s => s.wr Reg.DIAG_ECC_INJ_ARM 1

def execEccInjectArm (src : Port) (s : State) : Host.Outcome State Fault Refusal := .next (eccInjectArmEff src s)

end Sys2Proof.Machine
end

