-- ==== Sys2Proof/Machine/Views.lean ====
section
/-! DEFINITION. Fields that show other state: what a read of them answers (R29, R59), by their place in BAR0. Every other field
answers its own value. -/

namespace Sys2Proof.Machine

/-- A mask of the numbers below `n` that `p` holds of. -/
def maskOf (n : Nat) (p : Nat → Bool) : Nat := (List.range n).foldl (fun m i => if p i then m + 2 ^ i else m) 0

/-- FLT_LIVE (R329). -/
def State.fltLive (s : State) : Nat := maskOf 64 s.srcLive
/-- A bit of class `c` is latched (FLT_SUMMARY). -/
def State.classLatched (s : State) (c : Nat) : Bool := (List.range 64).any fun i => bitOf (s.rd Reg.FLT_LATCH) i && s.actCls i == c

/-- Accepted descriptors of a ring are incomplete (SQ_STAT.ACTIVE). -/
def State.sqActive (s : State) (n : Nat) : Bool := (s.sqs n).running != 0 || !(s.sqs n).accepted.isEmpty

/-- The device pulls SEQBELL low: it takes part and has not released it, in any state of the sequencer (R306). -/
def State.bellPull (s : State) : Bool :=
  s.on Reg.SEQ_CFG_SEQBELL_EN && s.sequ.released.isNone

/-- A posted write is in flight to the POST block at `base` (R62). -/
def State.posted? (s : State) (base : Nat) : Bool := (tget none s.post base).isSome

/-- What field `f` shows in instance (i, j); `none` where it shows its own value. -/
def State.view? (s : State) (f : Fld) (i : Nat) : Option Nat :=
  let b (p : Bool) : Option Nat := some (if p then 1 else 0)
  match f.base, f.lo with
  | 0x100, 0 => some s.commits.length
  | 0x200, 1 => b (s.commits.any fun c => bitOf c.units i)
  | 0x30, 0 => some (min 31 s.otp.epoch)
  | 0x30, 5 => some (maskOf 4 fun k => (s.otp.keys.getD k none).isSome)
  | 0x30, 9 => some s.otp.revoked
  | 0x810, 0 => some (((s.lbCount 0 64).1 + s.rd Reg.GEN_LB_STAT_PENDING) % 2 ^ 48)
  | 0x4018, 1 => b (s.sqActive i)
  | 0x5018, 0 => b (s.eqFull i)
  | 0x5900, 0 => some s.holdover.length
  | 0x1000, 16 => b (!s.liveCrx.isEmpty)
  | 0x10400, 0 => some (maskOf 32 fun k => s.occupied (32 * i + k))
  | 0x18000, 0 => if i < 40 then b (s.axisEn i) else none
  | 0x18000, 1 => if i < 16 then some (s.lv Reg.DRV_CFG_ENC_PORT i) else if i < 40 then some 0 else none
  | 0x18000, 6 => if i < 40 then some 0 else none
  | 0x2003C, 2 => b (s.stnReady i)
  | 0x20204, 0 => some (s.fillOf i)
  | 0x40030, 8 => b (s.refusing i)
  | 0x40030, 10 => some (((List.range 40).filter fun e => s.poolFree i e).length)
  | 0x74020, 3 => b (s.htrOn i)
  | 0x80004, 0 => b (s.flRunning i)
  | 0x80004, 1 => b ((s.fports i).mode == 2)
  | 0x80004, 18 => some (if s.lv Reg.FL_CFG_GEN i = 1 then s.flSlots i else 0)
  | 0x88008, 0 => some s.fltLive
  | 0x88020, 0 => b (s.classLatched 3 || s.rd Reg.FLT_GRAVE != 0)
  | 0x88020, 1 => b (s.classLatched 2)
  | 0x88020, 2 => b (s.classLatched 1)
  | 0x88020, 3 => b (s.classLatched 0)
  | 0x88020, 4 => b s.lanternRuns
  | 0x88020, 5 => b s.boot.wdArmed
  | 0xFFC, 0 => b (s.posted? 0x00000)
  | 0x78FFC, 0 => b (s.posted? 0x78000)
  | 0x7CFFC, 0 => b (s.posted? 0x7C000)
  | 0x88FFC, 0 => b (s.posted? 0x88000)
  | 0x90FFC, 0 => b (s.posted? 0x90000)
  | _, _ => none

/-- The value a field shows where it is not QS. -/
def State.show_ (s : State) (f : Fld) (i : Nat := 0) (j : Nat := 0) : Nat := (s.view? f i).getD (s.rd f i j) % 2 ^ f.width

/-- The chart's UNIT byte (R54). -/
def State.unitByte (s : State) (on : Bool) (u : Nat) : Nat :=
  if !on then 0 else if s.isBoomed u then 3 else if s.isLaid u then 1 else 2

/-- The 104 UNIT bytes. -/
def State.unitBytes (s : State) : List Nat :=
  ((List.range 16).map fun n => s.unitByte (s.lon Reg.DRV_CFG_EN n) (6 + n)) ++
  ((List.range 16).map fun n => s.unitByte (s.lon Reg.STP_CFG_EN n) (22 + n)) ++
  ((List.range 16).map fun n => s.unitByte (s.lon Reg.CAP_CFG_EN n) (62 + n)) ++
  ((List.range 32).map fun n => s.unitByte (s.lon Reg.HV_CFG_EN n) (78 + n)) ++
  ((List.range 4).map fun n => s.unitByte (s.lon Reg.HTR_CFG_EN n) (110 + n)) ++
  ((List.range 4).map fun n => s.unitByte (s.lon Reg.FL_CFG_EN n) (114 + n)) ++
  ((List.range 16).map fun n => if s.on Reg.RAIL_CFG_EN n then 2 else 0)

/-- A chart station's STATUS (R54). -/
def State.stnStatus (s : State) (n : Nat) : Nat :=
  if s.isBoomed n then 6 else if s.isLaid n then 1 else if !s.stnOn n then 0 else if (s.stns n).expo.isSome then 3
  else if s.on Reg.BL_STAT_OT n then 4 else if s.refusing n then 5 else 2

/-- A chart station entry (R54). REG_TICKS copies STN_REG_STAT.APPLIED (R141). -/
def State.chartStn (s : State) (n : Nat) : ChartStn :=
  let x := s.stns n
  let line := match x.expo with
    | none => 0
    | some e => match (s.live? e.crx).bind fun c => c.parts.find? fun p => p.stn == n with
      | some p => (p.first + e.front) % 2 ^ 24
      | none => 0
  let pool := (List.range 40).filter fun e => bitOf (s.pool n) e
  { status := s.stnStatus n, crx := (x.expo.map (·.crx)).getD 0, line := line, fill := min 65535 (s.fillOf n), subst := x.subst,
    dropped := x.dropped,
    relief := (pool.filter fun e => !bitOf (s.failed n) e && s.emitterRow n e != 0x3F).length + 2 ^ 8 * (pool.filter fun e => s.poolFree n e).length,
    regTicks := unsigned 32 (s.rdI Reg.STN_REG_STAT_APPLIED n) }

/-- A chart crossing slot (R54): SPOIL holds the first recorded defect and the number of details (R114). -/
def Crossing.chartSlot (c : Crossing) : ChartSlot :=
  { crx := c.crx, state := c.state, status := c.status, stations := c.stations, castPos := c.castPos, castAxis := c.castAxis,
    stateTime := c.stateTime, spoil := c.allDetails.headD 0 % 2 ^ 56 + 2 ^ 56 * c.allDetails.length }
def ChartSlot.empty : ChartSlot := ⟨0, 0, 0, 0, 0, 0, 0, 0⟩

/-- Fields of `size` bytes one after the other from offset `o` on. -/
def chartArr (o size : Nat) (vs : List Nat) : List (Nat × Nat × Nat) := vs.zipIdx.map fun x => (o + size * x.2, size, x.1 % 2 ^ (8 * size))

/-- A crossing slot's fields, from offset `o` (R54). -/
def ChartSlot.layout (c : ChartSlot) (o : Nat) : List (Nat × Nat × Nat) :=
  [(o, 4, c.crx), (o + 4, 1, c.state), (o + 5, 1, c.status), (o + 6, 1, c.stations % 64), (o + 8, 8, c.castPos + 2 ^ 40 * c.castAxis),
   (o + 16, 8, c.stateTime), (o + 24, 8, c.spoil)]

/-- A station entry's fields, from offset `o` (R54). -/
def ChartStn.layout (x : ChartStn) (o : Nat) : List (Nat × Nat × Nat) :=
  [(o, 4, x.status), (o + 4, 4, x.crx), (o + 8, 8, x.line), (o + 16, 4, x.fill), (o + 20, 4, x.subst % 2 ^ 32), (o + 24, 4, x.dropped % 2 ^ 32),
   (o + 28, 4, x.relief), (o + 32, 4, x.regTicks % 2 ^ 32)]

/-- A chart buffer (R52, R54): offset, size in bytes and value of every field; all other bytes are zero. -/
def Chart.layout (c : Chart) : List (Nat × Nat × Nat) :=
  [(0x000, 8, c.seq), (0x008, 8, c.time + (if c.degraded then 2 ^ 63 else 0)), (0x010, 4, c.power), (0x014, 4, c.link), (0x018, 4, c.cap),
   (0x01C, 4, c.used), (0x020, 8, c.latch), (0x028, 8, c.live)] ++
  chartArr 0x040 2 c.sqHead ++ chartArr 0x0C0 2 c.eqTail ++
  chartArr 0x100 8 (c.axes.map fun a => a.1 + (if a.2 then 2 ^ 63 else 0)) ++
  (c.crossings.zipIdx.flatMap fun x => x.1.layout (0x300 + 32 * x.2)) ++
  (c.stations.zipIdx.flatMap fun x => x.1.layout (0x700 + 64 * x.2)) ++
  chartArr 0x880 1 c.units ++ chartArr 0x900 2 c.temps ++ [(0xFF8, 8, c.seq)]

/-- HOSTIF_LINK as it reads. -/
def State.linkWord (s : State) : Nat :=
  s.rd Reg.HOSTIF_LINK_RATE + 2 ^ 4 * s.rd Reg.HOSTIF_LINK_WIDTH + 2 ^ 8 * s.rd Reg.HOSTIF_LINK_MPS + (if s.liveCrx.isEmpty then 0 else 2 ^ 16)

/-- The chart captured at this edge with sequence value `q` (R23, R52, R54). -/
def State.chartOf (s : State) (q : Nat) : Chart :=
  { seq := q, time := s.stamp, degraded := s.degraded, power := s.rd Reg.PWR_STAT_MODE, link := s.linkWord,
    cap := s.rd Reg.HOSTIF_BUDGET_CAP_CAP, used := s.rd Reg.HOSTIF_BUDGET_USED_USED, latch := s.rd Reg.FLT_LATCH, live := s.fltLive,
    sqHead := (List.range 64).map fun n => s.rd Reg.SQ_HEAD_HEAD n, eqTail := (List.range 16).map fun n => s.rd Reg.EQ_TAIL_TAIL n,
    axes := (List.range 64).map fun a => (s.rd Reg.AXIS_POS a, s.axisEn a),
    crossings := (List.range 32).map fun k => ((s.crossings.find? fun c => c.slot == k).map (·.chartSlot)).getD ChartSlot.empty,
    stations := (List.range 6).map s.chartStn, units := s.unitBytes,
    temps := (List.range 48).map fun i => s.rd Reg.THM_SENS_STAT_TEMP i }

end Sys2Proof.Machine
end

