-- ==== Sys2Proof/Machine/BarMap.lean ====
section
/-! DEFINITION. The BAR0 map (R59, R60): which fields stand in a 32-bit word, and what a read of a word answers (R29, R30, R61–R64,
R68). -/

namespace Sys2Proof.Machine

/-- The fields of the block that a byte offset lies in (R59). -/
def blockFlds (off : Nat) : List Fld :=
  if off < 0x1000 then Reg.block_GEN else if off < 0x4000 then Reg.block_HOSTIF else if off < 0x8000 then Reg.block_RING
  else if off < 0x10000 then Reg.block_LIGHTER else if off < 0x18000 then Reg.block_TIDE else if off < 0x20000 then Reg.block_AXIS
  else if off < 0x38000 then Reg.block_STN else if off < 0x40000 then Reg.block_SCANPLL else if off < 0x48000 then Reg.block_BEAMLINK
  else if off < 0x50000 then Reg.block_DRIVE else if off < 0x58000 then Reg.block_STEP else if off < 0x60000 then Reg.block_MOTION
  else if off < 0x68000 then Reg.block_FEEDBACK else if off < 0x70000 then Reg.block_CAPSTAN else if off < 0x74000 then Reg.block_HV
  else if off < 0x78000 then Reg.block_FUSER else if off < 0x7C000 then Reg.block_THERM else if off < 0x80000 then Reg.block_SEQ
  else if off < 0x88000 then Reg.block_FENLINK else if off < 0x90000 then Reg.block_FAULT else if off < 0x98000 then Reg.block_PWRMODE
  else if off < 0xA0000 then [] else if off < 0xB0000 then Reg.block_IO else if off < 0xF0000 then []
  else if off < 0x100000 then Reg.block_DIAG else []

/-- The instance of field `f` whose word starts at byte offset `a`. -/
def Fld.at? (f : Fld) (a : Nat) : Option (Nat × Nat) :=
  if a < f.base then none
  else
    let d := a - f.base
    let ij : Nat × Nat :=
      if f.s1 = 0 then (0, if f.s2 = 0 then 0 else d / f.s2)
      else if f.s2 = 0 then (d / f.s1, 0)
      else if f.s2 ≤ f.s1 then (d / f.s1, d % f.s1 / f.s2)
      else (d % f.s2 / f.s1, d / f.s2)
    if ij.1 < f.n1 ∧ ij.2 < f.n2 ∧ f.s1 * ij.1 + f.s2 * ij.2 = d then some ij else none

/-- A field that has a part in a word: its instance, and whether that part is its bits from 32 on. -/
structure Hit where
  f : Fld
  i : Nat
  j : Nat
  hi : Bool

/-- The parts of field `f` in the word at byte offset `off`. -/
def Fld.hits (f : Fld) (off : Nat) : List Hit :=
  (match f.at? off with
    | none => []
    | some (i, j) => if f.b2 = 0 then [⟨f, i, j, false⟩] else (List.range f.n2).map fun k => ⟨f, i, k, false⟩) ++
  (if 32 < f.lo + f.width ∧ 4 ≤ off then
    match f.at? (off - 4) with
    | none => []
    | some (i, j) => [⟨f, i, j, true⟩]
   else [])

/-- An instance that the chapters define: DRV_CURVE exists on DRV12–DRV15 only, and no Fenlink node has address 0 (R60). -/
def Hit.defined (h : Hit) : Bool :=
  !((h.f.base == Reg.DRV_CURVE_X.base && decide (h.i < 12)) ||
    (decide (Reg.FL_NODE_OUT.base ≤ h.f.base) && decide (h.f.base < 0x85000) && h.j == 0 && h.f.n2 == 256))

/-- The field parts in a word. -/
def hitsAt (off : Nat) : List Hit := ((blockFlds off).flatMap fun f => f.hits off).filter Hit.defined

/-- The bits of a field's value that a word `v` carries. -/
def Hit.part (h : Hit) (v : Nat) : Nat := if h.hi then v else v % 2 ^ 32 / 2 ^ (h.f.bit h.j) % 2 ^ h.f.width
/-- Where a field's value `v` shows in the word. -/
def Hit.place (h : Hit) (v : Nat) : Nat := if h.hi then v / 2 ^ 32 else v * 2 ^ (h.f.bit h.j) % 2 ^ 32

/-- What a read of a field answers (R61, R68). -/
def State.fieldRead (s : State) (h : Hit) : Nat :=
  match h.f.acc with
  | .qs => (match s.view? h.f h.i with | some v => v % 2 ^ h.f.width | none => s.qv h.f h.i h.j)
  | .wo => 0
  | _ => s.show_ h.f h.i h.j

/-- The microstep windows STP_USTEP (R240): entries 2j and 2j + 1 of set t at 0x5_2000 + 0x800 × t + 4 × j; 0 elsewhere. -/
def State.ustepWindow (s : State) (off : Nat) : Nat :=
  if off < 0x52000 ∨ 0x54000 ≤ off then 0
  else
    let t := (off - 0x52000) / 0x800
    let j := (off - 0x52000) % 0x800 / 4
    s.ustepEntry t (2 * j) % 2 ^ 12 + 2 ^ 16 * (s.ustepEntry t (2 * j + 1) % 2 ^ 12)

/-- The word at byte offset `off` as its fields show it; reserved bits and undefined offsets read 0 (R60). -/
def State.wordAt (s : State) (off : Nat) : Nat := (hitsAt off).foldl (fun v h => v + h.place (s.fieldRead h)) (s.ustepWindow off)

/-! ### Posting stages (R62, R63) -/

/-- The POST block that an offset lies in, by its base. -/
def postBase (off : Nat) : Option Nat :=
  if off < 0x1000 then some 0 else if 0x78000 ≤ off ∧ off < 0x80000 then some (off / 0x4000 * 0x4000)
  else if 0x88000 ≤ off ∧ off < 0x98000 then some (off / 0x8000 * 0x8000) else none

/-- A read of a register of a POST block follows the write in its stage (R63). -/
def State.flushRead (s : State) (off : Nat) : State :=
  match postBase off with
  | none => s
  | some b =>
    match tget none s.post b with
    | none => s
    | some w =>
      if off = b + 0xFFC ∨ (hitsAt off).isEmpty then s else { s with post := tput none s.post b (some { w with seen := true }) }

/-- The word as read: a BUSY that no flushing read has preceded is free (R63), and SEQBELL reads as the other participants hold it where
the device does not pull it (R306). -/
def State.readWord (s : State) (off : Nat) : Nat × State :=
  let s := s.flushRead off
  let v := s.wordAt off
  let stale := match postBase off with
    | none => false
    | some b => off == b + 0xFFC && (match tget none s.post b with | some w => !w.seen | none => false)
  if stale then
    let (b, s) := s.takeFree 2
    (v / 2 * 2 + b, s)
  else if off = Reg.SEQ_STAT_BELL.base ∧ !s.bellPull then
    let (b, s) := s.takeFree 2
    let k := 2 ^ Reg.SEQ_STAT_BELL.lo
    (v - v / k % 2 * k + b * k, s)
  else (v, s)

/-- A read access through BAR0 (R29, R30, R311, R353): the value, `none` for Unsupported Request. -/
def State.barRead (s : State) (src : Port) (off size : Nat) : Option Nat × State :=
  if (size ≠ 4 ∧ size ≠ 8) ∨ off % size ≠ 0 ∨ 0x100000 ≤ off then (none, s)
  else if !s.barOpen src off then (some 0, s)
  else
    let go (s : State) : Option Nat × State :=
      let (a, s) := s.readWord off
      if size = 4 then (some a, s)
      else
        let (b, s) := s.readWord (off + 4)
        (some (a + 2 ^ 32 * b), s)
    match portPf src with
    | none => go s
    | some p =>
      if (s.ownerOf off).any (· != p) then (some 0, s.pfViol off 0 p false)
      else if s.asleep off then (some 0, s.wr Reg.PWR_STAT_ASLEEP_ACCESS 1)
      else go s

end Sys2Proof.Machine
end

