-- ==== Sys2Proof/Machine/Boot.lean ====
section
/-! DEFINITION. Resets of the device (R352), boot from RST_N to a running ferryman (R353–R358), the loss of the reference (R17). -/

namespace Sys2Proof.Machine

/-! ### Resets -/

/-- Everything is reset but the log book, the OTP and the boot flash; failed boots still to be counted stay due (R352, log 36). -/
def State.resetAll (s : State) (counter cause : Nat) : State :=
  { State.reset with pending := s.pending, free := s.free, out := s.out, flash0 := s.flash0, flash1 := s.flash1, otp := s.otp,
                     logbook := s.logbook, lbDue := s.lbDue.filter (· == 3) ++ [counter] }.wr Reg.GEN_RESET_CAUSE_CAUSE cause

/-- VDD_AON rises (R352, R334). -/
def powerOnResetEff (s : State) : State := s.resetAll 0 1

def execPowerOnReset (s : State) : Host.Outcome State Fault Refusal := .next (powerOnResetEff s)

/-- RST_N low (R352, R334): FLT_GRAVE and the latch bits it covers stay, and it holds its outputs (R331). -/
def fundamentalResetEff (s : State) : State :=
  let g := s.rd Reg.FLT_GRAVE
  let l := s.rd Reg.FLT_LATCH &&& g
  { (((s.resetAll 1 2).wr Reg.FLT_GRAVE g).wr Reg.FLT_LATCH l) with graveHold := g != 0 }

def execFundamentalReset (s : State) : Host.Outcome State Fault Refusal := .next (fundamentalResetEff s)

/-- RST_N rises (R15, R353, R373): straps and banks are sampled, the PLLs lock, the watchdog is armed, and the ROM reads the primary
slot. -/
def rstNRiseEff (clksel : Bool) (banks : Nat) (s : State) : State :=
  if !s.boot.rstLow then s
  else
    let s := { s with boot := { s.boot with rstLow := false, reading := some 0, wdArmed := true, wdAt := s.now } }
    let s := ((s.wb Reg.GEN_CLK_STAT_REF_SRC clksel).wb Reg.GEN_IO_STAT_CLKSEL clksel).wr Reg.GEN_IO_STAT_BANK_3V3 banks
    (((s.wr Reg.GEN_IO_STAT_BANK_GOOD 63).wr Reg.GEN_CLK_STAT_CH_LOCK 1).wr Reg.GEN_CLK_STAT_HB_LOCK 1).wr Reg.GEN_BOOT_STAT_STAGE 1

def execRstNRise (clksel : Bool) (banks : Nat) (s : State) : Host.Outcome State Fault Refusal := .next (rstNRiseEff clksel banks s)

/-! ### Images (R354–R356) -/

/-- `n` bytes of an image from offset `a`; `fill` stands beyond its last byte. -/
def imgBytes (fill : Byte) (bs : List Byte) (a n : Nat) : List Byte :=
  let t := (bs.drop a).take n
  t ++ List.replicate (n - t.length) fill

/-- A little-endian field of an image. -/
def imgNat (fill : Byte) (bs : List Byte) (a n : Nat) : Nat := leNat (imgBytes fill bs a n)

def allZero (bs : List Byte) : Bool := bs.all (· == 0)

/-- Words that hold protection set-up (R75) and WL registers. -/
def protWord (off : Nat) : Bool := (hitsAt off).any fun h => h.f.acc == .prot
def wlWord (off : Nat) : Bool := (hitsAt off).any fun h => h.f.acc == .wl

/-- The protection records of an image: offset word and value (R354). -/
def imgRecords (fill : Byte) (bs : List Byte) : List (Nat × Nat) :=
  (List.range (imgNat fill bs 0x0C 2)).map fun k => (imgNat fill bs (0x100 + 8 * k) 4, imgNat fill bs (0x104 + 8 * k) 4)

/-- The length of an image before its signature. -/
def imgBody (fill : Byte) (bs : List Byte) : Nat :=
  0x100 + 8 * imgNat fill bs 0x0C 2 + imgNat fill bs 0x10 4 + imgNat fill bs 0x14 4

/-- The result code of R355 for an image. A flash slot has bytes beyond those written, erased to 0xFF; a staged image ends (`ends`) and is
held against the booted image's PROT_HASH. A KEY_SLOT above 3 names no slot (log 41). -/
def State.verify (s : State) (bs : List Byte) (staged : Bool) : Nat :=
  let fill : Byte := if staged then 0 else 0xFF
  let B (a n : Nat) : List Byte := imgBytes fill bs a n
  let N (a n : Nat) : Nat := imgNat fill bs a n
  let slot := N 6 1
  let code := N 0x10 4
  let data := N 0x14 4
  let key := s.otp.keys.getD slot none
  let keyHash := Config.sha256 (B 0x20 64)
  if staged ∧ bs.length < 0x100 then 0x02
  else if N 0 4 ≠ 0x44545653 ∨ N 4 2 ≠ 1 ∨ N 0x0E 1 / 16 ≠ 0 ∨ N 0x0F 1 ≠ 0 ∨ N 0x1C 4 ≠ 0 ∨ !allZero (B 0xA0 96) then 0x03
  else if 512 < N 0x0C 2 ∨ code % 8 ≠ 0 ∨ code < 8 ∨ data % 8 ≠ 0 ∨ 524288 < code + data ∨ code ≤ N 0x18 4 ∨ N 0x18 4 % 4 ≠ 0 then 0x04
  else if staged ∧ bs.length < imgBody fill bs + 64 then 0x02
  else if decide (4 ≤ slot) || (match key with | some h => h != keyHash | none => (s.otp.keys.any (·.isSome)) || slot != 0) then 0x05
  else if bitOf s.otp.revoked slot then 0x06
  else if N 7 1 < s.otp.epoch then 0x07
  else if B 0x60 32 ≠ Config.sha256 (B 0x100 (8 * N 0x0C 2)) then 0x08
  else if !Config.ecdsaVerify (B 0x20 64) (Config.sha256 (B 0 (imgBody fill bs))) (B (imgBody fill bs) 64) then 0x09
  else if !((imgRecords fill bs).all fun r => decide (r.1 < 0x100000) && decide (r.1 % 4 = 0) && (protWord r.1 || wlWord r.1)) then 0x0A
  else if staged ∧ B 0x60 32 ≠ s.boot.protHash then 0x0B
  else 0x00

/-! ### Protection set-up (R75, R330, R356) -/

/-- Sources whose class is fixed (R328, R330). -/
def fixedSource (n : Nat) : Bool := [0, 1, 2, 4, 5, 6, 7, 8, 14].contains n

/-- The value `v` is written to the protection set-up and WL fields of the word at `off`. An interlock input that is open and now routed
trips what it routes (R342). -/
def State.protWrite (s : State) (off v : Nat) : State :=
  let s := (hitsAt off).foldl (fun s h =>
    if h.f.acc = .prot then
      (if h.f.base = Reg.FLT_CLASS_MAP_CLASS.base ∧ fixedSource (16 * h.i + h.j) then s else s.wr h.f (h.part v) h.i h.j)
    else if h.f.acc = .wl then s.wr h.f (h.part v) h.i h.j
    else s) s
  let s := if wlWord off ∧ !s.wlDone.contains off then { s with wlDone := s.wlDone ++ [off] } else s
  if 0xA0300 ≤ off ∧ off < 0xA0320 then
    let i := (off - 0xA0300) / 4
    if bitOf (s.rd Reg.IO_INTLK_STAT_OPEN) i && !s.hasCause Src.intlkOpen Src.noUnit i then s.intlkTrip i else s
  else s

/-- GANGWAY closes (R75). -/
def State.gangwayClose (s : State) : State := s.wr Reg.GEN_GANGWAY_CLOSED 1

/-- GEN_GANGWAY.CLOSED is written 1: by boot code it closes; from a function it is a locked write. -/
def gangwayCloseEff (src : Port) (s : State) : State :=
  if s.boot.rstLow then s
  else match portPf src with
    | none => s.gangwayClose
    | some p => s.lockViol 0x10 p

def execGangwayClose (src : Port) (s : State) : Host.Outcome State Fault Refusal := .next (gangwayCloseEff src s)

/-! ### The boot ROM (R353, R357, R358) -/

/-- Put the key hash `h` into slot `k`. -/
def Otp.putKey (o : Otp) (k : Nat) (h : List Byte) : Otp := { o with keys := o.keys.set k (some h) }

/-- Enrolment, revocation and epoch of a booted image (R357). -/
def Otp.boot (o : Otp) (fill : Byte) (bs : List Byte) : Otp :=
  let enrol := imgBytes fill bs 0x80 32
  let o := if o.keys.all (·.isNone) then o.putKey 0 (Config.sha256 (imgBytes fill bs 0x20 64)) else o
  let o := if allZero enrol then o
    else match o.keys.findIdx? (·.isNone) with
      | some k => o.putKey k enrol
      | none => o
  let rev := (bitsOf (imgNat fill bs 0x0E 1) 4).filter (· != imgNat fill bs 6 1)
  { o with revoked := rev.foldl (fun m k => setBit m k true) o.revoked, epoch := max o.epoch (min 31 (imgNat fill bs 7 1)) }

/-- A verified image boots (R353, steps 4 and 5). -/
def State.bootImage (s : State) (slot : Nat) (bs : List Byte) : State :=
  let s := (imgRecords 0xFF bs).foldl (fun s r => s.protWrite r.1 r.2) s
  let s := s.gangwayClose
  let s := { s with otp := s.otp.boot 0xFF bs,
                    boot := { s.boot with reading := none, running := true, wdAt := s.now, protHash := imgBytes 0xFF bs 0x60 32, bank0 := bs },
                    lbDue := if slot = 1 then s.lbDue ++ [2] else s.lbDue }
  (((s.wr Reg.GEN_BOOT_STAT_BANK 0).wr Reg.GEN_BOOT_STAT_BACKUP slot).wr Reg.GEN_BOOT_STAT_STAGE 4).wr Reg.GEN_IMAGE_VERSION
    (imgNat 0xFF bs 8 4)

/-- Both slots have failed (R358). -/
def State.bootFails (s : State) : State :=
  let s := { s with boot := { s.boot with reading := none, wdArmed := false }, lbDue := s.lbDue ++ [3] }
  s.gangwayClose.wr Reg.GEN_BOOT_STAT_STAGE 5

/-- The ROM has read and verified a slot (R353, R355); `answers`: the flash answers and the read does not end early. -/
def bootImageVerifiedEff (slot : Nat) (answers : Bool) (s : State) : State :=
  if 2 ≤ slot ∨ s.boot.reading ≠ some slot then s
  else
    let bs := if slot = 0 then s.flash0 else s.flash1
    let r := if answers then s.verify bs false else 0x02
    let s := { s with boot := { s.boot with wdAt := s.now } }
    let s := if slot = 0 then s.wr Reg.GEN_BOOT_STAT_RESULT_PRI r else s.wr Reg.GEN_BOOT_STAT_RESULT_BAK r
    if r = 0 then s.bootImage slot bs
    else if slot = 0 then { s with boot := { s.boot with reading := some 1 } }
    else s.bootFails

def execBootImageVerified (slot : Nat) (answers : Bool) (s : State) : Host.Outcome State Fault Refusal :=
  .next (bootImageVerifiedEff slot answers s)

/-! ### Loss of the reference (R17) -/

/-- No reference edge arrives for 1 µs. The abandonment and the end of exposure follow from REF_LOSS (R121, R332). -/
def refLossEff (s : State) : State :=
  if s.on Reg.GEN_CLK_STAT_REF_LOST then s
  else (((s.raiseLive Src.refLoss Src.noUnit).wr Reg.GEN_CLK_STAT_REF_LOST 1).wr Reg.GEN_CLK_STAT_CH_LOCK 0).wr Reg.GEN_CLK_STAT_HB_LOCK 0

def execRefLoss (s : State) : Host.Outcome State Fault Refusal := .next (refLossEff s)

/-- A PLL has relocked on the RC oscillator. -/
def pllRelockEff (harbour : Bool) (s : State) : State :=
  if !s.on Reg.GEN_CLK_STAT_REF_LOST then s
  else if harbour then s.wr Reg.GEN_CLK_STAT_HB_LOCK 1 else s.wr Reg.GEN_CLK_STAT_CH_LOCK 1

def execPllRelock (harbour : Bool) (s : State) : Host.Outcome State Fault Refusal := .next (pllRelockEff harbour s)

end Sys2Proof.Machine
end

