-- ==== Sys2Proof/Machine/Rings.lean ====
section
/-! DEFINITION. Submission and event rings, vectors and Bus Master Enable (R31, R34, R36–R41, R43–R50, R391). -/

namespace Sys2Proof.Machine

/-! ### Submission rings -/

/-- Ring `n` halts (R41): the first halt is captured and gives one halt record; a halted ring stays as it is. -/
def State.haltRing (s : State) (n code slot : Nat) : State :=
  if s.on Reg.SQ_STAT_HALT n then s
  else
    let s := ((s.wr Reg.SQ_STAT_HALT 1 n).wr Reg.SQ_STAT_HALT_CODE code n).wr Reg.SQ_STAT_HALT_SLOT slot n
    let s := s.setSq n { s.sqs n with part := [], chainAt := none, chainNeed := 0 }
    s.produce (s.rd Reg.SQ_CFG_EQ n) ⟨0, code, n + 2 ^ 14 + 2 ^ 15 * s.ownSq n, 0, 0, 0, 0, false, slot⟩

/-- Descriptors posted and not accepted (R37, R38). -/
def State.posted (s : State) (n : Nat) : Nat :=
  (s.rd Reg.SQ_TAIL_TAIL n + s.sqSize n - s.rd Reg.SQ_HEAD_HEAD n) % s.sqSize n

/-- Descriptors have been posted: with the rest of its chain posted, a chain waits no longer (R38). -/
def State.chainPosted (s : State) (n : Nat) : State :=
  if s.posted n < (s.sqs n).chainNeed then s else s.setSq n { s.sqs n with chainAt := none, chainNeed := 0 }

/-- A doorbell with the new tail `t'` at ring `n`, by the table of R37. -/
def State.ringDoorbell (s : State) (n t' : Nat) : State :=
  let N := s.sqSize n
  let h := s.rd Reg.SQ_HEAD_HEAD n
  let t := s.rd Reg.SQ_TAIL_TAIL n
  if !s.on Reg.SQ_CTL_EN n then s
  else if N ≤ t' then s.haltRing n St.badDesc t
  else if t' = t then s
  else if (t' + N - h) % N < (t + N - h) % N then s.haltRing n St.badDesc t
  else (s.wr Reg.SQ_TAIL_TAIL t' n).chainPosted n

/-- Writes of the function behind `src` that are still in posting stages came before the doorbell of ring `n` (R69). -/
def State.ringAfter (s : State) (src : Port) (n : Nat) : State :=
  [0, 0x78000, 0x7C000, 0x88000, 0x90000].foldl (fun s b => match tget none s.post b with
    | some w => if w.src = src then { s with post := tput none s.post b (some { w with rung := setBit w.rung n true }) } else s
    | none => s) s

/-- A BAR2 write (R29, R30, R37): at a ring that the function does not own it is refused; else aligned 4-byte writes at n × 0x1000 ring
the doorbell, and others are dropped. At an enabled ring it is a wake source (R312). -/
def doorbellEff (src : Port) (off size val : Nat) (s : State) : State :=
  let n := off / 0x1000
  match portPf src with
  | none => s
  | some p =>
    if 64 ≤ n then s
    else if s.ownSq n ≠ p then s.pfViol off 1 p true
    else if size ≠ 4 ∨ off % 0x1000 ≠ 0 then s
    else
      let s := if s.on Reg.SQ_CTL_EN n then s.wakeAsk 1 else s
      (s.ringDoorbell n (val % 2 ^ 16)).ringAfter src n

def execDoorbell (src : Port) (off size val : Nat) (s : State) : Host.Outcome State Fault Refusal :=
  .next (doorbellEff src off size val s)

/-- SQ_CTL.EN from 0 to 1 (R36). -/
def sqEnableEff (src : Port) (n : Nat) (s : State) : State :=
  if 64 ≤ n then s
  else s.access src (Reg.SQ_CTL_EN.addr n 0) true fun s =>
    if s.on Reg.SQ_CTL_EN n then s
    else
      let s := ((s.wr Reg.SQ_CTL_EN 1 n).wr Reg.SQ_HEAD_HEAD 0 n).wr Reg.SQ_TAIL_TAIL 0 n
      let s := (s.wr Reg.SQ_SEQ_SEQ_NEXT (s.rd Reg.SQ_SEQ_SEQ_INIT n) n).wr Reg.SQ_STAT_HALT 0 n
      s.setSq n { s.sqs n with part := [], chainAt := none, chainNeed := 0 }

def execSqEnable (src : Port) (n : Nat) (s : State) : Host.Outcome State Fault Refusal := .next (sqEnableEff src n s)

/-- SQ_CTL.EN written 0 (R40): posted descriptors are discarded without records, accepted ones run on, the head stays. -/
def sqDisableEff (src : Port) (n : Nat) (s : State) : State :=
  if 64 ≤ n then s
  else s.access src (Reg.SQ_CTL_EN.addr n 0) true fun s =>
    (s.wr Reg.SQ_CTL_EN 0 n).setSq n { s.sqs n with part := [], chainAt := none, chainNeed := 0 }

def execSqDisable (src : Port) (n : Nat) (s : State) : Host.Outcome State Fault Refusal := .next (sqDisableEff src n s)

/-- SQ_CTL.RESTART (R41): HALT clears and fetching resumes at SQ_HEAD. -/
def sqRestartEff (src : Port) (n : Nat) (s : State) : State :=
  if 64 ≤ n then s
  else s.access src (Reg.SQ_CTL_RESTART.addr n 0) true fun s => s.wr Reg.SQ_STAT_HALT 0 n

def execSqRestart (src : Port) (n : Nat) (s : State) : Host.Outcome State Fault Refusal := .next (sqRestartEff src n s)

/-- Complete descriptors that never started, with one status (R44). -/
def State.refuseAll (s : State) (n : Nat) (status : Nat) (ds : List Desc) : State :=
  ds.foldl (fun s d => s.produce (s.rd Reg.SQ_CFG_EQ n) (completionRec ⟨n, 0, s.ownSq n, d⟩ status 0)) s

/-- The place in a chain of the first SEQ that does not match, counted from the chain's first (R44). -/
def seqBad (next : Nat) : List Desc → Option Nat
  | [] => none
  | d :: ds => if dSeq d ≠ next % 65536 then some 0 else (seqBad (next + 1) ds).map (· + 1)

/-- Every descriptor of a chain passes the header check at its place (R44). -/
def chainOk : List Desc → Bool
  | [] => true
  | d :: ds => headerOk d ds.length && chainOk ds

/-- A descriptor or whole chain that has been read (R38, R41, R44): a SEQ mismatch completes it with BAD_DESC and halts the
ring; another header failure completes it with BAD_DESC; otherwise it is accepted. -/
def State.takeChain (s : State) (n : Nat) (ds : List Desc) : State :=
  let h := s.rd Reg.SQ_HEAD_HEAD n
  let N := s.sqSize n
  let s := s.setSq n { s.sqs n with part := [], chainAt := none, chainNeed := 0 }
  let bad := if s.on Reg.SQ_CFG_SEQ_CHK n then seqBad (s.rd Reg.SQ_SEQ_SEQ_NEXT n) ds else none
  match bad with
  | some i => (s.refuseAll n St.badDesc ds).haltRing n St.badDesc ((h + i) % N)
  | none =>
    let s := (s.wr Reg.SQ_HEAD_HEAD ((h + ds.length) % N) n).wr Reg.SQ_SEQ_SEQ_NEXT (s.rd Reg.SQ_SEQ_SEQ_NEXT n + ds.length) n
    if chainOk ds then s.setSq n { s.sqs n with accepted := (s.sqs n).accepted ++ ds }
    else s.refuseAll n St.badDesc ds

/-- One descriptor of a fetch arrives at ring `n` (R38): the first of a chain decides whether the chain is too long, not yet
posted whole, or read on. -/
def State.takeDesc (s : State) (n : Nat) (d : Desc) : State :=
  let q := s.sqs n
  if s.on Reg.SQ_STAT_HALT n then s
  else match q.part with
    | [] =>
      if s.sqSize n - 1 < dLink d + 1 then s.haltRing n St.badDesc (s.rd Reg.SQ_HEAD_HEAD n)
      else if s.posted n < dLink d + 1 then
        if q.chainAt.isSome then s else s.setSq n { q with chainAt := some s.now, chainNeed := dLink d + 1, chainLost := 0 }
      else if dLink d = 0 then s.takeChain n [d]
      else s.setSq n { q with part := [d], chainAt := none, chainNeed := 0 }
    | p :: ps =>
      if (p :: ps).length < dLink p then s.setSq n { q with part := (p :: ps) ++ [d] }
      else s.takeChain n ((p :: ps) ++ [d])

/-- Fetching of ring `n` may run (R38, R40, R41, R56, R391); in Moored a doorbell waits for the exit (R312, log 33). Writes that came
before its doorbell have left their posting stages (R69). -/
def State.fetchOk (s : State) (n : Nat) : Bool :=
  s.on Reg.SQ_CTL_EN n && !s.on Reg.SQ_STAT_HALT n && (s.pf (s.ownSq n)).bme && !(s.pf (s.ownSq n)).flr && s.rd Reg.PWR_STAT_MODE != 2 &&
    s.post.all fun b => match b.2 with | some w => !bitOf w.rung n | none => true

/-- Ring `n` has something to fetch: posted descriptors, the first of which does not wait for its chain. -/
def State.fetchable (s : State) (n : Nat) : Bool := s.fetchOk n && s.posted n != 0 && (s.sqs n).chainAt.isNone

/-- The ring that the fetcher serves (R39): one whose chain it is reading, else of the highest priority level that has posted
descriptors the next ring, round-robin behind the one that the level served last. -/
def State.sqTurn (s : State) : Option Nat :=
  let rs := (List.range 64).filter s.fetchable
  match rs.find? fun n => !(s.sqs n).part.isEmpty with
  | some n => some n
  | none =>
    let top := rs.foldl (fun m n => max m (s.rd Reg.SQ_CFG_PRIO n)) 0
    let last := tget 63 s.rrSq top
    let ls := rs.filter fun n => s.rd Reg.SQ_CFG_PRIO n == top
    match ls.find? fun n => decide (last < n) with
    | some n => some n
    | none => ls.head?

/-- The descriptors of a read arrive in turn, as long as it is their ring's turn (R39); what it is not yet the turn of is read again. -/
def State.takeRead (n : Nat) : List Desc → State → State
  | [], s => s
  | d :: ds, s =>
    if s.sqTurn = some n then
      State.takeRead n ds ({ s with rrSq := tput 63 s.rrSq (s.rd Reg.SQ_CFG_PRIO n) n }.takeDesc n d)
    else s

/-- The host address of a ring's base (R36, R46) and of the chart's region (R52). -/
def State.sqBase (s : State) (n : Nat) : Nat := 64 * s.rd Reg.SQ_BASE_LO_BASE_LO n + 2 ^ 32 * s.rd Reg.SQ_BASE_HI_BASE_HI n
def State.eqBase (s : State) (n : Nat) : Nat := 64 * s.rd Reg.EQ_BASE_LO_BASE_LO n + 2 ^ 32 * s.rd Reg.EQ_BASE_HI_BASE_HI n
def State.chartBase (s : State) : Nat := 4096 * s.rd Reg.CHART_BASE_LO_BASE_LO + 2 ^ 32 * s.rd Reg.CHART_BASE_HI_BASE_HI

/-- The read of `k` consecutive slots of ring `n` from the next one on, in two where it wraps (R36, R38). -/
def State.fetchReads (s : State) (n k : Nat) : State :=
  let N := s.sqSize n
  let h := (s.rd Reg.SQ_HEAD_HEAD n + (s.sqs n).part.length) % N
  let a := min k (N - h)
  let s := s.emit (.hostRead (s.sqBase n + 64 * h) (64 * a))
  if a < k then s.emit (.hostRead (s.sqBase n) (64 * (k - a))) else s

/-- A read of up to eight slots returns (R38, log 100); on an uncorrectable fabric error its first descriptor completes with ECC and has
no other effect (R21), and so does the chain that it belongs to (log 100). -/
def descriptorFetchEff (n : Nat) (ds : List Desc) (s : State) : State :=
  if 64 ≤ n ∨ ds = [] ∨ 8 < ds.length ∨ s.posted n < (s.sqs n).part.length + ds.length ∨ s.sqTurn ≠ some n then s
  else
    let (inj, s) := (s.fetchReads n ds.length).fabricTake
    let s := if inj = 1 then s.eccCe 3 0x1000 else s
    if inj = 2 then
      let ds := (s.sqs n).part ++ ds.take 1
      let s := (s.eccUe 3 0x1000).setSq n { s.sqs n with part := [] }
      let s := s.wr Reg.SQ_HEAD_HEAD ((s.rd Reg.SQ_HEAD_HEAD n + ds.length) % s.sqSize n) n
      (s.wr Reg.SQ_SEQ_SEQ_NEXT (s.rd Reg.SQ_SEQ_SEQ_NEXT n + ds.length) n).refuseAll n St.ecc ds
    else State.takeRead n ds s

def execDescriptorFetch (n : Nat) (ds : List Desc) (s : State) : Host.Outcome State Fault Refusal :=
  .next (descriptorFetchEff n ds s)

/-- HALT_CODE of a failed fetch (R34). -/
def fetchCode : ReadEnd → Nat
  | .timeout => St.timeout
  | .poisoned => St.ecc
  | .ur => St.badDesc
  | .ca => St.badDesc

/-- A fetch fails (R34): HALT_SLOT is the slot of its first descriptor. -/
def fetchFailEff (n : Nat) (how : ReadEnd) (s : State) : State :=
  if 64 ≤ n ∨ s.posted n = 0 ∨ !s.on Reg.SQ_CTL_EN n then s
  else s.haltRing n (fetchCode how) ((s.rd Reg.SQ_HEAD_HEAD n + (s.sqs n).part.length) % s.sqSize n)

def execFetchFail (n : Nat) (how : ReadEnd) (s : State) : Host.Outcome State Fault Refusal := .next (fetchFailEff n how s)

/-- DESC_FETCH_MS in ns (R338): 0 acts as 1. -/
def State.descFetchNs (s : State) : Nat := max 1 (s.rd Reg.FLT_TMO_DESC_FETCH_MS) * 1000000

/-- The rest of a chain is not posted in time (R38); the wait does not run while Bus Master Enable is 0 (R391). -/
def chainTimeoutEff (n : Nat) (s : State) : State :=
  match (s.sqs n).chainAt with
  | none => s
  | some t =>
    if (s.pf (s.ownSq n)).bme && s.on Reg.SQ_CTL_EN n && decide (s.posted n < (s.sqs n).chainNeed) &&
        decide (t + (s.sqs n).chainLost + s.descFetchNs ≤ s.now) then
      s.haltRing n St.timeout (s.rd Reg.SQ_HEAD_HEAD n)
    else s

def execChainTimeout (n : Nat) (s : State) : Host.Outcome State Fault Refusal := .next (chainTimeoutEff n s)

/-- NOP (R43): its reserved bytes are zero, or it completes with BAD_DESC (R5). -/
def nopEff (n : Nat) (s : State) : State :=
  s.withDesc n 0x00 fun j s => s.complete j (if dZero j.d 16 64 then St.ok else St.badDesc)

def execNop (n : Nat) (s : State) : Host.Outcome State Fault Refusal := .next (nopEff n s)

/-! ### Event rings -/

/-- The vector of event ring `n` is signalled (R31, R50). -/
def State.signalEq (s : State) (n : Nat) : State :=
  let s := s.setEq n { s.eqs n with unsig := 0, unsigAt := none }
  if s.ownEq n = 0 then s.signal 0 (32 + n) else s.signal 1 n

/-- The 32 bytes of a record with its pass marker, as one little-endian number (R45). -/
def recImage (r : Rec) (phase : Nat) : Nat :=
  r.typ % 2 ^ 8 + 2 ^ 8 * (r.status % 2 ^ 8) + 2 ^ 16 * (r.src % 2 ^ 16) + 2 ^ 32 * (r.tag % 2 ^ 32) + 2 ^ 64 * (r.crx % 2 ^ 32) +
    2 ^ 96 * (r.dseq % 2 ^ 16) + 2 ^ 128 * (r.stamp % 2 ^ 40) + 2 ^ 191 * (if r.degraded then 1 else 0) + 2 ^ 192 * (r.data % 2 ^ 56) +
    2 ^ 255 * (phase % 2)

/-- One record is written into event ring `n`, as one write of 32 bytes (R45, R46, R50). -/
def State.writeRecord (s : State) (n : Nat) (r : Rec) : State :=
  let t := s.rd Reg.EQ_TAIL_TAIL n
  let ph := s.rd Reg.EQ_TAIL_PHASE n
  let s := s.emit (.record n (s.eqBase n + 32 * t) (recImage r ph))
  let s := if t + 1 = s.eqSize n then (s.wr Reg.EQ_TAIL_TAIL 0 n).wr Reg.EQ_TAIL_PHASE (1 - ph) n
    else s.wr Reg.EQ_TAIL_TAIL (t + 1) n
  let e := s.eqs n
  let s := s.setEq n { e with unsig := e.unsig + 1, unsigAt := if e.unsigAt.isSome then e.unsigAt else some s.now }
  if max 1 (s.rd Reg.EQ_CFG_IMOD_COUNT n) ≤ e.unsig + 1 then s.signalEq n else s

/-- Event ring `n` can take a record (R14, R47, R391). -/
def State.eqReady (s : State) (n : Nat) : Bool := s.on Reg.EQ_CTL_EN n && !s.eqFull n && (s.pf (s.ownEq n)).bme

/-- Remove the first record of ring `n` from holdover. -/
def dropFirst (n : Nat) : List (Nat × Rec) → List (Nat × Rec)
  | [] => []
  | (m, r) :: t => if m = n then t else (m, r) :: dropFirst n t

/-- Deliver the next record of ring `n` (R14, R48, R56): a loss record that is owed, then holdover, then the share. -/
def State.deliver (s : State) (n : Nat) : State :=
  if !s.eqReady n then s
  else
    let e := s.eqs n
    if e.owed ≠ 0 then
      (s.setEq n { e with owed := 0 }).writeRecord n
        { mkRec 6 St.ok 0 0 (min 0xFFFF e.owed) with stamp := s.stamp, degraded := s.degraded }
    else match s.holdover.find? fun x => x.1 == n with
      | some (_, r) => (({ s with holdover := dropFirst n s.holdover }).writeRecord n r).sigStep n
      | none =>
        match e.share with
        | [] => s
        | r :: rs => ((s.setEq n { e with share := rs }).writeRecord n r).sigStep n

/-- Deliver up to `k` records. -/
def State.deliverUpTo (n : Nat) : Nat → State → State
  | 0, s => s
  | k + 1, s => State.deliverUpTo n k (s.deliver n)

/-- EQ_CTL.EN from 0 to 1 (R46, R50, R56): head, tail and pass start over; then loss record, holdover and staged records. -/
def eqEnableEff (src : Port) (n : Nat) (s : State) : State :=
  if 16 ≤ n then s
  else s.access src (Reg.EQ_CTL_EN.addr n 0) true fun s =>
    if s.on Reg.EQ_CTL_EN n then s
    else
      let s := (((s.wr Reg.EQ_CTL_EN 1 n).wr Reg.EQ_HEAD_HEAD 0 n).wr Reg.EQ_TAIL_TAIL 0 n).wr Reg.EQ_TAIL_PHASE 1 n
      let s := s.setEq n { s.eqs n with held := false, unsig := 0, unsigAt := none }
      State.deliverUpTo n (1 + s.holdover.length + (s.eqs n).share.length) s

def execEqEnable (src : Port) (n : Nat) (s : State) : Host.Outcome State Fault Refusal := .next (eqEnableEff src n s)

/-- EQ_CTL.EN written 0 (R14): records for the ring wait in its share. -/
def eqDisableEff (src : Port) (n : Nat) (s : State) : State :=
  if 16 ≤ n then s else s.access src (Reg.EQ_CTL_EN.addr n 0) true fun s => s.wr Reg.EQ_CTL_EN 0 n

def execEqDisable (src : Port) (n : Nat) (s : State) : Host.Outcome State Fault Refusal := .next (eqDisableEff src n s)

/-- A write of EQ_HEAD (R47): past the tail it is ignored and sets HEAD_ERR. -/
def eqHeadWriteEff (src : Port) (n val : Nat) (s : State) : State :=
  if 16 ≤ n then s
  else s.access src (Reg.EQ_HEAD_HEAD.addr n 0) true fun s =>
    let N := s.eqSize n
    let v := val % 2 ^ 16
    let h := s.rd Reg.EQ_HEAD_HEAD n
    if N ≤ v ∨ (s.rd Reg.EQ_TAIL_TAIL n + N - h) % N < (v + N - h) % N then s.wr Reg.EQ_STAT_HEAD_ERR 1 n
    else s.wr Reg.EQ_HEAD_HEAD v n

def execEqHeadWrite (src : Port) (n val : Nat) (s : State) : Host.Outcome State Fault Refusal := .next (eqHeadWriteEff src n val s)

/-- A unit hands a record to event ring `n` (R14). -/
def eventRecordProduceEff (n : Nat) (r : Rec) (s : State) : State := if 16 ≤ n then s else s.produce n r

def execEventRecordProduce (n : Nat) (r : Rec) (s : State) : Host.Outcome State Fault Refusal :=
  .next (eventRecordProduceEff n r s)

/-- The RING block writes the next waiting record of ring `n` (R48). -/
def eventRecordDeliverEff (n : Nat) (s : State) : State := if 16 ≤ n then s else s.deliver n

def execEventRecordDeliver (n : Nat) (s : State) : Host.Outcome State Fault Refusal := .next (eventRecordDeliverEff n s)

/-- IMOD_TIME µs after the first unsignalled record (R50); 0 turns the timer off. -/
def imodTimerExpireEff (n : Nat) (s : State) : State :=
  match (s.eqs n).unsigAt with
  | none => s
  | some t =>
    if 16 ≤ n ∨ s.rd Reg.EQ_CFG_IMOD_TIME n = 0 ∨ s.now < t + 1000 * s.rd Reg.EQ_CFG_IMOD_TIME n then s else s.signalEq n

def execImodTimerExpire (n : Nat) (s : State) : Host.Outcome State Fault Refusal := .next (imodTimerExpireEff n s)

/-! ### Vectors and Bus Master Enable -/

/-- Send the pending message of vector `v` of function `p`, where it may be sent (R31, R391). -/
def State.sendPending (s : State) (p v : Nat) : State :=
  let f := s.pf p
  if bitOf f.pba v && f.msixEn && f.bme && !s.vecMasked p v then
    (s.setPf p { f with pba := setBit f.pba v false }).emit (.msix p v)
  else s

/-- The vectors of a function (R28). -/
def vecCount (p : Nat) : Nat := if p = 0 then 128 else 16

/-- Host software clears a vector's mask bit (R31). -/
def msixUnmaskEff (p v : Nat) (s : State) : State :=
  if 2 ≤ p ∨ vecCount p ≤ v then s
  else
    let k := p * 16384 + 16 * v + 12
    ({ s with msixTab := tput 1 s.msixTab k (setBit (tget 1 s.msixTab k) 0 false) }).sendPending p v

def execMsixUnmask (p v : Nat) (s : State) : Host.Outcome State Fault Refusal := .next (msixUnmaskEff p v s)

/-- The chain wait of ring `n` of function `p` did not run since `off` (R391). -/
def State.resumeChain (s : State) (n p off : Nat) : State :=
  match (s.sqs n).chainAt with
  | none => s
  | some t =>
    if s.ownSq n = p then s.setSq n { s.sqs n with chainLost := (s.sqs n).chainLost + (s.now - max t off) } else s

/-- A function's Bus Master Enable and MSI-X Enable are written (R31, R391): held messages go once they may. -/
def busMasterEnableWriteEff (p : Nat) (bme msixEn : Bool) (s : State) : State :=
  if 2 ≤ p then s
  else
    let f := s.pf p
    let s := if bme && !f.bme then (List.range 64).foldl (fun s n => s.resumeChain n p f.offAt) s else s
    let s := s.setPf p { f with bme := bme, msixEn := msixEn, offAt := if f.bme && !bme then s.now else f.offAt }
    let s := (List.range (vecCount p)).foldl (fun s v => s.sendPending p v) s
    if bme && !f.bme then s.xferResume p else s

def execBusMasterEnableWrite (p : Nat) (bme msixEn : Bool) (s : State) : Host.Outcome State Fault Refusal :=
  .next (busMasterEnableWriteEff p bme msixEn s)

end Sys2Proof.Machine
end

