-- ==== Sys2Proof/Machine/HostLink.lean ====
section
/-! DEFINITION. Link changes (R33, R35), function-level and hot resets (R56–R58), and the chart (R52–R55, R391). -/

namespace Sys2Proof.Machine

/-! ### Resets of a function -/

/-- Keep the fields outside the byte range [a, b) at what they are; those inside take their reset values. -/
def State.regsReset (s : State) (a b : Nat) : State := { s with regs := s.regs.filter fun e => !(decide (a ≤ e.1 / 64) && decide (e.1 / 64 < b)) }

/-- Accepted transfers of function `p` that have not started are discarded without records (R56, log 38). -/
def State.dropQueued (s : State) (p : Nat) : State :=
  (List.range 18).foldl (fun s i =>
    let l := 14 + i
    let q := s.xfers l
    let k := s.rd Reg.LT_STAT_BUSY l
    let gone := (q.drop k).filter fun x => x.job.pf == p
    let s := gone.foldl (fun s x => s.setSq x.job.ring { s.sqs x.job.ring with running := (s.sqs x.job.ring).running - 1 }) s
    (s.setXfers l (q.take k ++ (q.drop k).filter fun x => x.job.pf != p)).queuedShow l) s

/-- Submission ring `n` and its registers are reset: accepted descriptors that have not started go without records (R56). -/
def State.sqReset (s : State) (n : Nat) : State :=
  let q := s.sqs n
  (s.regsReset (0x4000 + 0x40 * n) (0x4040 + 0x40 * n)).setSq n { SqSt.init with running := q.running - q.manifest.length }

/-- Insert a record into a list ordered by age, oldest first, behind those as old. -/
def ageIns (now : Nat) (x : Nat × Rec) : List (Nat × Rec) → List (Nat × Rec)
  | [] => [x]
  | y :: ys =>
    let age (r : Rec) : Nat := (now + pos40 - r.stamp % pos40) % pos40
    if age y.2 < age x.2 then x :: y :: ys else y :: ageIns now x ys

/-- Event rings `ns` and their registers are reset: the records waiting in their shares move to holdover in production order, as far
as it has room, and later ones follow (R56). -/
def State.eqReset (s : State) (ns : List Nat) : State :=
  let all := (ns.flatMap fun n => (s.eqs n).share.map (n, ·)).foldl (fun l x => ageIns (s.now % pos40) x l) []
  let room := 256 - s.holdover.length
  let s := { s with holdover := s.holdover ++ all.take room }
  ns.foldl (fun s n =>
    (s.regsReset (0x5000 + 0x40 * n) (0x5040 + 0x40 * n)).setEq n
      { s.eqs n with share := ((all.drop room).filter fun x => x.1 == n).map (·.2), unsig := 0, unsigAt := none, held := true }) s

/-- The reset edge of function `p` (R56, R57). -/
def State.flrEdge (s : State) (p : Nat) : State :=
  let hot := (s.pf p).hot
  let s := s.wr Reg.GEN_RESET_CAUSE_CAUSE (setBit (s.rd Reg.GEN_RESET_CAUSE_CAUSE) (if hot then 2 else 3 + p) true)
  let s := (s.setPf p ⟨false, false, 0, false, s.now, false⟩).dropQueued p
  let s := { s with msixTab := s.msixTab.filter fun e => e.1 / 16384 != p, cfg := s.cfg.filter fun e => e.1 / 4096 != p }
  let s := ((List.range 64).filter fun n => s.ownSq n == p).foldl (fun s n => s.sqReset n) s
  let s := s.eqReset ((List.range 16).filter fun n => s.ownEq n == p)
  if p = 1 then s
  else
    let s := { (((s.regsReset 0x5A00 0x5A04).regsReset 0x5800 0x5810).regsReset 0x100C 0x1010) with chartWant := false }
    (s.liveCrx.filter fun c => c.state == 1).foldl (fun s c => match s.live? c.crx with
      | some c => (s.toDrafted c St.refusedState).pwrTake
      | none => s) s

/-- A reset of function `p` is requested: running transfers that use host memory for it are asked to end (R56, R351). -/
def State.flrAsk (s : State) (p : Nat) (hot : Bool) : State :=
  (s.setPf p { s.pf p with flr := true, hot := (s.pf p).hot || hot }).drainAsk (Xfer.hostOf p)

/-- The drain of function `p` has ended and its reads are back. -/
def State.flrReady (s : State) (p : Nat) : Bool :=
  !s.draining (Xfer.hostOf p) && (p == 1 || (List.range 12).all fun l => (s.rlts l).rows.isEmpty)

/-- The resets that are requested and may take effect; those of a hot reset act at one edge (R58). -/
def State.flrTake (s : State) : State :=
  let r0 := s.flrReady 0
  let r1 := s.flrReady 1
  let both := s.pf0.flr && s.pf0.hot && s.pf1.flr && s.pf1.hot
  let go0 := s.pf0.flr && r0 && (!both || r1)
  let go1 := s.pf1.flr && r1 && (!both || r0)
  let s := if go0 then s.flrEdge 0 else s
  if go1 then s.flrEdge 1 else s

/-- A function-level reset of PF0 is requested (R56). -/
def flrRequestEff (s : State) : State := s.flrAsk 0 false

def execFlrRequest (s : State) : Host.Outcome State Fault Refusal := .next (flrRequestEff s)

/-- The reset edge, once the drain has ended and every transaction issued is back (R56). -/
def flrResetEdgeEff (s : State) : State := if s.pf0.flr then s.flrTake else s

def execFlrResetEdge (s : State) : Host.Outcome State Fault Refusal := .next (flrResetEdgeEff s)

/-- A function-level reset of PF1 (R57): it acts at once where nothing is to be drained, else when this row comes again (log 38). -/
def flrPf1Eff (s : State) : State := (if s.pf1.flr then s else s.flrAsk 1 false).flrTake

def execFlrPf1 (s : State) : Host.Outcome State Fault Refusal := .next (flrPf1Eff s)

/-- A hot reset resets both functions (R58); it acts at once where nothing is to be drained, else at FLR_RESET_EDGE. -/
def State.hotReset (s : State) : State := ((s.flrAsk 0 true).flrAsk 1 true).flrTake

def hotResetEff (s : State) : State := s.hotReset

def execHotReset (s : State) : Host.Outcome State Fault Refusal := .next (hotResetEff s)

/-! ### The link -/

/-- The capacity table of R35 in MB/s by rate code and width. -/
def capTable (rate width : Nat) : Nat :=
  match rate with
  | 5 => if width = 4 then 12400 else if width = 2 then 6200 else 3100
  | 4 => if width = 4 then 6200 else if width = 2 then 3100 else 1550
  | 3 => if width = 4 then 3100 else if width = 2 then 1550 else 775
  | 2 => if width = 4 then 1575 else if width = 2 then 787 else 393
  | 1 => if width = 4 then 787 else if width = 2 then 393 else 196
  | _ => 0

/-- HOSTIF_BUDGET_CAP (R33, R35). -/
def linkCap (rate width mps : Nat) : Nat := if mps = 0 then capTable rate width * 8 / 10 else capTable rate width

/-- The link trains to `rate`, `width` and `mps`, or goes down with rate 0 (R33). -/
def State.linkChange (s : State) (rate width mps : Nat) : State :=
  let r := s.rd Reg.HOSTIF_LINK_RATE
  let w := s.rd Reg.HOSTIF_LINK_WIDTH
  let m := s.rd Reg.HOSTIF_LINK_MPS
  let cap := s.rd Reg.HOSTIF_BUDGET_CAP_CAP
  if r = rate ∧ w = width ∧ m = mps then s
  else
    let new := linkCap rate width mps
    let s := (((s.wr Reg.HOSTIF_LINK_RATE rate).wr Reg.HOSTIF_LINK_WIDTH width).wr Reg.HOSTIF_LINK_MPS mps).wr Reg.HOSTIF_BUDGET_CAP_CAP new
    let s := s.produce (s.rd Reg.RING_EVT_ROUTE_LINK) (mkRec 5 St.ok 0 0
      (r + 2 ^ 3 * rate + 2 ^ 6 * w + 2 ^ 9 * width + 2 ^ 12 * m + 2 ^ 14 * mps + 2 ^ 16 * cap + 2 ^ 32 * new))
    let s := s.signal 0 50
    if rate = 0 ∧ r ≠ 0 then s.hotReset else s

/-- A link change; a link that is down has width 0 (R33). -/
def linkChangeEff (rate width mps : Nat) (s : State) : State :=
  if 6 ≤ rate ∨ 3 ≤ mps ∨ (rate ≠ 0 ∧ !([1, 2, 4].contains width)) then s
  else if rate = 0 then s.linkChange 0 0 0 else s.linkChange rate width mps

def execLinkChange (rate width mps : Nat) (s : State) : Host.Outcome State Fault Refusal := .next (linkChangeEff rate width mps s)

/-! ### The chart -/

/-- CHART_CTL.EN from 0 to 1 (R52): the count starts over, and SEQ = 0 is written where Bus Master Enable lets it. -/
def State.chartStart (s : State) : State :=
  if s.on Reg.CHART_CTL_EN then s
  else
    let s := { (s.wr Reg.CHART_CTL_EN 1).wr Reg.CHART_STAT_SEQ_LO 0 with chartSeq := 0, chartWant := false }
    if (s.pf (s.ownBlk 2)).bme then s.emit (.chartSeq s.chartBase 0) else s

def chartEnableEff (src : Port) (s : State) : State := s.access src 0x5808 true fun s => s.chartStart

def execChartEnable (src : Port) (s : State) : Host.Outcome State Fault Refusal := .next (chartEnableEff src s)

/-- Crossings that have ended release their chart slots (R55). -/
def State.releaseSlots (s : State) : State := { s with crossings := s.crossings.filter fun c => decide (c.state ≤ 3) }

/-- A chart is due: a whole millisecond of device time, or a state change (R53). -/
def State.chartMsDue (s : State) : Bool := s.now % 1000000 == 0 && s.chartMs != s.now / 1000000 + 1

/-- A chart falls due (R52, R53, R55, R391): written where the function of RING may, outside Moored. -/
def chartWriteEff (s : State) : State :=
  let ms := s.chartMsDue
  if !ms && !s.chartWant then s
  else
    let s := if ms then { s with chartMs := s.now / 1000000 + 1 } else s
    let ok := s.on Reg.CHART_CTL_EN && (s.pf (s.ownBlk 2)).bme && s.rd Reg.PWR_STAT_MODE != 2
    let s := { s with chartWant := false }
    if ok then
      let q := s.chartSeq + 1
      let s := { (s.emit (.chart (s.chartBase + 0x1000 * (1 + q % 2)) (s.chartOf q).layout)).emit (.chartSeq s.chartBase q) with chartSeq := q }
      (s.wr Reg.CHART_STAT_SEQ_LO q).releaseSlots
    else if ms then s.releaseSlots else s

def execChartWrite (s : State) : Host.Outcome State Fault Refusal := .next (chartWriteEff s)

end Sys2Proof.Machine
end

