-- ==== Sys2Proof/Machine/Power.lean ====
section
/-! DEFINITION. Power modes (R310–R312): requests, Slack and Underway, Moored entry and exit, wake. -/

namespace Sys2Proof.Machine

/-- PWR_REQ is written (R310); the row stands for the write from its posting stage to its effect (R62, log 97). -/
def pwrReqEff (src : Port) (mode : Nat) (s : State) : State :=
  s.access src 0x90000 true fun s => s.staged 0x90000 fun s => (s.wr Reg.PWR_REQ_MODE mode).pwrRequest (mode % 4)

def execPwrReq (src : Port) (mode : Nat) (s : State) : Host.Outcome State Fault Refusal := .next (pwrReqEff src mode s)

/-- An Ebb has met the change: it ends here, and MODE keeps the mode being left (R309). -/
def State.changeEnd (s : State) : State :=
  { s with pwr := { s.pwr with target := none, step := 0, coast := false, wakeBy := 0, ebb := false } }.wr Reg.PWR_STAT_CHANGING 0

/-- A request kept during a change is taken now that it has ended (R310). -/
def State.pwrKept (s : State) : State :=
  match s.pwr.kept with
  | none => s
  | some m => { s with pwr := { s.pwr with kept := none } }.pwrRequest m

/-- Mode `m` is declared (R310, R313). -/
def State.declare_ (s : State) (m : Nat) : State :=
  let old := s.rd Reg.PWR_STAT_MODE
  let us := (s.now - s.pwr.start) / 1000
  let data := m + 2 ^ 2 * old + 2 ^ 4 * s.pwr.wakeBy + 2 ^ 8 * (us % 2 ^ 24) + (if s.pwr.coast then 2 ^ 32 else 0)
  let s := ((s.wr Reg.PWR_STAT_MODE m).wr Reg.PWR_STAT_CHANGING 0).wr Reg.PWR_TIME_LAST_CHANGE_US us
  let s := { s with pwr := { s.pwr with target := none, step := 0, coast := false, wakeBy := 0 } }.powerRec 2 St.ok data
  if m = 0 then (List.range 6).foldl (fun s n => s.blTry n) s else s

/-! ### Slack and Underway -/

/-- The enabled scan PLLs. -/
def State.enPlls (s : State) : List Nat := (List.range 6).filter fun n => s.lon Reg.SPLL_CFG_EN n

/-- The polygon drive of station `n` is HELD or OFF (R310). -/
def State.polyRest (s : State) (n : Nat) : Bool :=
  let d := s.dst (s.lv Reg.STN_POLY_POLY_DRV n)
  d == Dst.off || d == Dst.held

/-- Drive a change between Underway and Slack on (R310): a held request is taken, PLLs park as their polygons rest; Slack is declared with
the last one parked, Underway once every enabled PLL is locked. -/
def slackDeclaredEff (s : State) : State :=
  let s := s.pwrTake
  if !s.on Reg.PWR_STAT_CHANGING then s
  else match s.pwr.target with
    | some 1 =>
      if s.pwr.step ≠ 0 then s
      else
        let s := s.enPlls.foldl (fun s n => if !s.on Reg.SPLL_STAT_PARKED n && s.polyRest n then s.spllPark n else s) s
        if s.enPlls.all fun n => s.on Reg.SPLL_STAT_PARKED n then (s.declare_ 1).pwrKept else s
    | some 0 =>
      if s.pwr.step ≠ 0 then s
      else if s.enPlls.all fun n => s.on Reg.SPLL_STAT_LOCKED n then (s.declare_ 0).pwrKept else s
    | _ => s

def execSlackDeclared (s : State) : Host.Outcome State Fault Refusal := .next (slackDeclaredEff s)

/-! ### Moored entry (R311) -/

/-- Step 1 has ended: every axis is IDLE and every drive HELD or OFF, or its 10 s have passed. -/
def State.allStopped (s : State) : Bool :=
  s.pwr.coast || ((List.range 32).all (fun m => s.mst m == Mst.idle && (s.mots m).reqs.isEmpty) &&
    (List.range 16).all fun n => s.dst n == Dst.off || s.dst n == Dst.held)

/-- Steps 2 and 3: channels off, Beam Link off, PLLs parked, emulation outputs low, Fenlink ports stopped. -/
def State.moorOff (s : State) : State :=
  let s := (List.range 32).foldl (fun s m => if s.mst m = Mst.idle then s else s.motIdle m (s.mots m).reason) s
  let s := (List.range 16).foldl (fun s n => if s.dst n = Dst.tripped then s else s.drvOff n) s
  let s := (List.range 16).foldl (fun s k => if s.rd Reg.STP_STAT_STATE k = 3 then s else s.stpOff k) s
  let s := (List.range 32).foldl (fun s h => s.hvOff h) s
  let s := (List.range 4).foldl (fun s k => s.htrOff k) s
  let s := (List.range 6).foldl (fun s n => if s.bst n = Bst.off then s else s.blOff n) s
  let s := s.enPlls.foldl (fun s n => if s.on Reg.SPLL_STAT_PARKED n then s else s.spllPark n) s
  let s := (List.range 8).foldl (fun s e => s.setEmu e { s.emus e with a := false, b := false, z := false }) s
  { s.flMoor with pwr := { s.pwr with step := 2 } }.drainAsk Xfer.onHold

/-- The rails of stage `k` that go off in Moored. -/
def State.moorRails (s : State) (k : Nat) : Nat :=
  (List.range 16).foldl (fun m n =>
    setBit m n (bitOf (s.railsAt Reg.RAIL_CFG_STAGE_OFF k) n && !s.on Reg.RAIL_CFG_KEEP_MOORED n && s.on Reg.RAIL_STAT_ON n)) 0

/-- Moored is declared (R311): a wake that arrived during entry takes effect, then a request that was kept. -/
def State.moorEnd (s : State) : State :=
  let s := { s with pwr := { s.pwr with link := (s.rd Reg.HOSTIF_LINK_RATE, s.rd Reg.HOSTIF_LINK_WIDTH) } }
  let s := if s.rd Reg.HOSTIF_LINK_RATE = 0 then s else s.linkChange 1 1 (s.rd Reg.HOSTIF_LINK_MPS)
  let s := s.declare_ 2
  match s.pwr.wake with
  | some (k, t) =>
    let kept := s.pwr.kept
    let s := s.wakeUp k t
    { s with pwr := { s.pwr with kept := kept } }
  | none => s.pwrKept

/-- Step 5: the next stage of rails in descending STAGE_OFF order; with none left, step 6. -/
def State.moorStage (s : State) : State :=
  match (List.range s.pwr.stage).reverse.find? fun k => s.moorRails k != 0 with
  | none => if s.pwr.ebb then s.changeEnd else s.moorEnd
  | some k =>
    let m := s.moorRails k
    { s.railsOff m with pwr := { s.pwr with stage := k, off := s.pwr.off ||| m } }

/-- Drive Moored entry on, as far as its present step lets it (R311). -/
def mooredEntryEff (s : State) : State :=
  let s := s.pwrTake
  if s.pwr.target ≠ some 2 then s
  else
    let s := if s.pwr.step = 1 ∧ s.allStopped then (if s.pwr.ebb then s.changeEnd else s.moorOff) else s
    let s := if s.pwr.step = 2 then
        let s := s.drainAsk Xfer.onHold
        if s.draining Xfer.onHold then s
        else if s.pwr.ebb then s.changeEnd
        else { s with pwr := { s.pwr with step := 3, stage := 64, off := 0 } }
      else s
    if s.pwr.step = 3 ∧ s.sequ.wait = 0 then s.moorStage else s

def execMooredEntry (s : State) : Host.Outcome State Fault Refusal := .next (mooredEntryEff s)

/-- Step 1 ends after 10 s with COAST (R311). -/
def mooredStopTimeoutEff (s : State) : State :=
  if s.pwr.target = some 2 ∧ s.pwr.step = 1 ∧ s.pwr.start + 10000000000 ≤ s.now then { s with pwr := { s.pwr with coast := true } } else s

def execMooredStopTimeout (s : State) : Host.Outcome State Fault Refusal := .next (mooredStopTimeoutEff s)

/-! ### Wake (R312) -/

/-- A wake source of kind 1 doorbell (of an enabled submission ring), 2 WAKE_N, low for `us` µs, 3 Fenlink, 4 host request. -/
def wakeEff (k us : Nat) (s : State) : State :=
  if k = 4 then (if s.rd Reg.PWR_REQ_MODE < 2 ∧ (s.rd Reg.PWR_STAT_MODE = 2 ∨ s.pwr.target = some 2) then s.pwrRequest (s.rd Reg.PWR_REQ_MODE) else s)
  else if k = 1 ∧ !((List.range 64).any fun n => s.on Reg.SQ_CTL_EN n) ∨ k = 2 ∧ us < 1000 then s
  else s.wakeAsk k

def execWake (by_ us : Nat) (s : State) : Host.Outcome State Fault Refusal := .next (wakeEff by_ us s)

/-! ### Moored exit (R311) -/

/-- Steps 2 and 3: the Hold is zero with valid check bits and its scrubber starts over; each loop, enabled or not, restarts as at enable. -/
def State.ungate (s : State) : State :=
  let s := { s with hold := [], flips := s.flips.filter (fun e => e.1 / 2 ^ 32 != 0), poison := s.poison.filter (fun e => e.1 / 2 ^ 32 != 0),
                    scrubPos := tput 0 s.scrubPos 0 0, scrubDue := tput 0 s.scrubDue 0 s.now, scrubAt := tput 0 s.scrubAt 0 s.now }
  (List.range 128).foldl (fun s l => s.loopEnable l) s

/-- Steps 4 to 6 (log 39), and the Hold and the capstans as steps 2 and 3 leave them: the link is back at what it was, Slack is declared, the watchdog counts again, entries passed are decided, waiting transfers run, and Underway
follows where it is the target. -/
def State.exitEnd (s : State) : State :=
  let t := s.pwr.target
  let r := s.pwr.link
  let s := s.ungate
  let s := if s.rd Reg.HOSTIF_LINK_RATE = 0 ∨ r.1 = 0 then s else s.linkChange r.1 r.2 (s.rd Reg.HOSTIF_LINK_MPS)
  let s := s.flResume.declare_ 1
  let s := { s with boot := { s.boot with wdAt := s.now } }.decideDue fun _ _ => true
  let s := (List.range 18).foldl (fun s i => s.xferGo (14 + i)) s
  if t = some 0 then
    let kept := s.pwr.kept
    let s := s.pwrBegin 0
    { s with pwr := { s.pwr with kept := kept } }
  else s.pwrKept

/-- The rails of `off` whose STAGE_ON is `k`. -/
def State.exitRails (s : State) (k : Nat) : Nat :=
  (List.range 16).foldl (fun m n => setBit m n (bitOf s.pwr.off n && s.rd Reg.RAIL_CFG_STAGE_ON n == k)) 0

/-- Drive the exit from Moored on: step 1 raises the rails in ascending STAGE_ON order, each stage with its dwell (R305, R311); the clocks take
0.1 ms and the Hold 3.15 ms. -/
def mooredExitEff (s : State) : State :=
  if s.pwr.step = 5 then (if s.now < s.pwr.readyAt then s else s.exitEnd)
  else if s.pwr.step ≠ 4 ∨ s.sequ.wait ≠ 0 ∨ s.sequ.dwellAt.isSome then s
  else match (List.range 64).find? fun k => s.exitRails k != 0 with
    | none => { s with pwr := { s.pwr with step := 5, readyAt := s.now + 3250000 } }
    | some k =>
      let m := s.exitRails k
      { s.railsOn m with pwr := { s.pwr with stage := k, off := (bitsOf m 16).foldl (fun o n => setBit o n false) s.pwr.off } }

def execMooredExit (s : State) : Host.Outcome State Fault Refusal := .next (mooredExitEff s)

end Sys2Proof.Machine
end

