-- ==== Sys2Proof/Machine/Service.lean ====
section
/-! DEFINITION. Live service: image staging, handover and flash (R359–R361), lay-up and re-admission (R362–R366), the log book
(R367–R370). Service descriptors wait while the ferryman does not run (R25). -/

namespace Sys2Proof.Machine

/-- Start the front descriptor of ring `n` where the ferryman runs. -/
def State.service (s : State) (n opc : Nat) (k : Job → State → State) : State := if s.boot.running then s.withDesc n opc k else s

/-! ### Images -/

/-- The idle bank's bytes, and their replacement (R359). -/
def State.idleBank (s : State) : List Byte := if s.on Reg.GEN_BOOT_STAT_BANK then s.boot.bank0 else s.boot.bank1
def State.setIdle (s : State) (bs : List Byte) : State :=
  { s with boot := if s.on Reg.GEN_BOOT_STAT_BANK then { s.boot with bank0 := bs } else { s.boot with bank1 := bs } }
/-- The active bank's bytes. -/
def State.activeBank (s : State) : List Byte := if s.on Reg.GEN_BOOT_STAT_BANK then s.boot.bank1 else s.boot.bank0
/-- The banks exchange roles; GEN_IMAGE shows the active image, and nothing is staged (R360, R361, log 42). -/
def State.swapBanks (s : State) : State :=
  let s := s.wr Reg.GEN_BOOT_STAT_BANK (1 - s.rd Reg.GEN_BOOT_STAT_BANK)
  ((s.wr Reg.GEN_IMAGE_VERSION (imgNat 0 s.activeBank 8 4)).wr Reg.GEN_BOOT_STAT_STAGED 0).wr Reg.GEN_IMAGE_STAGED_VERSION 0

/-- IMAGE_STAGE (R359), with what its read returned. The idle bank is overwritten whatever the outcome (log 42). -/
def imageStageEff (n : Nat) (data : ReadRes) (s0 : State) : State :=
  s0.service n 0xC0 fun j s =>
    let len := dget j.d 32 0 32
    if dget j.d 24 0 6 ≠ 0 ∨ 528704 < len ∨ dCrx j.d ≠ 0 ∨ !dZero j.d 16 24 ∨ !dZero j.d 36 64 then s.complete j St.badDesc
    else if s.boot.switch.isSome then s.complete j St.refusedState
    else
      let s := (s.wr Reg.GEN_BOOT_STAT_STAGED 0).wr Reg.GEN_IMAGE_STAGED_VERSION 0
      s.loadRead s0 13 j (dget j.d 24 0 64) len data (fun bs s =>
          let bs := bs.take len
          let r := s.verify bs true
          let s := s.setIdle bs
          if r = 0 then
            ((s.wr Reg.GEN_BOOT_STAT_STAGED 1).wr Reg.GEN_IMAGE_STAGED_VERSION (imgNat 0 bs 8 4)).loadDone 13 (some len) j St.ok
          else s.loadDone 13 (some len) j (if r = 5 ∨ r = 6 ∨ r = 7 ∨ r = 0x0B then St.locked else St.badDesc) r)
        fun s => s.setIdle []

def execImageStage (n : Nat) (data : ReadRes) (s : State) : Host.Outcome State Fault Refusal := .next (imageStageEff n data s)

/-- A TIMEOUT_MS field in ns; 0 means 10,000 ms. -/
def timeoutNs (ms : Nat) : Nat := 1000000 * (if ms = 0 then 10000 else ms)

/-- IMAGE_SWITCH (R360): pending until the handover's edge; refused while another is (log 161). -/
def imageSwitchEff (n : Nat) (s : State) : State :=
  s.service n 0xC1 fun j s =>
    if !dZero j.d 20 64 then s.complete j St.badDesc
    else if !s.on Reg.GEN_BOOT_STAT_STAGED ∨ s.boot.switch.isSome then s.complete j St.refusedState
    else { s with boot := { s.boot with switch := some (j, s.now + timeoutNs (dget j.d 16 0 32)) } }

def execImageSwitch (n : Nat) (s : State) : Host.Outcome State Fault Refusal := .next (imageSwitchEff n s)

/-- The handover (R360): no crossing boards, no lay-up is in progress, no identity page is being written. -/
def imageHandoverEff (s : State) : State :=
  match s.boot.switch with
  | none => s
  | some (j, _) =>
    if !s.boot.running ∨ s.liveCrx.any (fun c => c.state == 1) ∨ s.layups ≠ [] ∨ (List.range 6).any (fun n => (s.bls n).wear.isSome) then s
    else
      let s := s.swapBanks
      { s with boot := { s.boot with switch := none, running := false, armBy := some (s.now + 5000000), armJob := some j },
               lbDue := s.lbDue ++ [5] }

def execImageHandover (s : State) : Host.Outcome State Fault Refusal := .next (imageHandoverEff s)

/-- TIMEOUT_MS has passed before the handover (R360). -/
def imageSwitchTimeoutEff (s : State) : State :=
  match s.boot.switch with
  | none => s
  | some (j, t) => if s.now < t then s else { s with boot := { s.boot with switch := none } }.complete j St.timeout

def execImageSwitchTimeout (s : State) : Host.Outcome State Fault Refusal := .next (imageSwitchTimeoutEff s)

/-- The new image has not armed the watchdog within 5 ms (R361): the previous bank is active again, and the watchdog lapses. -/
def handoverArmTimeoutEff (s : State) : State :=
  match s.boot.armBy with
  | none => s
  | some t =>
    if s.now < t then s
    else
      let job := s.boot.armJob
      let s := { s.swapBanks with boot := { s.boot with armBy := none, armJob := none } }.ferryLapse
      match job with
      | some j => s.complete j St.timeout
      | none => s

def execHandoverArmTimeout (s : State) : Host.Outcome State Fault Refusal := .next (handoverArmTimeoutEff s)

/-- FLASH_WRITE (R361); `inTime`: erase, program and read-back finish within 20 s. -/
def flashWriteEff (n : Nat) (inTime : Bool) (s : State) : State :=
  s.service n 0xC2 fun j s =>
    let slot := dget j.d 16 0 1
    let put (bs : List Byte) (s : State) : State := if slot = 0 then { s with flash0 := bs } else { s with flash1 := bs }
    if dget j.d 16 1 7 ≠ 0 ∨ !dZero j.d 17 64 then s.complete j St.badDesc
    else if !s.on Reg.GEN_BOOT_STAT_STAGED ∨ s.verify (if slot = 0 then s.flash1 else s.flash0) false ≠ 0 then s.complete j St.refusedState
    else if inTime then (put s.idleBank s).complete j St.ok
    else (put (Config.flashTorn s.free) { s with free := s.free + 1 }).complete j St.timeout

def execFlashWrite (n : Nat) (inTime : Bool) (s : State) : Host.Outcome State Fault Refusal := .next (flashWriteEff n inTime s)

/-! ### Lay-up and re-admission (R362–R366) -/

/-- UNIT and NODE of a service descriptor lie in range (R362). -/
def unitOk (d : Desc) : Bool :=
  let u := dget d 16 0 8
  let a := dget d 17 0 8
  (decide (u < 118) && a == 0) || (decide (0xF0 ≤ u) && decide (u ≤ 0xF3) && a != 0)

/-- The unit's block belongs to the function that submitted the descriptor (R30, R362). -/
def State.unitOwned (s : State) (j : Job) (u : Nat) : Bool := s.ownBlk (if u < 118 then blockOfUnit u else 21) == j.pf

/-- A unit of another function: BAD_DESC, and PF_ACCESS with an offset that the manual does not state (R30, log 43). -/
def State.foreign (s : State) (j : Job) : State :=
  let (off, s) := s.takeFree (2 ^ 20)
  (s.raise Src.pfAccess Src.noUnit 0 off).complete j St.badDesc

/-- The unit or node is laid up; boomed. -/
def State.outOf (s : State) (u a : Nat) : Bool := if u < 118 then s.isLaid u else tget false s.nodeLaid ((u - 0xF0) * 256 + a)
def State.brokenOf (s : State) (u a : Nat) : Bool := if u < 118 then s.isBoomed u else s.on Reg.FL_NODE_BOOMED (u - 0xF0) a

/-- A lay-up or re-admission report (R366). -/
def State.layupReport (s : State) (u a kind : Nat) (force : Bool) : State :=
  s.produce (s.rd Reg.RING_EVT_ROUTE_UNIT) (mkRec 4 St.ok (u + 0x1300) 0 (a + 2 ^ 8 * kind + (if force then 2 ^ 12 else 0)))

/-- The unit cannot be laid up (R364); a unit that is boomed always can. An encoder port feeds a drive channel that is not in OFF or TRIPPED, a capstan's loops have no relief. -/
def State.layupRefused (s : State) (u : Nat) : Bool :=
  if s.isBoomed u then false
  else if 38 ≤ u ∧ u < 62 then
    (List.range 16).any fun n => s.lon Reg.DRV_CFG_EN n && s.lv Reg.DRV_CFG_ENC_PORT n == u - 38 && s.dst n != Dst.off && s.dst n != Dst.tripped
  else if 62 ≤ u ∧ u < 78 then !(s.loopsOf (u - 62)).isEmpty && (s.setLaid u true).reliefCap.isNone
  else false

/-- What a unit does at its lay-up (R364). -/
def State.layupUnit (s : State) (u a : Nat) : State :=
  if 0xF0 ≤ u then
    let p := u - 0xF0
    { s with nodeLaid := tput false s.nodeLaid (p * 256 + a) true }.flRetire p a |>.flClose p a (s.now + 1)
  else if u < 6 then
    let s := (s.setLaid u true).stnStop u 2
    let b := s.bls u
    let s := s.setBl u { b with wear := none, wearDue := b.wearDue || b.wear.isSome, charNext := none }
    let s := (s.setSpll u { s.splls u with acqAt := none, retryAt := none }).setCause Src.facetLoss u false
    if (s.stns u).expo.isSome && !s.isBoomed u then s else (if s.bst u = Bst.off then s else s.blOff u).lenUpdate u
  else if u < 22 then ((s.setLaid u true).motHalt (u - 6) 4).drvHalt (u - 6) true
  else if u < 38 then (s.setLaid u true).stpHalt (u - 22) 4
  else if u < 62 then s.setLaid u true
  else if u < 78 then
    let c := u - 62
    let s := s.setLaid u true
    match (if (s.loopsOf c).isEmpty then none else s.reliefCap) with
    | some r => s.migrateTo c r true false
    | none => s.capRefresh c
  else if u < 110 then (s.setLaid u true).hvLeave (u - 78)
  else if u < 114 then (s.setLaid u true).htrOff (u - 110)
  else ((s.flFinal (u - 114)).flRetireAll (u - 114)).setLaid u true

/-- The unit has come to rest (R364); a unit that is boomed is at rest at once. -/
def State.atRest (s : State) (u a : Nat) : Bool :=
  if s.brokenOf u a then true
  else if u < 6 then (s.stns u).expo.isNone
  else if u < 22 then s.dst (u - 6) == Dst.off
  else if u < 38 then s.rd Reg.STP_STAT_STATE (u - 22) == 0
  else if 78 ≤ u ∧ u < 110 then s.hst (u - 78) == Hst.off || (s.hvs (u - 78)).ref == 0
  else true

/-- Apply a lay-up (R364): refused, complete at once, or on its way to rest. -/
def State.layupApply (s : State) (l : Layup) : State :=
  let s := { s with layups := s.layups.filter fun x => x.job != l.job }
  if s.layupRefused l.unit then s.complete l.job St.refusedState
  else
    let s := s.layupUnit l.unit l.node
    if s.atRest l.unit l.node ∧ (6 ≤ l.unit ∨ s.bst l.unit = Bst.off) then
      (s.layupReport l.unit l.node 1 l.force).complete l.job St.ok
    else { s with layups := s.layups ++ [{ l with applied := true }] }

/-- UNIT_LAYUP (R362–R364). -/
def unitLayupEff (n : Nat) (s : State) : State :=
  s.service n 0xC4 fun j s =>
    let u := dget j.d 16 0 8
    let a := dget j.d 17 0 8
    let force := dget j.d 18 0 1 == 1
    let l : Layup := ⟨j, u, a, force, s.now + timeoutNs (dget j.d 20 0 32), false⟩
    if !unitOk j.d ∨ dget j.d 18 1 7 ≠ 0 ∨ !dZero j.d 19 20 ∨ !dZero j.d 24 64 then s.complete j St.badDesc
    else if !s.unitOwned j u then s.foreign j
    else if s.outOf u a then s.complete j St.ok
    else if force ∨ s.brokenOf u a then s.layupApply l
    else { s with layups := s.layups ++ [l] }

def execUnitLayup (n : Nat) (s : State) : Host.Outcome State Fault Refusal := .next (unitLayupEff n s)

/-- A live crossing uses the unit (R363); an open mark window keeps its node and port in use. -/
def State.unitUsed (s : State) (u a : Nat) : Bool :=
  s.liveCrx.any (fun c => c.uses.contains (u, a)) || s.marks.any fun w => match s.markNode w.sensor with
    | some (p, b) => (u == 114 + p && a == 0) || (u == 0xF0 + p && a == b)
    | none => false

/-- The `k`-th lay-up applies at the first edge at which no live crossing uses its unit (R363, R364). -/
def layupApplyEff (k : Nat) (s : State) : State :=
  match s.layups[k]? with
  | none => s
  | some l => if l.applied ∨ !s.boot.running ∨ s.unitUsed l.unit l.node then s else s.layupApply l

def execLayupApply (k : Nat) (s : State) : Host.Outcome State Fault Refusal := .next (layupApplyEff k s)

/-- The `k`-th lay-up's unit has come to rest (R364, R366). -/
def laidUpEff (k : Nat) (s : State) : State :=
  match s.layups[k]? with
  | none => s
  | some l =>
    if !l.applied ∨ !s.boot.running ∨ !s.atRest l.unit l.node then s
    else
      let s := { s with layups := s.layups.filter fun x => x.job != l.job }
      let s := if l.unit < 6 then (if s.bst l.unit = Bst.off then s else s.blOff l.unit).lenUpdate l.unit else s
      (s.layupReport l.unit l.node 1 l.force).complete l.job St.ok

def execLaidUp (k : Nat) (s : State) : Host.Outcome State Fault Refusal := .next (laidUpEff k s)

/-- The bound on a lay-up's wait has passed (R363). -/
def layupTimeoutEff (k : Nat) (s : State) : State :=
  match s.layups[k]? with
  | none => s
  | some l =>
    if l.applied ∨ s.now < l.deadline then s
    else { s with layups := s.layups.filter fun x => x.job != l.job }.complete l.job St.timeout

def execLayupTimeout (k : Nat) (s : State) : Host.Outcome State Fault Refusal := .next (layupTimeoutEff k s)

/-- The lowest live source charged to a unit or node (R335, R365). -/
def State.liveOf (s : State) (u a : Nat) : Option Nat :=
  if u < 118 then s.unitLive u
  else (s.causes.filter fun e => e.2 && e.1 / 256 % 256 == u && e.1 % 256 == a).head?.map fun e => e.1 / 65536

/-- The trips that a unit shares with the whole device last over its re-admission: the die trip and an open interlock (log 156). -/
def sharedTrips (t : Nat) : Nat := t &&& (2 ^ Src.dieTrip ||| 2 ^ Src.intlkOpen)

/-- A channel that its own sources tripped goes to OFF as it is re-admitted (R365). -/
def State.readmitTrips (s : State) (u : Nat) : State :=
  if 6 ≤ u ∧ u < 22 then
    let d := s.drvs (u - 6)
    if s.dst (u - 6) ≠ Dst.tripped then s
    else (s.setDrv (u - 6) { d with trips := sharedTrips d.trips }).wr Reg.DRV_STAT_STATE
      (if sharedTrips d.trips = 0 then Dst.off else Dst.tripped) (u - 6)
  else if 22 ≤ u ∧ u < 38 then
    let x := s.stps (u - 22)
    if s.rd Reg.STP_STAT_STATE (u - 22) ≠ 3 then s
    else (s.setStp (u - 22) { x with trips := sharedTrips x.trips }).wr Reg.STP_STAT_STATE (if sharedTrips x.trips = 0 then 0 else 3) (u - 22)
  else if 78 ≤ u ∧ u < 110 then
    let x := s.hvs (u - 78)
    if s.hst (u - 78) ≠ Hst.tripped ∨ sharedTrips x.trips ≠ 0 then s
    else (s.setHv (u - 78) { x with trips := 0 }).hvOff (u - 78)
  else s

/-- A unit returns to service (R365). -/
def State.readmit (s : State) (u a : Nat) : State :=
  if 0xF0 ≤ u then
    let p := u - 0xF0
    let s := { s with nodeLaid := tput false s.nodeLaid (p * 256 + a) false }
    let s := if s.on Reg.FL_NODE_BOOMED p a then
        (s.wr Reg.FL_NODE_BOOMED 0 p a).wr Reg.FL_STAT_BOOMED (s.rd Reg.FL_STAT_BOOMED p - 1) p else s
    s.setFnode p a { s.fnodes p a with admitAt := none }
  else
    let s := ((s.setLaid u false).setBoomed u false).readmitTrips u
    if u < 6 then
      let s := if s.lon Reg.SPLL_CFG_EN u && !s.on Reg.SPLL_STAT_LOCKED u && !s.on Reg.SPLL_STAT_PARKED u then s.acquire u else s
      (s.blTry u).lenUpdate u
    else if 22 ≤ u ∧ u < 38 then (if s.lon Reg.STP_CFG_EN (u - 22) then s.stpCommit (u - 22) else s)
    else if 62 ≤ u ∧ u < 78 then
      let c := u - 62
      let s := ((s.setCap c Cap.init).giveTally c).wr Reg.CAP_STAT_STATE Cst.off c
      (s.capRefresh c).capReport c 4 St.ok (s.rd Reg.CAP_TALLY_TALLY c)
    else if 78 ≤ u ∧ u < 110 then (if s.lon Reg.HV_CFG_EN (u - 78) then s.hvStart (u - 78) else s)
    else if 110 ≤ u ∧ u < 114 then (if s.lon Reg.HTR_CFG_EN (u - 110) then s.htrStart (u - 110) else s)
    else if 114 ≤ u then
      let p := u - 114
      let s := s.setFport p { s.fports p with due := [], roll := none, last := 0, roundAt := none }
      (s.flList p).foldl (fun s x => s.setFnode p x.1 { s.fnodes p x.1 with admitAt := none }) s
    else s

/-- UNIT_READMIT (R362, R365). -/
def unitReadmitEff (n : Nat) (s : State) : State :=
  s.service n 0xC5 fun j s =>
    let u := dget j.d 16 0 8
    let a := dget j.d 17 0 8
    if !unitOk j.d ∨ !dZero j.d 18 64 then s.complete j St.badDesc
    else if !s.unitOwned j u then s.foreign j
    else if !s.outOf u a then s.complete j St.refusedState
    else match s.liveOf u a with
      | some src => s.complete j St.refusedState src
      | none => ((s.readmit u a).layupReport u a 2 false).complete j St.ok

def execUnitReadmit (n : Nat) (s : State) : Host.Outcome State Fault Refusal := .next (unitReadmitEff n s)

/-! ### The log book (R367–R370) -/

/-- LOGBOOK_WRITE (R370), with what its read returned. -/
def logbookWriteEff (n : Nat) (data : ReadRes) (s0 : State) : State :=
  s0.service n 0xC8 fun j s =>
    let off := dget j.d 16 0 32
    let len := dget j.d 20 0 32
    if off % 8 ≠ 0 ∨ len % 8 ≠ 0 ∨ 65536 < len ∨ off < 0x10000 ∨ 0x80000 < off + len ∨ dget j.d 24 0 3 ≠ 0 ∨ dCrx j.d ≠ 0 ∨ !dZero j.d 32 64 then
      s.complete j St.badDesc
    else s.loadRead s0 13 j (dget j.d 24 0 64) len data fun bs s =>
      let ws := Machine.entries 8 (len / 8) bs
      let s := (ws.zip (List.range ws.length)).foldl (fun s x => s.lbWrite (off / 8 + x.2) x.1) s
      s.loadDone 13 (some len) j St.ok

def execLogbookWrite (n : Nat) (data : ReadRes) (s : State) : Host.Outcome State Fault Refusal := .next (logbookWriteEff n data s)

/-- The ferryman writes the crossing counter (R368): PENDING falls by what it wrote; event counters that are due go as well. -/
def crossingCounterWriteEff (s : State) : State :=
  if !s.boot.running then s
  else
    let p := s.rd Reg.GEN_LB_STAT_PENDING
    ((if p = 0 then s else s.lbAdd 0 64 p).wr Reg.GEN_LB_STAT_PENDING 0).lbFlush

def execCrossingCounterWrite (s : State) : Host.Outcome State Fault Refusal := .next (crossingCounterWriteEff s)

/-- SEQ of journal entry `i`; the entry is valid where that is one more than the SEQ of the entry before it, cyclically (R369). -/
def State.journalSeq (s : State) (i : Nat) : Nat := tget 0 s.logbook (128 + 4 * i) % 2 ^ 32
def State.journalValid (s : State) (i : Nat) : Bool := s.journalSeq i == (s.journalSeq ((i + 2015) % 2016) + 1) % 2 ^ 32
/-- The newest entry and its SEQ: the valid one that none valid follows, if any (R369, log 44). -/
def State.journalNewest (s : State) : Option (Nat × Nat) :=
  ((List.range 2016).find? fun i => s.journalValid i && !s.journalValid ((i + 1) % 2016)).map fun i => (i, s.journalSeq i)

/-- The ferryman writes a journal entry (R369): words 3, 2 and 1, then word 0. -/
def journalEntryWriteEff (kind data : Nat) (s : State) : State :=
  if !s.boot.running ∨ kind = 0 ∨ 6 < kind then s
  else
    let (i, q) := match s.journalNewest with
      | none => (0, 1)
      | some (i, q) => ((i + 1) % 2016, (q + 1) % 2 ^ 32)
    let w := 128 + 4 * i
    let d := data % 2 ^ 120
    let n := (s.lbCount 64 8).1 % 2 ^ 32
    ((((s.lbWrite (w + 3) (d / 2 ^ 56)).lbWrite (w + 2) (kind + 2 ^ 8 * (d % 2 ^ 56))).lbWrite (w + 1) s.stamp).lbWrite w
      (q + 2 ^ 32 * n)).lbFlush

def execJournalEntryWrite (kind data : Nat) (s : State) : Host.Outcome State Fault Refusal := .next (journalEntryWriteEff kind data s)

/-- A write of GEN_LB_ADDR is applied: the word is loaded (R370). -/
def State.lbLoad (s : State) (w : Nat) : State :=
  (s.wr Reg.GEN_LB_ADDR_WORD w).wr Reg.GEN_LB_DATA (tget 0 s.logbook (w % 65536))

/-- GEN_LB_ADDR is written; the row stands for the write from its posting stage to its effect (R62, R370, log 97). -/
def lbAddrWriteEff (src : Port) (w : Nat) (s : State) : State := s.access src 0x800 true fun s => s.staged 0 fun s => s.lbLoad w

def execLbAddrWrite (src : Port) (word : Nat) (s : State) : Host.Outcome State Fault Refusal := .next (lbAddrWriteEff src word s)

end Sys2Proof.Machine
end

