-- ==== Sys2Proof/Machine/Bar.lean ====
section
/-! DEFINITION. Register accesses (R29, R30, R59–R66, R75): what a write does to each field of its word by the field's access kind,
the posting stages, and the three BARs of a function. -/

namespace Sys2Proof.Machine

/-! ### Direct writes -/

/-- A field that its ring or chart ignores while it is enabled (R36, R46, R52). -/
def State.frozen (s : State) (h : Hit) : Bool :=
  let b := h.f.base
  (([0x4000, 0x4004, 0x4008, 0x401C].contains b) && s.on Reg.SQ_CTL_EN h.i) ||
    (([0x5000, 0x5004].contains b || (b == 0x5008 && h.f.lo == 0)) && s.on Reg.EQ_CTL_EN h.i) ||
    (([0x5800, 0x5804].contains b) && s.on Reg.CHART_CTL_EN)

/-- EN, PORT and INVERT of AX0–AX39 are RO (R79). -/
def fixedAxis (h : Hit) : Bool := h.f.base == Reg.AXIS_CFG_EN.base && decide (h.f.lo < 7) && decide (h.i < 40)

/-- A word written to a 64-bit register (R65): the low word is held, the high word makes the whole value take effect. -/
def State.write64 (s : State) (h : Hit) (v : Nat) : State :=
  let a := h.f.addr h.i h.j
  if h.hi then
    let lo := (tget none s.lowLatch a).getD (s.rd h.f h.i h.j % 2 ^ 32)
    { s with lowLatch := tput none s.lowLatch a none }.swCount h.f (lo + 2 ^ 32 * (v % 2 ^ 32)) h.i h.j
  else { s with lowLatch := tput none s.lowLatch a (some (v % 2 ^ 32)) }

/-- The base registers (R36, R46, R52), each a 64-bit register of two fields: the low field of a high one, and whether `f` is a low one. -/
def lowOf (f : Fld) : Option Fld :=
  if f.base = 0x4004 then some Reg.SQ_BASE_LO_BASE_LO else if f.base = 0x5004 then some Reg.EQ_BASE_LO_BASE_LO
  else if f.base = 0x5804 then some Reg.CHART_BASE_LO_BASE_LO else none
def lowBase (f : Fld) : Bool := f.base == 0x4000 || f.base == 0x5000 || f.base == 0x5800

/-- A word written to a base register (R65): the low word is held until the high word makes both take effect. -/
def State.writeBase (s : State) (h : Hit) (v : Nat) : State :=
  let a := h.f.addr h.i h.j
  match lowOf h.f with
  | none => { s with lowLatch := tput none s.lowLatch a (some (h.part v)) }
  | some f =>
    let s := s.swWr h.f (h.part v) h.i h.j
    match tget none s.lowLatch (a - 4) with
    | none => s
    | some lo => { s with lowLatch := tput none s.lowLatch (a - 4) none }.swWr f lo h.i h.j

/-- What a write of word value `v` does to a field that no command row of its own covers (R61, R66). -/
def State.writeField (s : State) (h : Hit) (v : Nat) : State :=
  match h.f.acc with
  | .rw =>
    if s.frozen h then s else if (lowOf h.f).isSome || lowBase h.f then s.writeBase h v else s.swWr h.f (h.part v) h.i h.j
  | .counter => if 32 < h.f.width then s.write64 h v else s.swCount h.f (h.part v) h.i h.j
  | .sticky => s.swClear h.f (h.part v) h.i h.j
  | .qs => if fixedAxis h then s else s.qset h.f (h.part v) h.i h.j
  | _ => s

/-- The one-bit command `f` is written 1. -/
def Hit.fires (h : Hit) (f : Fld) (v : Nat) : Bool := h.f.base == f.base && h.f.lo == f.lo && h.part v == 1
/-- The field is `f`. -/
def Hit.isFld (h : Hit) (f : Fld) : Bool := h.f.base == f.base && h.f.lo == f.lo

/-- What a write does to a field that has command rows of its own: those rows' effects. -/
def State.writeOwn (s : State) (src : Port) (h : Hit) (v : Nat) : State :=
  if h.isFld Reg.SQ_CTL_EN then (if h.part v = 1 then sqEnableEff src h.i s else sqDisableEff src h.i s)
  else if h.fires Reg.SQ_CTL_RESTART v then sqRestartEff src h.i s
  else if h.isFld Reg.EQ_CTL_EN then (if h.part v = 1 then eqEnableEff src h.i s else eqDisableEff src h.i s)
  else if h.isFld Reg.EQ_HEAD_HEAD then eqHeadWriteEff src h.i (h.part v) s
  else if h.isFld Reg.CHART_CTL_EN then (if h.part v = 1 then s.chartStart else s.wr Reg.CHART_CTL_EN 0)
  else if h.fires Reg.DIAG_ECC_INJ_ARM v then eccInjectArmEff src s
  else if h.fires Reg.DRV_CTL_START v then drvStartEff src h.i s
  else if h.fires Reg.DRV_CTL_STOP v then drvStopEff src h.i s
  else if h.fires Reg.DRV_CTL_FIND_ANGLE v then findAngleEff src h.i s
  else if h.fires Reg.EMU_STAT_RESYNC v then resyncEff src h.i s
  else if h.fires Reg.HV_CTL_REARM v then hvRearmEff src h.i s
  else if h.fires Reg.HTR_CTL_REARM v then htrRearmEff src h.i s
  else if h.fires Reg.SEQ_CTL_GO v then seqGoEff src s
  else if h.fires Reg.SEQ_CTL_DOWN v then seqDownEff src s
  else s

/-- Changing a history lane's selection or enable clears its samples (R80). -/
def State.laneHook (s old : State) (l : Nat) : State :=
  let i := l / 4
  let j := l % 4
  if s.rd Reg.AXIS_HIST_SEL_AXIS i j = old.rd Reg.AXIS_HIST_SEL_AXIS i j ∧ s.rd Reg.AXIS_HIST_SEL_EN i j = old.rd Reg.AXIS_HIST_SEL_EN i j then s
  else { s with hist := tput [] s.hist l [] }

/-- What follows from a word's new configuration: a scrubber that starts, an emulation output, history lanes; `old` is the state before. -/
def State.writeHook (s old : State) (off : Nat) : State :=
  if 0xF0100 ≤ off ∧ off < 0xF0150 then
    let k := (off - 0xF0100) / 16
    if s.on Reg.DIAG_ECC_SCRUB_SCRUB_EN k && !old.on Reg.DIAG_ECC_SCRUB_SCRUB_EN k then
      { s with scrubDue := tput 0 s.scrubDue k s.now, scrubAt := tput 0 s.scrubAt k s.now }
    else if s.rd Reg.DIAG_ECC_SCRUB_SCRUB_INTERVAL k ≠ old.rd Reg.DIAG_ECC_SCRUB_SCRUB_INTERVAL k then
      { s with scrubDue := tput 0 s.scrubDue k (tget 0 s.scrubAt k) }
    else s
  else if 0x61000 ≤ off ∧ off < 0x61100 ∧ off % 0x20 = 0 then s.emuCfg old ((off - 0x61000) / 0x20)
  else if 0x40000 ≤ off ∧ off < 0x46000 ∧ (off % 0x1000 = 0x24 ∨ off % 0x1000 = 0x28) then
    let n := (off - 0x40000) / 0x1000
    if s.failed n ≠ old.failed n then s.setBl n { s.bls n with wearDue := true } else s
  else if 0x48000 ≤ off ∧ off < 0x49000 ∧ off % 0x400 = 0x38C then
    let g := (off - 0x48000) / 0x400
    if old.on Reg.DRV_BUS_STAT_SENSE_FAIL g && !s.on Reg.DRV_BUS_STAT_SENSE_FAIL g then s.senseClear g else s
  else if 0x19000 ≤ off ∧ off < 0x19010 then (List.range 4).foldl (fun s k => s.laneHook old (off - 0x19000 + k)) s
  else s

/-! ### Posted writes (R62) -/

/-- A field whose writes are posted: the POST fields, and those that have a row of their own for the edge at which they apply. -/
def postedFld (f : Fld) : Bool :=
  match f.acc with
  | .post => true
  | .postSticky => true
  | .own => f.base == 0x88000 || f.base == 0x800 || f.base == 0x90000
  | _ => false

/-- A write to POST fields of the block at `base`: into the stage, or dropped where BUSY is 1 (R62). -/
def State.postWrite (s : State) (src : Port) (base off v : Nat) : State :=
  s.staged base fun s => { s with post := tput none s.post base (some ⟨off, v, false, src, 0⟩) }

/-- THM_SENS_CFG.ADC_IN of the die and fuser sensors is RO (R61 and the THERM table). -/
def fixedSensor (h : Hit) : Bool := h.f.base == Reg.THM_SENS_CFG_ADC_IN.base && h.f.lo == Reg.THM_SENS_CFG_ADC_IN.lo && (decide (h.i < 8) || decide (40 ≤ h.i))

/-- The value `v` of a posted word reaches a field. -/
def State.applyPost (s : State) (h : Hit) (v : Nat) : State :=
  match h.f.acc with
  | .post => if fixedSensor h then s else s.swWr h.f (h.part v) h.i h.j
  | .postSticky => s.swClear h.f (h.part v) h.i h.j
  | _ => s

/-- A fault input pair that is no longer used is in neither condition (R336). -/
def State.pairsOff (s old : State) : State :=
  (List.range 8).foldl (fun s i =>
    if bitOf (old.rd Reg.FLT_EXT_CFG_PAIR_EN) i && !bitOf (s.rd Reg.FLT_EXT_CFG_PAIR_EN) i then s.setPair i false false else s) s

/-- A block all of whose writes are posted, whatever their access kind (R298): THERM, SEQ, PWRMODE. -/
def allPosted (base : Nat) : Bool := base == 0x78000 || base == 0x7C000 || base == 0x90000

/-- The posted word `w` is applied to its block. -/
def State.applyPosted (s : State) (w : Posted) : State :=
  let old := s
  let hs := hitsAt w.off
  let s := hs.foldl (fun s h => s.applyPost h w.val) s
  let s := if (postBase w.off).any allPosted then
      hs.foldl (fun s h => s.writeOwn w.src h w.val) (hs.foldl (fun s h => s.writeField h w.val) s)
    else s
  if w.off = 0x800 then s.lbLoad (w.val % 2 ^ 16)
  else if w.off = 0x90000 then (s.wr Reg.PWR_REQ_MODE w.val).pwrRequest (w.val % 4)
  else if w.off = 0x88000 then s.latchWrite (2 ^ 32 - 1 - w.val % 2 ^ 32)
  else if w.off = 0x88004 then s.latchWrite (2 ^ 32 * (2 ^ 32 - 1 - w.val % 2 ^ 32))
  else if w.off = 0x88060 then s.pairsOff old
  else if 0x78300 ≤ w.off ∧ w.off < 0x78400 then s.curveShow
  else if 0x78000 ≤ w.off ∧ w.off < 0x78300 ∧ w.off % 16 = 0 ∧ !s.on Reg.THM_SENS_CFG_EN ((w.off - 0x78000) / 16) then
    s.sensorTake ((w.off - 0x78000) / 16) none
  else s

/-- The posting stage of a block, by its base, applies the write it holds (R62). -/
def postWriteApplyEff (block : Nat) (s : State) : State :=
  match tget none s.post block with
  | none => s
  | some w => { s with post := tput none s.post block none }.applyPosted w

def execPostWriteApply (block : Nat) (s : State) : Host.Outcome State Fault Refusal := .next (postWriteApplyEff block s)

/-! ### Words -/

/-- The number of a source in GEN_LOCK_VIOL.SRC (R75). -/
def lockSrc : Port → Nat
  | .pf0 => 0
  | .pf1 => 1
  | .ferryman => 3

/-- A write of the word at `off` that ownership and power mode let through. -/
def State.writeWord (s : State) (src : Port) (off v : Nat) : State :=
  let hs := hitsAt off
  if protWord off then
    (if src = .ferryman ∧ !s.on Reg.GEN_GANGWAY_CLOSED then s.protWrite off v else s.lockViol off (lockSrc src))
  else if wlWord off then (if s.wlDone.contains off then s.lockViol off (lockSrc src) else s.protWrite off v)
  else if off = 0x10 then (if src = .ferryman ∧ v % 2 = 0 then s else gangwayCloseEff src s)
  else
    let old := s
    let b := (postBase off).getD 0
    if (postBase off).any allPosted then (if hs.isEmpty then s else s.postWrite src b off v)
    else
      let s := hs.foldl (fun s h => s.writeField h v) s
      let s := hs.foldl (fun s h => s.writeOwn src h v) s
      let s := s.writeHook old off
      if (postBase off).isSome && hs.any fun h => postedFld h.f then s.postWrite src b off v else s

/-! ### BARs -/

/-- A write through BAR0 (R29, R30): the lower word first. -/
def State.bar0Write (s : State) (src : Port) (off size v : Nat) : State :=
  if (size ≠ 4 ∧ size ≠ 8) ∨ off % size ≠ 0 ∨ 0x100000 ≤ off then s.emit .writeUr
  else s.access src off true fun s =>
    let s := s.writeWord src off (v % 2 ^ 32)
    if size = 8 then s.writeWord src (off + 4) (v / 2 ^ 32 % 2 ^ 32) else s

/-- The number of bytes of a function's MSI-X table (R28). -/
def msixBytes (p : Nat) : Nat := 16 * vecCount p

/-- A word of BAR4 (R28): the table, of whose Vector Control words only the mask bit is kept, and the pending bits. -/
def State.bar4Word (s : State) (p off : Nat) : Nat :=
  if off < msixBytes p then tget (if off % 16 = 12 then 1 else 0) s.msixTab (p * 16384 + off)
  else if 0x2000 ≤ off ∧ off < 0x2000 + vecCount p / 8 then (s.pf p).pba / 2 ^ (8 * (off - 0x2000)) % 2 ^ 32
  else 0

/-- A word written to BAR4; a vector that is unmasked sends its pending message (R31). -/
def State.bar4Write (s : State) (p off v : Nat) : State :=
  if msixBytes p ≤ off then s
  else if off % 16 = 12 then
    { s with msixTab := tput 1 s.msixTab (p * 16384 + off) (v % 2) }.sendPending p (off / 16)
  else { s with msixTab := tput 0 s.msixTab (p * 16384 + off) (v % 2 ^ 32) }

/-- An access through BAR4: aligned 4-byte and 8-byte accesses. -/
def State.bar4 (s : State) (p : Nat) (write : Bool) (off size v : Nat) : State :=
  if (size ≠ 4 ∧ size ≠ 8) ∨ off % size ≠ 0 ∨ 0x4000 ≤ off then s.emit (if write then .writeUr else .readDone none)
  else if write then
    let s := s.bar4Write p off (v % 2 ^ 32)
    if size = 8 then s.bar4Write p (off + 4) (v / 2 ^ 32 % 2 ^ 32) else s
  else s.emit (.readDone (some (s.bar4Word p off + (if size = 8 then 2 ^ 32 * s.bar4Word p (off + 4) else 0))))

/-! ### Configuration space (R27, R28)

The manual gives what the configuration space holds; where each word stands is the PCI Express Base Specification's layout, and the
places of the capabilities are the model's (log 98). -/

/-- The fixed and live bits of the word at `off`, and the bits that software may write; the rest are zero. -/
def State.cfgFixed (s : State) (p off : Nat) : Nat :=
  let f := s.pf p
  match off with
  | 0x00 => 0x1FE7 + 2 ^ 16 * 0x6240
  | 0x04 => (if f.bme then 4 else 0) + 2 ^ 20
  | 0x08 => 2 ^ 8 * 0x118000
  | 0x10 => 4
  | 0x18 => 4
  | 0x20 => 4
  | 0x34 => 0x40
  | 0x40 => 0x10 + 2 ^ 8 * 0xB0 + 2 ^ 16 * 2
  | 0x44 => 2 + 2 ^ 15 + 2 ^ 28
  | 0x48 => 2 ^ 5 * s.rd Reg.HOSTIF_LINK_MPS
  | 0x4C => 5 + 2 ^ 4 * 4 + 2 ^ 11
  | 0x50 => 2 ^ 16 * (s.rd Reg.HOSTIF_LINK_RATE + 2 ^ 4 * s.rd Reg.HOSTIF_LINK_WIDTH)
  | 0x64 => 2 ^ 17
  | 0xB0 => 0x11 + 2 ^ 16 * (vecCount p - 1) + (if f.msixEn then 2 ^ 31 else 0)
  | 0xB4 => 4
  | 0xB8 => 0x2000 + 4
  | 0x100 => 1 + 2 ^ 16 * 2
  | 0x118 => 2 ^ 5 + 2 ^ 7
  | _ => 0

/-- The bits that software writes and reads back: memory space enable, the BARs (1 MiB, 256 KiB, 16 KiB), Max Read Request Size, ASPM,
10-bit tags, the AER masks and ECRC enables. -/
def cfgMask (off : Nat) : Nat :=
  match off with
  | 0x04 => 2
  | 0x10 => 0xFFF00000
  | 0x14 => 0xFFFFFFFF
  | 0x18 => 0xFFFC0000
  | 0x1C => 0xFFFFFFFF
  | 0x20 => 0xFFFFC000
  | 0x24 => 0xFFFFFFFF
  | 0x48 => 0x7000
  | 0x50 => 2
  | 0x68 => 0x1000
  | 0x108 => 0xFFFFFFFF
  | 0x10C => 0xFFFFFFFF
  | 0x114 => 0xFFFFFFFF
  | 0x118 => 0x140
  | _ => 0

/-- The word at `off` of function `p`'s configuration space. -/
def State.cfgWord (s : State) (p off : Nat) : Nat := s.cfgFixed p off ||| s.cfgRaw p off

/-- A write of `v` to the word at `off`: its writable bits, and what Bus Master Enable (R391), Max Payload Size (R33), the function-level
reset (R56, R57) and MSI-X Enable (R31) bring with them. -/
def State.cfgWrite (s : State) (p off v : Nat) : State :=
  let s := { s with cfg := tput (cfgReset off) s.cfg (p * 4096 + off) (v &&& cfgMask off) }
  match off with
  | 0x04 => busMasterEnableWriteEff p (bitOf v 2) (s.pf p).msixEn s
  | 0xB0 => busMasterEnableWriteEff p (s.pf p).bme (bitOf v 31) s
  | 0x48 =>
    let s := if p = 0 ∧ field v 5 3 < 3 ∧ s.rd Reg.HOSTIF_LINK_RATE ≠ 0 then
        s.linkChange (s.rd Reg.HOSTIF_LINK_RATE) (s.rd Reg.HOSTIF_LINK_WIDTH) (field v 5 3)
      else s
    if bitOf v 15 then (if p = 0 then flrRequestEff s else flrPf1Eff s) else s
  | _ => s

/-- An access to the configuration space: aligned words. -/
def State.cfgAccess (s : State) (p : Nat) (write : Bool) (off size v : Nat) : State :=
  if size ≠ 4 ∨ off % 4 ≠ 0 ∨ 4096 ≤ off then s.emit (if write then .writeUr else .readDone none)
  else if write then s.cfgWrite p off (v % 2 ^ 32)
  else s.emit (.readDone (some (s.cfgWord p off)))

/-- A read of BAR2 returns zero (R29); at a ring that the function does not own it is refused (R30). -/
def State.bar2Read (s : State) (p off : Nat) : State :=
  let n := off / 0x1000
  (if n < 64 ∧ s.ownSq n ≠ p then s.pfViol off 1 p false else s).emit (.readDone (some 0))

/-- A register access: of BAR0, through a function or the ferryman's register port, of BAR2 or BAR4 of a function, or, as BAR 8, of
its configuration space (log 98). -/
def registerWriteEff (src : Port) (bar : Nat) (write : Bool) (off size val : Nat) (s : State) : State :=
  if s.boot.rstLow then s
  else if bar = 0 then
    (if write then s.bar0Write src off size val
     else
      let (v, s) := s.barRead src off size
      s.emit (.readDone v))
  else match portPf src with
    | none => s
    | some p =>
      if bar = 2 then (if write then doorbellEff src off size val s else s.bar2Read p off)
      else if bar = 4 then s.bar4 p write off size val
      else if bar = 8 then s.cfgAccess p write off size val
      else s

def execRegisterWrite (src : Port) (bar : Nat) (write : Bool) (off size val : Nat) (s : State) : Host.Outcome State Fault Refusal :=
  .next (registerWriteEff src bar write off size val s)

end Sys2Proof.Machine
end

