-- ==== Sys2Proof/Machine/MotionGrid.lean ====
section
/-! DEFINITION. The sample of a motion axis (R226, R238): a stop, limits, commands of tide actions and of descriptors, boundaries; and
the edges of a home switch (R235). -/

namespace Sys2Proof.Machine

/-- A motion command is not performed: its completion or its tide record carries `status` (R230, R237). -/
def State.motRefuse (s : State) (src : MotSrc) (status : Nat) : State :=
  match src with
  | .desc j => s.complete j status
  | .tide d => s.actRefuse d status

/-- Axis `m` takes a command at its sample (R230, R236). -/
def State.motTake (s : State) (m : Nat) (q : MotSrc × MotCmd) : State :=
  match s.cmdRefusal m q.2 with
  | some r => s.motRefuse q.1 r
  | none =>
    let (j, s) : Option Job × State := match q.1 with
      | .desc j => (some j, s)
      | .tide d => (none, s.actDone d)
    match q.2 with
    | .profile first => s.profileStart m first j
    | .move target vmax accel => s.moveStart m target vmax accel j
    | .home h => s.homeStart m h j

/-- A command comes from a tide action. -/
def MotSrc.isTide : MotSrc → Bool
  | .tide _ => true
  | .desc _ => false

/-- Axis `m` takes what has reached it since its last sample (R238): a stop, after which every command of the sample is refused; limits;
then the commands, those of tide actions first. -/
def State.motArrivals (s : State) (m : Nat) : State :=
  let x := s.mots m
  let s := s.setMot m { x with stop := none, reqs := [] }
  match x.stop with
  | some r => x.reqs.foldl (fun s q => s.motRefuse q.1 St.refusedState) ((s.motStopping m r).motLimit m)
  | none => ((x.reqs.filter fun q => q.1.isTide) ++ x.reqs.filter fun q => !q.1.isTide).foldl (fun s q => s.motTake m q) (s.motLimit m)

/-- One sample edge of motion axis `m` (R226, R238): at a whole multiple of 6,250 ns, once; the engine does not run in Moored (R311). -/
def motionSampleEff (m : Nat) (s : State) : State :=
  let k := s.now / 6250
  if 32 ≤ m ∨ s.now % 6250 ≠ 0 ∨ k < (s.mots m).lastK ∨ s.rd Reg.PWR_STAT_MODE = 2 then s
  else
    let s := (s.setMot m { s.mots m with lastK := k + 1 }).motAdvance m
    let s := (((s.motArrivals m).tideSettle).motBounds m).motShow m
    if m < 16 then s
    else
      let k := m - 16
      let s := if (s.stps k).offAfter && s.mst m == Mst.idle then s.stpOff k else s
      ((s.stpSample k).coilSample k false).coilSample k true

def execMotionSample (m : Nat) (s : State) : Host.Outcome State Fault Refusal := .next (motionSampleEff m s)

/-- The home edge of a stepper axis (R235): AXm is re-zeroed so that its position becomes HOME_POS, as REZERO acts (R84); p moves with it. -/
def State.homeRezero (s : State) (m pos : Nat) : State :=
  let off := posDist pos (s.rd Reg.AXIS_POS m)
  let x := s.mots m
  let sh (p : Nat) : Nat := (p + off * 65536) % p56
  let s := (s.setMot m { x with p := sh x.p, p0 := sh x.p0 }).wr Reg.MOT_POS (sh x.p / 65536) m
  (List.range 128).foldl (fun s l => if s.lon Reg.LOOP_CFG_EN l then s.loopWrite l [.rezero m off] else s) (s.axisSet m pos)

/-- An edge of the home switch of axis `m` (R235): the SENSE edge latches p1 in the seek; in the approach, after CHATTER counts of travel,
the opposite edge latches p2. A homing that waits for its sample takes the new level. -/
def homeEdgeEff (m : Nat) (rising : Bool) (s : State) : State :=
  let x := s.mots m
  let seen : MotSrc × MotCmd → MotSrc × MotCmd := fun q => match q.2 with
    | .home h => (q.1, .home { h with level := rising })
    | _ => q
  let x := { x with reqs := x.reqs.map seen }
  match x.home with
  | none => s.setMot m x
  | some h =>
    let pos := s.rd Reg.AXIS_SCHED m
    let h := { h with level := rising }
    if s.mst m = Mst.homeSeek ∧ rising = !h.sense ∧ h.p1.isNone then s.setMot m { x with home := some { h with p1 := some pos } }
    else if s.mst m = Mst.homeApproach ∧ rising = h.sense ∧ h.p2.isNone ∧ h.chatter * 65536 < h.travel then
      let s := s.setMot m { x with home := some { h with p2 := some pos } }
      if m < 16 then s else s.homeRezero m h.homePos
    else s.setMot m { x with home := some h }

def execHomeEdge (m : Nat) (rising : Bool) (s : State) : Host.Outcome State Fault Refusal := .next (homeEdgeEff m rising s)

end Sys2Proof.Machine
end

