-- ==== Sys2Proof/Machine/Checks.lean ====
section
/-! DEFINITION. The consistency rules of the units' chapters that commits are checked against (R72, R79, R138, R162, R179, R205, R225,
R239, R246, R261, R285, R291, R297, R327, R341). Each takes the state `t` that the commit would produce and the state `s` before it. -/

namespace Sys2Proof.Machine

/-- A check: its code, whether it is a live-crossing rule (R72), whether it fails. -/
structure Chk where
  code : Nat
  live : Bool
  fails : Bool

/-- A field of a unit changes. -/
def chg (t s : State) (f : Fld) (i : Nat) (j : Nat := 0) : Bool := t.lv f i j != s.lv f i j
/-- Some of the fields change. -/
def chgAny (t s : State) (fs : List Fld) (i : Nat) : Bool := fs.any fun f => chg t s f i
/-- Some of the `n` instances of a field of a unit change. -/
def chgArr (t s : State) (f : Fld) (n i : Nat) : Bool := (List.range n).any fun j => chg t s f i j
/-- `v` lies outside lo to hi. -/
def outside (lo hi v : Nat) : Bool := decide (v < lo) || decide (hi < v)

/-- A crossing names station `n` and is boarded or cast off; with `boarding`, or boarding. -/
def State.stnNamed (s : State) (n : Nat) (boarding : Bool) : Bool :=
  s.crossings.any fun c => decide (c.state ≤ 3) && (boarding || decide (2 ≤ c.state)) && bitOf c.stations n
/-- A boarded or cast-off crossing holds an entry that `p` holds of. -/
def State.castEntry (s : State) (p : TEntry → Bool) : Bool :=
  s.entries.any fun x => p x.2 && (s.crossings.any fun c => c.crx == x.2.crx && (c.state == 2 || c.state == 3))

/-! ### Stations -/

/-- The process resolution of a station in lines/in. -/
def State.lpi (s : State) (n : Nat) : Nat := lpiOf (s.lv Reg.STN_SCAN_CFG_LPI n)
def spllOn (t : State) (n : Nat) : Bool := t.lon Reg.SPLL_CFG_EN n
/-- Row-map emitters of the rows that a station writes. -/
def State.rowMap (s : State) (n : Nat) : List Nat := (List.range (min 32 (s.rows n))).map (s.rowEmitter n)

/-- R138. -/
def scanChecks (t s : State) (n : Nat) : List Chk :=
  let c := t.stnOn n
  let rows := t.rows n
  let pitch := t.lv Reg.STN_SCAN_CFG_PITCH n
  let ax := t.lv Reg.STN_POLY_DRUM_AXIS n
  [⟨0x01, false, c && (t.lv Reg.STN_SCAN_CFG_LPI n == 3 || outside 1 32 rows || pitch == 0 || outside 4 12 (t.lv Reg.STN_SCAN_CFG_FACETS n))⟩,
   ⟨0x02, false, c && Nat.gcd rows pitch != 1⟩,
   ⟨0x03, false, c && decide (t.lv Reg.STN_LEAD_LINE_LEAD n < (pitch + 1) * rows)⟩,
   ⟨0x04, false, c && (((t.rowMap n).any fun e => decide (39 < e)) || hasDup (t.rowMap n))⟩,
   ⟨0x05, false, c && (!t.axisEn ax || (decide (16 ≤ ax) && decide (ax ≤ 39)) || t.lineRatio n == 0)⟩,
   ⟨0x06, true, c && s.stnNamed n false && (chgAny t s [Reg.STN_SCAN_CFG_LPI, Reg.STN_SCAN_CFG_ROWS, Reg.STN_SCAN_CFG_PITCH,
      Reg.STN_SCAN_CFG_FACETS, Reg.STN_POLY_DIR, Reg.STN_POLY_MIRROR, Reg.STN_POLY_PAIR_SHARE, Reg.STN_POLY_POLY_DRV,
      Reg.STN_POLY_DRUM_AXIS, Reg.STN_LINE_RATIO_LO_RATIO_LO, Reg.STN_LINE_RATIO_HI_RATIO_HI, Reg.STN_SOS_DELAY_SOS_DELAY,
      Reg.STN_LEAD_LINE_LEAD] n || chgArr t s Reg.STN_ROW_MAP_EMITTER 32 n)⟩,
   ⟨0x07, false, c && decide (94488 < t.lv Reg.STN_NOM_SPEED_NOM_SPEED n * t.lpi n / 25400)⟩]

/-- R162, with the 6.3 GHz limit of A1. -/
def spllChecks (t s : State) (n : Nat) : List Chk :=
  let on := spllOn t n
  let N := t.lv Reg.SPLL_CFG_N_NOM n
  let P := 16 * 2 ^ t.lv Reg.SPLL_CFG_POST n
  let span := min 5 (t.lv Reg.SPLL_CFG_N_SPAN n)
  let b := t.lv Reg.SPLL_SD_RAMP_BANK n
  let inc : Int := t.lv Reg.SPLL_BASE_INC_BASE_INC n
  let lo := t.rdI Reg.SPLL_RAMP_MIN_RAMP_MIN n b
  let hi := t.rdI Reg.SPLL_RAMP_MAX_RAMP_MAX n b
  [⟨0x10, false, on && (outside 128 256 N || decide (N < P) || decide (8 * P < N))⟩,
   ⟨0x11, false, on && (decide (25 * N < 3200 + 25 * span) || decide (6300 < 25 * (N + span)))⟩,
   ⟨0x12, false, on && !t.on (if b = 0 then Reg.SPLL_STAT_RAMP0_VALID else Reg.SPLL_STAT_RAMP1_VALID) n⟩,
   ⟨0x13, false, on && (decide (100 * (inc + lo) < 6208 * 16777216) || decide (6592 * 16777216 < 100 * (inc + hi)) ||
      decide (256 * 16777216 < 100 * (hi - lo)))⟩,
   ⟨0x14, false, on && decide (t.lv Reg.SPLL_TARGET_TARGET_DUR n < 64)⟩,
   ⟨0x15, true, on && s.stnNamed n false && chgAny t s [Reg.SPLL_CFG_EN, Reg.SPLL_CFG_N_NOM, Reg.SPLL_CFG_POST, Reg.SPLL_CFG_N_SPAN,
      Reg.SPLL_BASE_INC_BASE_INC, Reg.SPLL_TARGET_TARGET_DUR, Reg.SPLL_SD_RAMP_BANK, Reg.SPLL_SD_SEED, Reg.SPLL_SD_SD_ORDER,
      Reg.SPLL_SD_DITHER, Reg.SPLL_FILT_ICP, Reg.SPLL_FILT_RSEL, Reg.SPLL_FILT_C1SEL, Reg.SPLL_FILT_C2SEL, Reg.SPLL_FILT_EXT_FILT] n⟩]

/-- SOS_DELAY + O_e of an emitter, in ticks (R177). -/
def State.emitterStart (s : State) (n e : Nat) : Int := s.lv Reg.STN_SOS_DELAY_SOS_DELAY n + s.beamOfs n e

/-- R179, single-station codes. -/
def holdChecks (t s : State) (n : Nat) : List Chk :=
  let base := t.lv Reg.STN_HOLD_CFG_HOLD_BASE n
  let dur : Int := t.lv Reg.SPLL_TARGET_TARGET_DUR n
  let st : Int := t.lv Reg.STN_STAGGER_STEP n
  [⟨0x20, false, decide (768 < base + t.lv Reg.STN_HOLD_CFG_HOLD_SIZE n) || decide (767 < base)⟩,
   ⟨0x22, true, s.stnNamed n true && chgAny t s [Reg.STN_HOLD_CFG_HOLD_BASE, Reg.STN_HOLD_CFG_HOLD_SIZE] n⟩,
   ⟨0x23, true, s.stnNamed n true && (chg t s Reg.STN_STAGGER_STEP n || chgArr t s Reg.STN_BEAM_OFS_TICKS 40 n ||
      chgArr t s Reg.STN_BEAM_OFS_PIXELS 40 n)⟩,
   ⟨0x24, false, spllOn t n && (List.range 40).any fun e =>
      decide (t.emitterStart n e < 0) || decide (dur < t.emitterStart n e + 3 * st + 64 * 31200)⟩]

/-- R205. -/
def linkChecks (t s : State) (n : Nat) : List Chk :=
  let port := t.lv Reg.BL_CFG_PORT n
  let lanes := t.lv Reg.BL_CFG_LANES n
  let db := t.lv Reg.BL_CFG_DBEAMS n
  let beams := 2 ^ db
  let rows := t.rows n
  let b := t.bls n
  [⟨0x30, false, port == 3 || lanes == 3 || (db == 3 && port == 2)⟩,
   ⟨0x31, false, port == 1 && decide (2 ^ lanes * (16 * (t.lv Reg.BL_CFG_RATE n + 1)) * (64 * 10000 * 64) * (16 * 2 ^ t.lv Reg.SPLL_CFG_POST n) <
      66 * 105 * 6592 * rows * (t.lv Reg.SPLL_CFG_N_NOM n + min 5 (t.lv Reg.SPLL_CFG_N_SPAN n)))⟩,
   ⟨0x32, false, port == 2 && (decide (beams < rows) || (t.rowMap n).any fun e => decide (beams ≤ e))⟩,
   ⟨0x33, false, port == 1 && (List.range 40).any fun e => decide (t.emitterStart n e < 4096)⟩,
   ⟨0x34, true, s.stnNamed n false && (chgAny t s [Reg.BL_CFG_PORT, Reg.BL_CFG_LANES, Reg.BL_CFG_RATE, Reg.BL_CFG_DBEAMS,
      Reg.BL_HEAD_EXP_LO_UNIT_ID_LO, Reg.BL_HEAD_EXP_HI_UNIT_ID_HI, Reg.BL_HEAD_EXP_HI_RANK, Reg.BL_HEAD_EXP_HI_EMITTERS,
      Reg.BL_HEAD_EXP_CRC_CAL_CRC, Reg.BL_RELIEF_POOL_LO_POOL_LO, Reg.BL_RELIEF_POOL_HI_POOL_HI, Reg.BL_CHAR_CFG_VF_TOL,
      Reg.BL_CHAR_CFG_SLOPE_MIN] n || [Reg.BL_AMP_CLASS0, Reg.BL_AMP_CLASS1, Reg.BL_AMP_CLASS2, Reg.BL_AMP_CLASS3].any fun f =>
        chgArr t s f 40 n)⟩,
   ⟨0x35, false, s.on Reg.BL_STAT_ID_AGREE n && (((List.range 32).any fun r =>
      chg t s Reg.STN_ROW_MAP_EMITTER n r && bitOf (s.failed n) (t.rowEmitter n r)) ||
      (port == 1 && (List.range (min 32 rows)).any fun r => b.site (t.rowEmitter n r) != b.site (t.rowEmitter n 0) + r))⟩]

/-- Checks 0x09 and 0x0A of R138 and 0x21 of R179, for the named stations. -/
def stnCross (t : State) (ns : List Nat) : List Chk :=
  let differ (a b : Nat) : Bool :=
    let d (f : Fld) : Bool := t.lv f a != t.lv f b
    d Reg.STN_POLY_PAIR_SHARE || d Reg.STN_POLY_POLY_DRV || d Reg.STN_SCAN_CFG_LPI || d Reg.STN_SCAN_CFG_ROWS || d Reg.STN_SCAN_CFG_PITCH ||
      d Reg.STN_SCAN_CFG_FACETS || t.lineRatio a != t.lineRatio b || d Reg.STN_NOM_SPEED_NOM_SPEED || !d Reg.STN_POLY_DIR
  let pairBad (n : Nat) : Bool :=
    let a := n / 2 * 2
    (t.stnOn a || t.stnOn (a + 1)) && (t.lon Reg.STN_POLY_PAIR_SHARE a || t.lon Reg.STN_POLY_PAIR_SHARE (a + 1)) && differ a (a + 1)
  let geared (n : Nat) : Bool :=
    let want : Int := 960 * (t.lv Reg.STN_NOM_SPEED_NOM_SPEED n * t.lpi n)
    let have_ : Int := t.lvI Reg.DRV_SPD_NOM_SPD_NOM (t.lv Reg.STN_POLY_POLY_DRV n) * (25400 * (t.rows n * t.lv Reg.STN_SCAN_CFG_FACETS n))
    t.stnOn n && decide (want < 100 * ((have_ - want).natAbs : Int))
  let lap (a b : Nat) : Bool :=
    let sz (n : Nat) : Nat := t.lv Reg.STN_HOLD_CFG_HOLD_SIZE n
    let bs (n : Nat) : Nat := t.lv Reg.STN_HOLD_CFG_HOLD_BASE n
    a != b && sz a != 0 && sz b != 0 && decide (bs a < bs b + sz b) && decide (bs b < bs a + sz a)
  [⟨0x09, false, ns.any pairBad⟩, ⟨0x0A, false, ns.any geared⟩, ⟨0x21, false, ns.any fun n => (List.range 6).any (lap n)⟩]

/-! ### Drive channels (R225) -/

/-- A channel is in OFF or TRIPPED. -/
def State.drvIdle (s : State) (n : Nat) : Bool := s.dst n == Dst.off || s.dst n == Dst.tripped

/-- Strictly ascending. -/
def rising : List Int → Bool
  | a :: b :: t => decide (a < b) && rising (b :: t)
  | _ => true

def drvChecks (t s : State) (n : Nat) : List Chk :=
  let v (f : Fld) : Nat := t.lv f n
  let src := v Reg.DRV_CFG_SRC
  let clk := v Reg.DRV_SDSEL_CLK
  let div := t.lv Reg.DRV_SDCLK_DIV clk
  let osr := 16 * 2 ^ min 4 (v Reg.DRV_SDSEL_OSR)
  let id := t.lvI Reg.DRV_FW_ID_MIN n
  let psi : Int := v Reg.DRV_MOTOR2_PSI_PM
  let ld : Int := v Reg.DRV_MOTOR1_LD
  [⟨0x01, false, outside 25 1000 (v Reg.DRV_DT_DT) || v Reg.DRV_CFG_POLE_PAIRS == 0 || v Reg.DRV_COUNTS_COUNTS_REV == 0 || src == 7 ||
      (src == 4 && decide (12 ≤ n)) || (src == 5 && decide (n < 12)) || decide (47 < v Reg.DRV_SDSEL_IA_SEL) ||
      decide (47 < v Reg.DRV_SDSEL_IB_SEL) || decide (95 < v Reg.DRV_SDSEL_VBUS_SEL) || decide (23 < v Reg.DRV_CFG_ENC_PORT) ||
      (List.range 36).any fun i => decide (8 < t.swEntry n i)⟩,
   ⟨0x02, false, !t.lon Reg.DRV_SDCLK_EN clk || outside 20 50 div || decide (500000000 < 160000 * (div * osr))⟩,
   ⟨0x04, false, decide (0 < id) || decide (4 * (1000 * psi + ld * id) < 1000 * psi)⟩,
   ⟨0x05, false, decide (t.lvI Reg.DRV_SPD_MAX_SPD_MAX n < t.lvI Reg.DRV_SPD_NOM_SPD_NOM n) || decide (v Reg.DRV_CATCH_CATCH_MAX ≤ v Reg.DRV_CATCH_CATCH_MIN) ||
      decide (v Reg.DRV_CATCH_CATCH_MIN < v Reg.DRV_BRAKE_BRAKE_THR)⟩,
   ⟨0x06, false, (src == 4 && decide (v Reg.DRV_REF_MAP1_PIN_HI ≤ v Reg.DRV_REF_MAP1_PIN_LO)) ||
      (src == 5 && !rising ((List.range 32).map fun j => t.lvI Reg.DRV_CURVE_X n j))⟩,
   ⟨0x07, false, t.lon Reg.DRV_CFG_BRAKE_MODE n && !t.lon Reg.DRV_BUS_CHOP_CHOP_EN (v Reg.DRV_CFG_BUS_GRP)⟩,
   ⟨0x09, false, !s.drvIdle n && (chgAny t s [Reg.DRV_CFG_ENC_PORT, Reg.DRV_SDSEL_IA_SEL, Reg.DRV_SDSEL_IB_SEL, Reg.DRV_SDSEL_VBUS_SEL,
      Reg.DRV_SDSEL_CLK, Reg.DRV_SDSEL_OSR, Reg.DRV_CFG_POLE_PAIRS, Reg.DRV_COUNTS_COUNTS_REV, Reg.DRV_ANGLE_OFS_ANGLE_OFS, Reg.DRV_DT_GATE_POL,
      Reg.DRV_DT_DT, Reg.DRV_CFG_BUS_GRP] n || chgArr t s Reg.DRV_SWTAB_ENTRIES 5 n)⟩]

/-- Checks 0x03 and 0x08 of R225, for the named channels. -/
def drvCross (t : State) (ns : List Nat) : List Chk :=
  let ia (n : Nat) : Nat := t.lv Reg.DRV_SDSEL_IA_SEL n
  let ib (n : Nat) : Nat := t.lv Reg.DRV_SDSEL_IB_SEL n
  let share (a b : Nat) : Bool :=
    a != b && t.lon Reg.DRV_CFG_EN a && t.lon Reg.DRV_CFG_EN b &&
      (ia a == ia b || ia a == ib b || ib a == ia b || ib a == ib b || t.lv Reg.DRV_CFG_ENC_PORT a == t.lv Reg.DRV_CFG_ENC_PORT b)
  [⟨0x03, false, ns.any fun a => (List.range 16).any (share a)⟩,
   ⟨0x08, false, ns.any fun n => t.lv Reg.DRV_CFG_SRC n == 3 && (List.range 6).all fun k => t.lv Reg.STN_POLY_POLY_DRV k != n⟩]

/-! ### Steppers and motion axes (R246, R239) -/

def stpChecks (t s : State) (k : Nat) : List Chk :=
  let v (f : Fld) : Nat := t.lv f k
  [⟨0x01, false, outside 1 40 (v Reg.STP_CHOP_TOFF) || decide (16 < v Reg.STP_CHOP_FAST) || outside 50 2000 (v Reg.STP_CHOP_BLANK) ||
      outside 25 1000 (v Reg.STP_CHOP_DT) || decide (8 < v Reg.STP_CFG_MS_SHIFT)⟩,
   ⟨0x02, false, s.rd Reg.STP_STAT_STATE k != 0 && chgAny t s [Reg.STP_CFG_TABLE, Reg.STP_CFG_MS_SHIFT, Reg.STP_CFG_USTEP_OFS,
      Reg.STP_GATE_GATE_POL, Reg.STP_CHOP_DT] k⟩]

/-- Check 0x03 of R246. -/
def stpCross (t : State) (ks : List Nat) : List Chk :=
  [⟨0x03, false, ks.any fun k =>
    let p := t.lv Reg.STP_ENC_ENC_PORT k
    t.lon Reg.STP_ENC_ENC_EN k && (((List.range 16).any fun n => t.lon Reg.DRV_CFG_EN n && t.lv Reg.DRV_CFG_ENC_PORT n == p) ||
      (List.range 24).any fun i => t.lon Reg.AXIS_CFG_EN (40 + i) && t.lv Reg.AXIS_CFG_PORT (40 + i) == p)⟩]

def motChecks (t s : State) : List Chk :=
  let en (m : Nat) : Bool := if m < 16 then t.lon Reg.DRV_CFG_EN m else t.lon Reg.STP_CFG_EN (m - 16)
  [⟨0x01, false, (List.range 32).any fun m => en m && t.lv Reg.MOT_STOP_DECEL_STOP_DECEL m == 0⟩,
   ⟨0x02, false, (List.range 32).any fun m => s.mst m != Mst.idle && chgAny t s [Reg.MOT_CFG_REVERSIBLE, Reg.MOT_CFG_LIM_EN,
      Reg.MOT_STOP_DECEL_STOP_DECEL, Reg.MOT_LIM_LO_LO_LIM_LO_LO, Reg.MOT_LIM_LO_HI_LIM_LO_HI, Reg.MOT_LIM_HI_LO_LIM_HI_LO,
      Reg.MOT_LIM_HI_HI_LIM_HI_HI] m⟩]

/-! ### Encoder ports and axes (R261, R79) -/

/-- Bits of the check that CRC_SEL picks (R248). -/
def crcBits (sel : Nat) : Nat := match sel with | 1 => 6 | 2 => 8 | _ => 0

def encChecks (t s : State) (p : Nat) : List Chk :=
  let v (f : Fld) : Nat := t.lv f p
  let word := v Reg.ENC_CFG_MODE == 2
  let frame := (1 + v Reg.ENC_CFG_LEAD + v Reg.ENC_CFG_BITS + crcBits (v Reg.ENC_CFG_CRC_SEL)) * (4 * (v Reg.ENC_SSI_CLK_DIV + 1))
  let ch := chgAny t s [Reg.ENC_CFG_MODE, Reg.ENC_CFG_SWAP, Reg.ENC_CFG_GRAY, Reg.ENC_CFG_BITS, Reg.ENC_CFG_LEAD, Reg.ENC_CFG_CRC_SEL] p
  let feeds (ax : Nat) : Bool := t.axisEn ax && t.axisPort ax == some p
  [⟨0x01, false, v Reg.ENC_CFG_MODE == 3 || v Reg.ENC_CFG_CRC_SEL == 3 || (word && (outside 10 32 (v Reg.ENC_CFG_BITS) ||
      outside 24 2499 (v Reg.ENC_SSI_CLK_DIV) || v Reg.ENC_SSI_MONO == 0))⟩,
   ⟨0x02, false, word && (decide (50 * v Reg.ENC_POLL_POLL < frame + 1000 * v Reg.ENC_SSI_MONO) || decide (v Reg.ENC_POLL_POLL < 100))⟩,
   ⟨0x03, true, ch && s.castEntry fun e => feeds e.axis⟩,
   ⟨0x03, false, ch && (List.range 16).any fun n => t.lv Reg.DRV_CFG_ENC_PORT n == p && !s.drvIdle n⟩,
   ⟨0x04, false, decide (v Reg.ENC_SPD_SW_UP ≤ v Reg.ENC_SPD_SW_DN) || decide (10 < v Reg.ENC_SPD_WIN_SHIFT) || v Reg.ENC_SPD_JIT_CONF == 0⟩]

def axisChecks (t s : State) : List Chk :=
  let axes := (List.range 24).map (· + 40)
  let held (ax : Nat) : Bool := s.entries.any fun x => x.2.axis == ax
  let owned (ax : Nat) : Bool := s.entries.any fun x => x.2.axis == ax && s.crossings.any fun c => c.crx == x.2.crx && decide (c.state ≤ 3)
  [⟨0x01, true, axes.any fun ax => chgAny t s [Reg.AXIS_CFG_EN, Reg.AXIS_CFG_PORT, Reg.AXIS_CFG_INVERT] ax && owned ax⟩,
   ⟨0x02, false, hasDup ((axes.filter fun ax => t.lon Reg.AXIS_CFG_EN ax).map fun ax => t.lv Reg.AXIS_CFG_PORT ax)⟩,
   ⟨0x03, false, axes.any fun ax => decide (23 < t.lv Reg.AXIS_CFG_PORT ax)⟩,
   ⟨0x04, false, axes.any fun ax => s.lon Reg.AXIS_CFG_EN ax && !t.lon Reg.AXIS_CFG_EN ax && held ax⟩]

/-! ### Capstans (R285) -/

/-- Parameters and state words that a block takes (R266, R272). -/
def blockParams (b : Nat) : Nat :=
  match blkType b with
  | 0x01 => 2 | 0x02 => 3 | 0x03 => 5 | 0x04 => 5 | 0x05 => 3 | 0x06 => 2 | 0x07 => 4 | 0x08 => 8
  | 0x09 => if field b 40 2 = 3 then 3 else 4
  | 0x0A => 2
  | _ => 0
def blockStates (b : Nat) : Nat :=
  match blkType b with | 0x03 => 2 | 0x04 => 4 | 0x05 => 2 | 0x08 => 1 | 0x09 => 4 | _ => 0

/-- A block breaks check 0x02 of R285 by itself. -/
def blockBad (b : Nat) : Bool :=
  let sch := field b 48 1 == 1
  let aux := field b 40 8
  let np := blockParams b
  let ns := blockStates b
  blkType b == 0 || decide (11 < blkType b) || (blkType b == 1 && decide (9 < aux)) || (sch && outside 1 32 aux) ||
    (np != 0 && decide (256 < field b 26 8 + (if sch then 7 * aux else 0) + np)) || (ns != 0 && decide (64 < field b 34 6 + ns))

/-- The program of a loop. -/
def State.program (s : State) (l : Nat) : List Nat :=
  (List.range (s.lv Reg.LOOP_PROG_COUNT l)).map fun i => s.blk (s.lv Reg.LOOP_PROG_FIRST l + i)

/-- The axes that a block of loop `l` names (R270, R272), over the regions it is scheduled in. -/
def State.blockAxes (s : State) (l b : Nat) : List Nat :=
  let aux := field b 40 8
  let p (r : Nat) : Nat := tget 0 s.lparam (l * 256 + (field b 26 8 + r * aux) % 256)
  let rs := if field b 48 1 = 1 then List.range 8 else [0]
  if blkType b = 0x07 then rs.map fun r => p r % 64
  else if blkType b = 0x09 ∧ aux % 4 = 3 then rs.flatMap fun r => [p r % 64, p r / 256 % 64]
  else []

/-- A drive channel not in OFF or TRIPPED takes its torque or speed from loop `l`, or an enabled high-voltage or heater channel names it. -/
def loopInUse (t s : State) (l : Nat) : Bool :=
  ((List.range 16).any fun n => t.lv Reg.DRV_CFG_SRC n == 2 && t.lv Reg.DRV_CAP_CAP_LOOP n == l && !s.drvIdle n) ||
    ((List.range 32).any fun h => t.lon Reg.HV_CFG_EN h && t.lv Reg.HV_CFG_LOOP h == l) ||
    (List.range 4).any fun k => t.lon Reg.HTR_CFG_EN k && t.lv Reg.HTR_CFG_LOOP k == l

def capChecks (t s : State) (c : Nat) : List Chk :=
  let ls := t.loopsOf c
  let mine := (List.range 128).filter fun l => t.lv Reg.LOOP_CFG_CAP l == c || s.lv Reg.LOOP_CFG_CAP l == c
  [⟨0x01, false, ls.any fun l => decide (64 < t.lv Reg.LOOP_PROG_COUNT l) ||
      decide (4096 < t.lv Reg.LOOP_PROG_FIRST l + t.lv Reg.LOOP_PROG_COUNT l) || decide (10 < t.lv Reg.LOOP_CFG_RATE_SHIFT l) ||
      decide (2 ^ t.lv Reg.LOOP_CFG_RATE_SHIFT l ≤ t.lv Reg.LOOP_CFG_PHASE l)⟩,
   ⟨0x02, false, ls.any fun l => (t.program l).any blockBad || decide (1 < ((t.program l).filter fun b => blkType b == 8).length)⟩,
   ⟨0x03, false, decide (3000 < t.capLoad c)⟩,
   ⟨0x04, false, !ls.isEmpty && (!t.lon Reg.CAP_CFG_EN c || t.fenced (62 + c))⟩,
   ⟨0x06, false, ls.any fun l => (t.program l).any fun b => (t.blockAxes l b).any fun ax => !t.axisEn ax⟩,
   ⟨0x07, false, mine.any fun l => loopInUse t s l && chgAny t s [Reg.LOOP_CFG_EN, Reg.LOOP_PROG_FIRST, Reg.LOOP_PROG_COUNT,
      Reg.LOOP_CFG_RATE_SHIFT, Reg.LOOP_CFG_PHASE] l⟩]

/-- Check 0x05 of R285: the old and the new capstan of a loop that moves are named. -/
def capCross (t s : State) (us : Nat) : List Chk :=
  [⟨0x05, false, (List.range 128).any fun l => chg t s Reg.LOOP_CFG_CAP l &&
    !(bitOf us (62 + t.lv Reg.LOOP_CFG_CAP l) && bitOf us (62 + s.lv Reg.LOOP_CFG_CAP l))⟩]

/-! ### High voltage and heaters (R291, R297) -/

def hvChecks (t s : State) (h : Nat) : List Chk :=
  let v (f : Fld) : Nat := t.lv f h
  [⟨0x01, false, outside 1250 10000 (v Reg.HV_PWM_PERIOD) || decide (47 < v Reg.HV_CFG_FB_IN) || v Reg.HV_FB_FB_MV == 0⟩,
   ⟨0x02, false, t.lon Reg.HV_CFG_EN h && !t.lon Reg.LOOP_CFG_EN (v Reg.HV_CFG_LOOP)⟩,
   ⟨0x04, true, chgAny t s [Reg.HV_CFG_EN, Reg.HV_CFG_LOOP, Reg.HV_CFG_REF_IDX, Reg.HV_CFG_FB_IN, Reg.HV_FB_FB_ZERO, Reg.HV_FB_FB_MV,
      Reg.HV_PWM_PERIOD] h && ((s.castEntry fun e => e.action == 0x20 && e.target == h) ||
        s.crossings.any fun c => (c.state == 2 || c.state == 3) && bitOf c.hvRest h)⟩]

def htrChecks (t s : State) (k : Nat) : List Chk :=
  let v (f : Fld) : Nat := t.lv f k
  [⟨0x01, false, decide (47 < v Reg.HTR_CFG_SENSOR) || decide (32767 < v Reg.HTR_FIRE_FIRE_OFS)⟩,
   ⟨0x02, false, t.lon Reg.HTR_CFG_EN k && !t.lon Reg.LOOP_CFG_EN (v Reg.HTR_CFG_LOOP)⟩,
   ⟨0x04, true, chgAny t s [Reg.HTR_CFG_EN, Reg.HTR_CFG_LOOP, Reg.HTR_CFG_REF_IDX, Reg.HTR_CFG_MODE, Reg.HTR_CFG_BURST_UNIT,
      Reg.HTR_CFG_SENSOR] k && s.castEntry fun e => e.action == 0x21 && e.target == k⟩]

/-- Check 0x03 of R291 and R297: a loop that a named channel uses is named by another enabled channel. Channels are 0–31, heaters 32–35. -/
def hvCross (t : State) (ns : List Nat) : List Chk :=
  let en (i : Nat) : Bool := if i < 32 then t.lon Reg.HV_CFG_EN i else t.lon Reg.HTR_CFG_EN (i - 32)
  let lp (i : Nat) : Nat := if i < 32 then t.lv Reg.HV_CFG_LOOP i else t.lv Reg.HTR_CFG_LOOP (i - 32)
  [⟨0x03, false, ns.any fun a => en a && (List.range 36).any fun b => a != b && en b && lp a == lp b⟩]

/-! ### Fenlink and IO (R327, R341) -/

def flChecks (t s : State) (p : Nat) : List Chk :=
  let v (f : Fld) : Nat := t.lv f p
  let ns := ((t.flList p).map (·.2)).filter (·.en)
  let sourced := ((List.range 32).any fun i => match t.sheetNode i with | some (q, _) => q == p | none => false) ||
    (List.range 16).any fun m => match t.markNode m with | some (q, _) => q == p | none => false
  [⟨0x01, false, outside 125 2000 (v Reg.FL_CFG_CYCLE_US) || outside 50 1000 (v Reg.FL_CFG_REPLY_US) || v Reg.FL_CFG_MOOR_POLL_MS == 0⟩,
   ⟨0x02, false, listClash (v Reg.FL_CFG_GEN) (t.flSlots p) ns⟩,
   ⟨0x03, true, chgAny t s [Reg.FL_CFG_EN, Reg.FL_CFG_GEN, Reg.FL_CFG_CYCLE_US] p && sourced &&
      s.crossings.any fun c => c.state == 2 || c.state == 3⟩,
   ⟨0x04, false, v Reg.FL_CFG_GEN == 0 && decide (50000 < (ns.length + 1) * (80 + v Reg.FL_CFG_REPLY_US))⟩]

/-- The fields of the input that a sheet sensor reads. -/
def State.sheetInput (s : State) (i : Nat) : List Nat :=
  let n := s.lv Reg.IO_SHEET_INPUT i
  if n < 64 then [s.lv Reg.IO_GPIO_CFG_OUT n, s.lv Reg.IO_GPIO_CFG_OD n, s.lv Reg.IO_GPIO_CFG_FILT n]
  else [s.lv Reg.IO_PTMAP_PORT (n - 64), s.lv Reg.IO_PTMAP_NODE (n - 64), s.lv Reg.IO_PTMAP_POINT (n - 64), s.lv Reg.IO_PTMAP_EN (n - 64)]

def ioChecks (t s : State) : List Chk :=
  let window (i : Nat) : Bool := s.crossings.any fun c => (c.state == 2 || c.state == 3) && c.wins.any fun w => w.sensor == i
  let ins (i : Nat) : Nat := t.lv Reg.IO_SHEET_INPUT i
  [⟨0x01, false, (List.range 64).any fun e => t.lon Reg.IO_PTMAP_EN e && (decide (3 < t.lv Reg.IO_PTMAP_PORT e) || t.lv Reg.IO_PTMAP_NODE e == 0)⟩,
   ⟨0x02, false, (List.range 32).any fun i => t.lon Reg.IO_SHEET_EN i &&
      (if ins i < 64 then t.lon Reg.IO_GPIO_CFG_OUT (ins i) else !t.lon Reg.IO_PTMAP_EN (ins i - 64))⟩,
   ⟨0x03, true, (List.range 32).any fun i => (s.lon Reg.IO_SHEET_EN i || t.lon Reg.IO_SHEET_EN i) && window i &&
      (chgAny t s [Reg.IO_SHEET_INPUT, Reg.IO_SHEET_COVER_LVL, Reg.IO_SHEET_DEBOUNCE, Reg.IO_SHEET_EN] i || t.sheetInput i != s.sheetInput i)⟩]

/-! ### All checks (R72) -/

/-- The checks of one unit, by ascending code. -/
def unitChecks (t s : State) (u : Nat) : List Chk :=
  if u < 6 then scanChecks t s u ++ spllChecks t s u ++ holdChecks t s u ++ linkChecks t s u
  else if u < 22 then drvChecks t s (u - 6)
  else if u < 38 then stpChecks t s (u - 22)
  else if u < 62 then encChecks t s (u - 38)
  else if u < 78 then capChecks t s (u - 62)
  else if u < 110 then hvChecks t s (u - 78)
  else if u < 114 then htrChecks t s (u - 110)
  else if u < 118 then flChecks t s (u - 114)
  else if u = 118 then axisChecks t s
  else if u = 119 then motChecks t s
  else if u = 120 then ioChecks t s
  else []

/-- The named units from `lo` on, at most `n`, counted from `lo`. -/
def unitsIn (us lo n : Nat) : List Nat := (List.range n).filter fun i => bitOf us (lo + i)

/-- The checks across units that the named units' chapters state. -/
def crossChecks (t s : State) (us : Nat) : List Chk :=
  stnCross t (unitsIn us 0 6) ++ drvCross t (unitsIn us 6 16) ++ stpCross t (unitsIn us 22 16) ++ capCross t s us ++
    hvCross t (unitsIn us 78 36)

/-- The smallest code among failing checks. -/
def lowestCode (cs : List Chk) : Option Nat := (cs.map (·.code)).min?

/-- The failing checks of a commit: unit (0x7F for those across units) with its failing checks, in the order of R72. -/
def failing (t s : State) (us : Nat) (live : Bool) : List (Nat × List Chk) :=
  let bad (cs : List Chk) : List Chk := cs.filter fun c => c.fails && (live || !c.live)
  (((bitsOf us 122).map fun u => (u, bad (unitChecks t s u))) ++ [(0x7F, bad (crossChecks t s us))]).filter fun x => !x.2.isEmpty

/-- The DATA of a MISMATCH record (R72), `none` where every check passes. -/
def blame (fs : List (Nat × List Chk)) : Option Nat :=
  match fs with
  | [] => none
  | (u, cs) :: _ => some (u + 2 ^ 8 * (lowestCode cs).getD 0)

end Sys2Proof.Machine
end

