-- ==== Sys2Proof/Machine/Quay.lean ====
section
/-! DEFINITION. Quay and live sets (R66–R74): commits from acceptance to their boundary, staging and discarding, and what an applied commit
starts in each unit. -/

namespace Sys2Proof.Machine

/-! ### What a commit would produce -/

/-- The live set with the named units' fields taken from `snap` (R72). Whose unit a loop is follows CAP in `snap` (R263). -/
def State.liveWith (s : State) (us : Nat) (snap : Tbl Nat) : Tbl Nat := { s with quay := snap }.copyUnits us snap s.live

/-- The state that a commit of `us` from `snap` would produce. -/
def State.withSnap (s : State) (us : Nat) (snap : Tbl Nat) : State := { s with live := s.liveWith us snap }

/-! ### What an applied commit starts -/

/-- Station `n` (R54, R146, R180, R201). -/
def State.stnApplied (s old : State) (n : Nat) : State :=
  let s := if s.stnOn n && !old.stnOn n then s.setStn n { s.stns n with subst := 0, dropped := 0 } else s
  ((s.spllCommit old n).blCommit old n).shareShow n

/-- A loop of a named capstan (R273, R280, R284): it is enabled anew, its orphaning ends, or it is disabled. -/
def State.loopApplied (s old : State) (l : Nat) : State :=
  if s.lon Reg.LOOP_CFG_EN l then
    if !old.lon Reg.LOOP_CFG_EN l || s.on Reg.LOOP_STAT_ECC l then s.loopEnable l
    else if s.on Reg.LOOP_STAT_ORPHAN l && !s.fenced (62 + s.lv Reg.LOOP_CFG_CAP l) then s.wr Reg.LOOP_STAT_ORPHAN 0 l
    else s
  else if old.lon Reg.LOOP_CFG_EN l then
    (List.range 4).foldl (fun s j => s.wr Reg.LOOP_OUT_OUT 0 l j) (s.setLoop l Loop.init)
  else s

/-- The capstans of a commit (R281): where a loop's CAP changed, the old and the new capstan get a tally each, in ascending order. -/
def State.capsApplied (s old : State) (us : Nat) : State :=
  let cs := unitsIn us 62 16
  let mine := (List.range 128).filter fun l => cs.contains (s.lv Reg.LOOP_CFG_CAP l)
  let moved := (List.range 128).filter fun l => chg s old Reg.LOOP_CFG_CAP l
  let s := mine.foldl (fun s l => s.loopApplied old l) s
  let s := (cs.filter fun c => moved.any fun l => s.lv Reg.LOOP_CFG_CAP l == c || old.lv Reg.LOOP_CFG_CAP l == c).foldl
    (fun s c => s.giveTally c) s
  if cs = [] then s else (List.range 16).foldl (fun s c => s.capRefresh c) s

/-- High-voltage channel `h` (R290) and heater `k` (R296). A channel that is boomed or laid up is not started. -/
def State.hvApplied (s : State) (h : Nat) : State :=
  if !s.lon Reg.HV_CFG_EN h then s.hvLeave h else if s.fenced (78 + h) then s else s.hvStart h
def State.htrApplied (s : State) (k : Nat) : State :=
  if !s.lon Reg.HTR_CFG_EN k then s.htrOff k else if s.fenced (110 + k) then s else s.htrStart k

/-- Fenlink port `p`: as it stops, no reply or roll-call answer is awaited. -/
def State.flApplied (s : State) (p : Nat) : State :=
  if s.lon Reg.FL_CFG_EN p then s else s.setFport p { s.fports p with due := [], roll := none, last := 0, roundAt := none }

/-- The axes of unit 118 that take the new source count (R390). -/
def State.axesApplied (s old : State) : State :=
  (List.range 24).foldl (fun s i =>
    let ax := 40 + i
    if s.lon Reg.AXIS_CFG_EN ax && chgAny s old [Reg.AXIS_CFG_EN, Reg.AXIS_CFG_PORT, Reg.AXIS_CFG_INVERT] ax then s.axisReref ax else s) s

/-- What the units of `us` do at the edge at which their live sets have changed; `old` is the state before. -/
def State.applied (s old : State) (us : Nat) : State :=
  let s := (unitsIn us 0 6).foldl (fun s n => s.stnApplied old n) s
  let s := s.capsApplied old us
  let s := (unitsIn us 6 16).foldl (fun s n => s.drvCommit old n) s
  let s := if unitsIn us 6 16 = [] then s else s.busCommit
  let s := (unitsIn us 22 16).foldl (fun s k => s.stpCommit k) s
  let s := (unitsIn us 38 24).foldl (fun s p => s.encCommit old p) s
  let s := (unitsIn us 78 32).foldl (fun s h => s.hvApplied h) s
  let s := (unitsIn us 110 4).foldl (fun s k => s.htrApplied k) s
  let s := (unitsIn us 114 4).foldl (fun s p => s.flApplied p) s
  if bitOf us 118 then s.axesApplied old else s

/-! ### Boundaries (R71–R73) -/

/-- The named stations whose heads must first take new levels: the link is up and BL_AMP changes (R191). -/
def State.headsDue (t s : State) (us : Nat) : List Nat :=
  (unitsIn us 0 6).filter fun n => s.lv Reg.BL_CFG_PORT n == 1 && s.bst n == Bst.up &&
    [Reg.BL_AMP_CLASS0, Reg.BL_AMP_CLASS1, Reg.BL_AMP_CLASS2, Reg.BL_AMP_CLASS3].any fun f => chgArr t s f 40 n

/-- Every check has passed: the named units' live sets take the snapshot at this edge (R68, R72). -/
def State.commitApply (s : State) (c : Commit) : State :=
  let old := s
  let s := { s with live := s.liveWith c.units c.snap, edgeLive := some (s.edgeLive.getD s.live) }
  let s := (bitsOf c.units 122).foldl (fun s u =>
    let s := s.wr Reg.GEN_QUAY_STAT_GENERATION (s.rd Reg.GEN_QUAY_STAT_GENERATION u + 1) u
    if bitOf c.late u then s else s.wr Reg.GEN_QUAY_STAT_DIRTY 0 u) s
  (s.applied old c.units).endCommit c St.ok

/-- Replace a pending commit. -/
def State.setCommit (s : State) (c : Commit) : State :=
  { s with commits := s.commits.map fun (x : Commit) => if x.job == c.job then c else x }

/-- The levels of the snapshot go to the heads that must take them, and the commit waits for them to be read back (R191). -/
def State.headsWrite (s t : State) (c : Commit) (ns : List Nat) : State :=
  let m := ns.foldl (fun m n => setBit m n true) 0
  ns.foldl (fun s n => s.sendLevels n (t.levels n)) (s.setCommit { c with heads := m, left := m })

/-- The commit is checked at its boundary edge (R72), and again once its heads have read its levels back (R191). A GAP commit that fails on
live-crossing rules alone stays pending. -/
def State.commitAt (s : State) (c : Commit) : State :=
  let t := s.withSnap c.units c.snap
  let fs := failing t s c.units true
  match blame fs with
  | some d =>
    if c.bound = 1 ∧ c.heads = 0 ∧ fs.all fun x => x.2.all fun k => k.live then s.setCommit { c with goal := 0 }
    else s.endCommit c St.mismatch d
  | none =>
    let ns := t.headsDue s c.units
    if c.heads = 0 ∧ ns ≠ [] then s.headsWrite t c ns else s.commitApply c

/-- Head `n` has read levels back: for a commit that waits for it, equal lets the commit apply, or it ends with TIMEOUT and the head is rewritten
(R191). -/
def State.levelsBack (s : State) (n : Nat) (bytes : List Byte) : State :=
  match s.commits.find? fun c => bitOf c.left n with
  | none => s
  | some c =>
    if bytes = (s.withSnap c.units c.snap).levels n then
      let c := { c with left := setBit c.left n false }
      let s := s.setCommit c
      if c.left = 0 then s.commitAt c else s
    else s.headBad n

/-- This edge is a boundary of a pending commit that does not wait for a tide entry (R71). For GAP `goal` is 1 where all its stations were
idle at acceptance. -/
def State.atBoundary (s : State) (c : Commit) : Bool :=
  match c.bound with
  | 0 => decide (c.acc < s.now)
  | 1 =>
    let ns := bitsOf c.stns 6
    let ready := ns.filter s.stnReady
    (ns.all fun n => (s.stns n).expo.isNone) &&
      (c.goal == 1 || ready.isEmpty || ready.any fun n => (s.stns n).sweepAt == s.now)
  | 2 => posReached (s.rd Reg.AXIS_SCHED c.axis) c.goal
  | 3 => (bitsOf c.stns 6).any fun n => (s.stns n).sweepAt == s.now && decide (c.acc < s.now)
  | _ => false

/-- The commit `c` is tried at this edge. -/
def Commit.mark (c : Commit) (now : Nat) (x : Commit) : Commit := if x.job == c.job then { x with tried := some now } else x
def State.markTried (s : State) (c : Commit) : State := { s with commits := s.commits.map (c.mark s.now) }

/-- The `k`-th pending commit, in acceptance order, is at its boundary; one accepted earlier that is at its boundary at this edge is
checked and applied before it (R73). -/
def commitBoundaryEff (k : Nat) (s : State) : State :=
  match s.commits[k]? with
  | none => s
  | some c =>
    if c.heads = 0 ∧ s.atBoundary c ∧ c.tried ≠ some s.now ∧ !((s.commits.take k).any fun (x : Commit) => x.heads == 0 && s.atBoundary x && x.tried != some s.now) then
      (s.markTried c).commitAt (c.mark s.now c)
    else s

def execCommitBoundary (k : Nat) (s : State) : Host.Outcome State Fault Refusal := .next (commitBoundaryEff k s)

/-- TIMEOUT_MS of the `k`-th pending commit expires (R73). -/
def commitTimeoutEff (k : Nat) (s : State) : State :=
  match s.commits[k]? with
  | none => s
  | some c => if c.deadline ≤ s.now then s.endCommit c St.timeout else s

def execCommitTimeout (k : Nat) (s : State) : Host.Outcome State Fault Refusal := .next (commitTimeoutEff k s)

/-- The COMMIT action of the tide table (R84). -/
def commitEff (s : State) : State :=
  s.act 0x05 fun d s =>
    match s.commits.find? fun c => c.bound == 4 && c.heads == 0 && dTag c.job.d == d.e.arg with
    | none => s.actRefuse d St.refusedState
    | some c => (s.actDone d).commitAt c

def execCommit (s : State) : Host.Outcome State Fault Refusal := .next (commitEff s)

/-! ### QUAY_COMMIT (R70, R72, R73) -/

/-- The UNITS mask of a quay descriptor. -/
def dUnits (d : Desc) : Nat := dget d 16 0 128

/-- Some named unit's block belongs to the other function. -/
def State.unitsForeign (s : State) (j : Job) : Bool := (bitsOf (dUnits j.d) 122).any fun u => s.ownBlk (blockOfUnit u) != j.pf

/-- The reserved fields of a QUAY_COMMIT. -/
def commitZero (d : Desc) : Bool :=
  dget d 32 3 5 == 0 && dget d 33 6 2 == 0 && dget d 34 6 2 == 0 && dget d 35 0 8 == 0 && dZero d 44 64


/-- The commit that a descriptor calls for, with its snapshot of the quay (R72). -/
def State.commitOf (s : State) (j : Job) : Commit :=
  let us := dUnits j.d
  let bound := dget j.d 32 0 3
  let mask := dget j.d 33 0 6
  let stns := if bound = 1 then mask ||| us % 64 else mask
  let ax := dget j.d 34 0 6
  { job := j, units := us, bound := bound, stns := stns, axis := ax,
    goal := if bound = 1 then (if (bitsOf stns 6).all fun n => (s.stns n).expo.isNone then 1 else 0)
      else if bound = 2 then nextMultiple (s.rd Reg.AXIS_SCHED ax) (dget j.d 36 0 32) else 0,
    rev := dget j.d 36 0 32, acc := s.now, tried := none, deadline := s.now + timeoutNs (dget j.d 40 0 32), snap := s.quay, late := 0, heads := 0, left := 0 }

/-- QUAY_COMMIT is accepted (R73), or completes at once. -/
def quayCommitEff (n : Nat) (s : State) : State :=
  s.withDesc n 0x80 fun j s =>
    let us := dUnits j.d
    let c := s.commitOf j
    if 5 ≤ c.bound ∨ 2 ^ 122 ≤ us ∨ !commitZero j.d ∨ (c.bound = 2 ∧ dget j.d 36 0 32 = 0) ∨ (c.bound = 3 ∧ popcount c.stns 6 ≠ 1) ∨
        (c.bound = 1 ∧ c.stns = 0) then s.complete j St.badDesc
    else if s.unitsForeign j then s.foreign j
    else if (bitsOf us 122).any s.isBoomed then s.commitDone j us St.fenced
    else if s.commits.any fun x => x.units &&& us != 0 || (c.bound == 4 && x.bound == 4 && dTag x.job.d == dTag j.d) then
      s.commitDone j us St.overlap
    else if 8 ≤ s.commits.length then s.commitDone j us St.refusedState
    else match blame (failing (s.withSnap us s.quay) s us false) with
      | some d => s.commitDone j us St.mismatch d
      | none => { s with commits := s.commits ++ [c] }

def execQuayCommit (n : Nat) (s : State) : Host.Outcome State Fault Refusal := .next (quayCommitEff n s)

/-! ### QUAY_DISCARD and QUAY_STAGE (R74) -/

/-- QUAY_DISCARD: the named units' quay sets take their live sets. Whose unit a loop is follows its live CAP. -/
def quayDiscardEff (n : Nat) (s : State) : State :=
  s.withDesc n 0x81 fun j s =>
    let us := dUnits j.d
    if 2 ^ 122 ≤ us ∨ !dZero j.d 32 64 then s.complete j St.badDesc
    else if s.unitsForeign j then s.foreign j
    else
      let s := { s with quay := { s with quay := s.live }.copyUnits us s.live s.quay }
      ((bitsOf us 122).foldl (fun s u => s.wr Reg.GEN_QUAY_STAT_DIRTY 0 u) s).complete j St.ok

def execQuayDiscard (n : Nat) (s : State) : Host.Outcome State Fault Refusal := .next (quayDiscardEff n s)

/-- The valid pairs of a QUAY_STAGE: offset and value. -/
def stagePairs (d : Desc) : List (Nat × Nat) :=
  (List.range 6).filterMap fun i => if dget d (16 + 8 * i) 31 1 = 1 then some (dget d (16 + 8 * i) 0 20, dget d (20 + 8 * i) 0 32) else none

/-- The word at `off` is a QS register. -/
def qsWord (off : Nat) : Bool := off % 4 == 0 && (hitsAt off).any fun h => h.f.acc == .qs

/-- QUAY_STAGE: three passes of checks, then the pairs are written in order, each as a host write. -/
def quayStageEff (n : Nat) (s : State) : State :=
  s.withDesc n 0x82 fun j s =>
    let ps := stagePairs j.d
    if (List.range 6).any fun i => dget j.d (16 + 8 * i) 20 11 != 0 then s.complete j St.badDesc
    else match ps.find? fun p => (s.ownerOf p.1).any (· != j.pf) with
      | some p => (s.raise Src.pfAccess Src.noUnit 0 p.1).complete j St.badDesc
      | none =>
        let locked := ps.filter fun p => protWord p.1 || (wlWord p.1 && s.wlDone.contains p.1)
        if locked ≠ [] then (locked.foldl (fun s p => s.lockViol p.1 2) s).complete j St.locked
        else if ps.any fun p => !qsWord p.1 then s.complete j St.badDesc
        else (ps.foldl (fun s p => (hitsAt p.1).foldl (fun s h => s.writeField h p.2) s) s).complete j St.ok

def execQuayStage (n : Nat) (s : State) : Host.Outcome State Fault Refusal := .next (quayStageEff n s)

end Sys2Proof.Machine
end

