-- ==== Sys2Proof/Machine/Sideband.lean ====
section
/-! DEFINITION. What a head's replies on the sideband do (R188–R191, R196, R200), and requests that get no reply (R189). -/

namespace Sys2Proof.Machine

/-- A status reply (R190, R200), laid out as log 111 says; a used lane without block lock is a lock loss (R188). -/
def State.sbStatus (s : State) (n : Nat) (p : List Byte) : State :=
  let s := s.wr Reg.BL_STAT_TEMP (bytesAt p 1 2) n
  let s := (s.setBl n { s.bls n with tempAt := s.now, lanes := byteAt p 0 % 64, faults := byteAt p 3 }).otUpdate n
  if byteAt p 0 &&& s.laneMask n = s.laneMask n then s else s.blRetrain n

/-- Error counts by lane (R190): 16 sync-header errors or a lock loss on a used lane send the link to CLOCK (R188). -/
def State.sbErrors (s : State) (n : Nat) (p : List Byte) : State :=
  let s := (List.range 4).foldl (fun s l =>
    (s.cnt Reg.BL_LANE_ERR_SH_ERR n l (bytesAt p (4 * l) 2)).cnt Reg.BL_LANE_ERR_LOCK_LOSS n l (bytesAt p (4 * l + 2) 2)) s
  if (List.range (s.lanesUsed n)).any fun l => decide (16 ≤ bytesAt p (4 * l) 2) || bytesAt p (4 * l + 2) 2 != 0 then s.blRetrain n else s

/-- The measured emitters of a pass (R196). -/
def State.sbChar (s : State) (n : Nat) (p : List Byte) : State :=
  match (s.bls n).charNext with
  | none => s
  | some e =>
    let k := min 8 (s.emitters n - e)
    (State.charAll n e ((List.range k).map fun i => (bytesAt p (4 * i) 2, bytesAt p (4 * i + 2) 2)) s).charAdvance n (e + 8)

/-- A copy has been read back in SYNC (R191): equal to the station's, or it is written again. -/
def State.sbSync (s : State) (n k : Nat) (eq : Bool) : State :=
  if eq then s.setBl n { s.bls n with sync := setBit (s.bls n).sync k true } else s.syncOne n k

/-- The head answers request `q` with payload `p`. -/
def State.sbHandle (s : State) (n : Nat) (q : SbReq) (p : List Byte) : State :=
  match q.cmd with
  | 0x01 => s.sbStatus n p
  | 0x02 => s.sbErrors n p
  | 0x11 =>
    let k := byteAt q.payload 0
    if s.bst n = Bst.sync then s.sbSync n k (p == s.waveBytes n k)
    else match (s.bls n).load with
      | some l => if l.set = k then s.loadBack n l p else s
      | none => s
  | 0x19 => if s.bst n = Bst.sync then s.sbSync n 4 (p == s.levels n) else s.levelsBack n p
  | 0x20 => s.sbChar n p
  | _ => s

/-- A whole packet has come from the head (R189): the answer to the request outstanding has its CMD with bit 7 set and its TID. A packet
whose CRC is wrong is none. -/
def sidebandReplyEff (n cmd tid : Nat) (p : List Byte) (crc : Nat) (s : State) : State :=
  let b := s.bls n
  match b.req with
  | none => s
  | some q =>
    if 6 ≤ n ∨ q.tid ≠ tid ∨ cmd ≠ q.cmd + 0x80 ∨ 1024 < p.length ∨ crc ≠ crc32c (sbBody cmd tid p) then s
    else ((s.setBl n { b with req := none, silent := none }).sbNext n).sbHandle n q p

def execSidebandReply (n cmd tid : Nat) (p : List Byte) (crc : Nat) (s : State) : Host.Outcome State Fault Refusal :=
  .next (sidebandReplyEff n cmd tid p crc s)

/-- A request has failed for the third time (R189, R191): a characterisation goes on with the next emitters, and a write of the head's
copies fails. -/
def State.sbFail (s : State) (n : Nat) (q : SbReq) : State :=
  match q.cmd, (s.bls n).charNext with
  | 0x20, some e => s.charAdvance n (e + 8)
  | c, _ => if c = 0x10 ∨ c = 0x11 ∨ c = 0x18 ∨ c = 0x19 then s.headBad n else s

/-- No reply within 100 µs (R189): two retries, then the sideband counts as silent. -/
def sidebandTimeoutEff (n : Nat) (s : State) : State :=
  let b := s.bls n
  match b.req with
  | none => s
  | some q =>
    if 6 ≤ n ∨ s.now < q.at_ + 100000 then s
    else if q.tries < 2 then
      (s.setBl n { b with req := some { q with tries := q.tries + 1, at_ := s.now } }).emit (.sideband n (sbPacket q.cmd q.tid q.payload))
    else
      let s := s.setBl n { b with req := none, silent := if b.silent.isSome then b.silent else some s.now }
      (s.sbNext n).sbFail n q

def execSidebandTimeout (n : Nat) (s : State) : Host.Outcome State Fault Refusal := .next (sidebandTimeoutEff n s)

end Sys2Proof.Machine
end

