-- ==== Sys2Proof/Machine/Dispatch.lean ====
section
/-! DEFINITION. The dispatch: one arm per command, each one direct call of its meaning. -/

namespace Sys2Proof.Machine

/-- The effect of a command on everything but the queue. -/
def exec (i : Instr) (s : State) : Host.Outcome State Fault Refusal :=
  match i with
  | .powerOnReset => Sys2Proof.Machine.execPowerOnReset s
  | .fundamentalReset => Sys2Proof.Machine.execFundamentalReset s
  | .rstNRise clksel banks => Sys2Proof.Machine.execRstNRise clksel banks s
  | .bootImageVerified slot answers => Sys2Proof.Machine.execBootImageVerified slot answers s
  | .refLoss => Sys2Proof.Machine.execRefLoss s
  | .pllRelock harbour => Sys2Proof.Machine.execPllRelock harbour s
  | .registerWrite src bar write off size val => Sys2Proof.Machine.execRegisterWrite src bar write off size val s
  | .gangwayClose src => Sys2Proof.Machine.execGangwayClose src s
  | .postWriteApply block => Sys2Proof.Machine.execPostWriteApply block s
  | .doorbell src off size val => Sys2Proof.Machine.execDoorbell src off size val s
  | .sqEnable src n => Sys2Proof.Machine.execSqEnable src n s
  | .sqDisable src n => Sys2Proof.Machine.execSqDisable src n s
  | .sqRestart src n => Sys2Proof.Machine.execSqRestart src n s
  | .descriptorFetch n ds => Sys2Proof.Machine.execDescriptorFetch n ds s
  | .fetchFail n how => Sys2Proof.Machine.execFetchFail n how s
  | .chainTimeout n => Sys2Proof.Machine.execChainTimeout n s
  | .nop n => Sys2Proof.Machine.execNop n s
  | .eqEnable src n => Sys2Proof.Machine.execEqEnable src n s
  | .eqDisable src n => Sys2Proof.Machine.execEqDisable src n s
  | .eqHeadWrite src n val => Sys2Proof.Machine.execEqHeadWrite src n val s
  | .eventRecordProduce n r => Sys2Proof.Machine.execEventRecordProduce n r s
  | .eventRecordDeliver n => Sys2Proof.Machine.execEventRecordDeliver n s
  | .imodTimerExpire n => Sys2Proof.Machine.execImodTimerExpire n s
  | .msixUnmask pf vec => Sys2Proof.Machine.execMsixUnmask pf vec s
  | .chartEnable src => Sys2Proof.Machine.execChartEnable src s
  | .chartWrite => Sys2Proof.Machine.execChartWrite s
  | .linkChange rate width mps => Sys2Proof.Machine.execLinkChange rate width mps s
  | .flrRequest => Sys2Proof.Machine.execFlrRequest s
  | .flrResetEdge => Sys2Proof.Machine.execFlrResetEdge s
  | .flrPf1 => Sys2Proof.Machine.execFlrPf1 s
  | .hotReset => Sys2Proof.Machine.execHotReset s
  | .busMasterEnableWrite pf bme msixEn => Sys2Proof.Machine.execBusMasterEnableWrite pf bme msixEn s
  | .quayCommit n => Sys2Proof.Machine.execQuayCommit n s
  | .commitBoundary k => Sys2Proof.Machine.execCommitBoundary k s
  | .commitTimeout k => Sys2Proof.Machine.execCommitTimeout k s
  | .quayDiscard n => Sys2Proof.Machine.execQuayDiscard n s
  | .quayStage n => Sys2Proof.Machine.execQuayStage n s
  | .tideInsert n => Sys2Proof.Machine.execTideInsert n s
  | .tideRemove n => Sys2Proof.Machine.execTideRemove n s
  | .axisRezero n => Sys2Proof.Machine.execAxisRezero n s
  | .axisConvert n => Sys2Proof.Machine.execAxisConvert n s
  | .axisUpdate ax => Sys2Proof.Machine.execAxisUpdate ax s
  | .axisHistorySample => Sys2Proof.Machine.execAxisHistorySample s
  | .tideEntryDue => Sys2Proof.Machine.execTideEntryDue s
  | .tideActionIssue => Sys2Proof.Machine.execTideActionIssue s
  | .tideNop => Sys2Proof.Machine.execTideNop s
  | .pin => Sys2Proof.Machine.execPin s
  | .pulse => Sys2Proof.Machine.execPulse s
  | .pulseEnd out => Sys2Proof.Machine.execPulseEnd out s
  | .capture => Sys2Proof.Machine.execCapture s
  | .event => Sys2Proof.Machine.execEvent s
  | .commit => Sys2Proof.Machine.execCommit s
  | .rezero => Sys2Proof.Machine.execRezero s
  | .castOff => Sys2Proof.Machine.execCastOff s
  | .exposeStart => Sys2Proof.Machine.execExposeStart s
  | .exposeEnd => Sys2Proof.Machine.execExposeEnd s
  | .windowOpen => Sys2Proof.Machine.execWindowOpen s
  | .windowClose => Sys2Proof.Machine.execWindowClose s
  | .land => Sys2Proof.Machine.execLand s
  | .markWindow => Sys2Proof.Machine.execMarkWindow s
  | .hvStep => Sys2Proof.Machine.execHvStep s
  | .htrStep => Sys2Proof.Machine.execHtrStep s
  | .motionStart => Sys2Proof.Machine.execMotionStart s
  | .tideMotionStop => Sys2Proof.Machine.execTideMotionStop s
  | .lawParam => Sys2Proof.Machine.execLawParam s
  | .emuGate => Sys2Proof.Machine.execEmuGate s
  | .manifestHead n => Sys2Proof.Machine.execManifestHead n s
  | .manifestStation n => Sys2Proof.Machine.execManifestStation n s
  | .manifestPath n => Sys2Proof.Machine.execManifestPath n s
  | .manifestWindow n => Sys2Proof.Machine.execManifestWindow n s
  | .manifestTide n => Sys2Proof.Machine.execManifestTide n s
  | .boarded crx => Sys2Proof.Machine.execBoarded crx s
  | .boardingTimeout crx => Sys2Proof.Machine.execBoardingTimeout crx s
  | .crossingAbandon n => Sys2Proof.Machine.execCrossingAbandon n s
  | .pathClear n => Sys2Proof.Machine.execPathClear n s
  | .sheetEdge sensor level ns => Sys2Proof.Machine.execSheetEdge sensor level ns s
  | .abandonComplete crx => Sys2Proof.Machine.execAbandonComplete crx s
  | .engineAbandon => Sys2Proof.Machine.execEngineAbandon s
  | .engineAbandonLaserCut => Sys2Proof.Machine.execEngineAbandonLaserCut s
  | .engineAbandonShutdown => Sys2Proof.Machine.execEngineAbandonShutdown s
  | .sosEdge stn tick pulse => Sys2Proof.Machine.execSosEdge stn tick pulse s
  | .sosWindowExpire stn => Sys2Proof.Machine.execSosWindowExpire stn s
  | .sweepStart stn => Sys2Proof.Machine.execSweepStart stn s
  | .eosEdge stn tick pulse => Sys2Proof.Machine.execEosEdge stn tick pulse s
  | .facetLearnEnd stn => Sys2Proof.Machine.execFacetLearnEnd stn s
  | .markEdge sensor falling time => Sys2Proof.Machine.execMarkEdge sensor falling time s
  | .markWindowClose => Sys2Proof.Machine.execMarkWindowClose s
  | .bandSearchTrial stn count => Sys2Proof.Machine.execBandSearchTrial stn count s
  | .lockWindowEnd stn count vtWarn => Sys2Proof.Machine.execLockWindowEnd stn count vtWarn s
  | .pllLockTimeout stn => Sys2Proof.Machine.execPllLockTimeout stn s
  | .scanRampLoad n data => Sys2Proof.Machine.execScanRampLoad n data s
  | .dotSetLoad n data => Sys2Proof.Machine.execDotSetLoad n data s
  | .rasterRowFetch lt => Sys2Proof.Machine.execRasterRowFetch lt s
  | .rasterReadComplete lt data => Sys2Proof.Machine.execRasterReadComplete lt data s
  | .scrubRead store upset => Sys2Proof.Machine.execScrubRead store upset s
  | .eccInjectArm src => Sys2Proof.Machine.execEccInjectArm src s
  | .hpdChange stn low => Sys2Proof.Machine.execHpdChange stn low s
  | .identityReadDone stn data => Sys2Proof.Machine.execIdentityReadDone stn data s
  | .linkTrainProgress stn report => Sys2Proof.Machine.execLinkTrainProgress stn report s
  | .linkTrainTimeout stn => Sys2Proof.Machine.execLinkTrainTimeout stn s
  | .linkRetrain stn => Sys2Proof.Machine.execLinkRetrain stn s
  | .sidebandReply stn cmd tid payload crc => Sys2Proof.Machine.execSidebandReply stn cmd tid payload crc s
  | .sidebandTimeout stn => Sys2Proof.Machine.execSidebandTimeout stn s
  | .headStatusPoll stn => Sys2Proof.Machine.execHeadStatusPoll stn s
  | .gstat stn sweep whole crcFail => Sys2Proof.Machine.execGstat stn sweep whole crcFail s
  | .gstatMissing stn => Sys2Proof.Machine.execGstatMissing stn s
  | .emitterFault stn emitter cause => Sys2Proof.Machine.execEmitterFault stn emitter cause s
  | .relief stn => Sys2Proof.Machine.execRelief stn s
  | .wearWrite stn => Sys2Proof.Machine.execWearWrite stn s
  | .driveDecision n a b v adc => Sys2Proof.Machine.execDriveDecision n a b v adc s
  | .driveSpeedStep n inp => Sys2Proof.Machine.execDriveSpeedStep n inp s
  | .drvStart src n => Sys2Proof.Machine.execDrvStart src n s
  | .drvStop src n => Sys2Proof.Machine.execDrvStop src n s
  | .findAngle src n => Sys2Proof.Machine.execFindAngle src n s
  | .catchDone n pulses => Sys2Proof.Machine.execCatchDone n pulses s
  | .angleSearchDone n rise fwd rev => Sys2Proof.Machine.execAngleSearchDone n rise fwd rev s
  | .drvOc n a b => Sys2Proof.Machine.execDrvOc n a b s
  | .drvGate n => Sys2Proof.Machine.execDrvGate n s
  | .drvStall n => Sys2Proof.Machine.execDrvStall n s
  | .drvPinLost n inp => Sys2Proof.Machine.execDrvPinLost n inp s
  | .busGroupChange g fault sense => Sys2Proof.Machine.execBusGroupChange g fault sense s
  | .chopSenseFail g => Sys2Proof.Machine.execChopSenseFail g s
  | .motionSample m => Sys2Proof.Machine.execMotionSample m s
  | .motionRun n => Sys2Proof.Machine.execMotionRun n s
  | .motionMove n => Sys2Proof.Machine.execMotionMove n s
  | .motionStop n => Sys2Proof.Machine.execMotionStop n s
  | .motionStopTimeout n => Sys2Proof.Machine.execMotionStopTimeout n s
  | .motionHome n level => Sys2Proof.Machine.execMotionHome n level s
  | .homeEdge m rising => Sys2Proof.Machine.execHomeEdge m rising s
  | .homeTimeout m => Sys2Proof.Machine.execHomeTimeout m s
  | .inposTimeout m => Sys2Proof.Machine.execInposTimeout m s
  | .motionSegLoad n data => Sys2Proof.Machine.execMotionSegLoad n data s
  | .microstepLoad n data => Sys2Proof.Machine.execMicrostepLoad n data s
  | .chopperOnEnd k coilB => Sys2Proof.Machine.execChopperOnEnd k coilB s
  | .chopperOffEnd k coilB => Sys2Proof.Machine.execChopperOffEnd k coilB s
  | .stepperHold k => Sys2Proof.Machine.execStepperHold k s
  | .stpShort k coilB => Sys2Proof.Machine.execStpShort k coilB s
  | .stpOpen k coilB => Sys2Proof.Machine.execStpOpen k coilB s
  | .stpStall k => Sys2Proof.Machine.execStpStall k s
  | .encoderCount p a b => Sys2Proof.Machine.execEncoderCount p a b s
  | .indexEvent p z => Sys2Proof.Machine.execIndexEvent p z s
  | .ssiRequest p dataHigh => Sys2Proof.Machine.execSsiRequest p dataHigh s
  | .ssiFrameDone p bits => Sys2Proof.Machine.execSsiFrameDone p bits s
  | .encoderSpeed p => Sys2Proof.Machine.execEncoderSpeed p s
  | .encSignal p => Sys2Proof.Machine.execEncSignal p s
  | .emuEdge e => Sys2Proof.Machine.execEmuEdge e s
  | .emuOverrun e => Sys2Proof.Machine.execEmuOverrun e s
  | .resync src e => Sys2Proof.Machine.execResync src e s
  | .capstanPeriod beats r => Sys2Proof.Machine.execCapstanPeriod beats r s
  | .loopSampleComplete l => Sys2Proof.Machine.execLoopSampleComplete l s
  | .stale c => Sys2Proof.Machine.execStale c s
  | .lawLoad n data => Sys2Proof.Machine.execLawLoad n data s
  | .lawParamSet n data => Sys2Proof.Machine.execLawParamSet n data s
  | .ffTableLoad n data => Sys2Proof.Machine.execFfTableLoad n data s
  | .hvPwmPeriod h => Sys2Proof.Machine.execHvPwmPeriod h s
  | .hvOver h code => Sys2Proof.Machine.execHvOver h code s
  | .hvArc h => Sys2Proof.Machine.execHvArc h s
  | .arcBlankEnd h => Sys2Proof.Machine.execArcBlankEnd h s
  | .hvRearm src h => Sys2Proof.Machine.execHvRearm src h s
  | .heaterHalfCycle k => Sys2Proof.Machine.execHeaterHalfCycle k s
  | .heaterGateEnd k => Sys2Proof.Machine.execHeaterGateEnd k s
  | .htrRearm src k => Sys2Proof.Machine.execHtrRearm src k s
  | .zcrossEdge => Sys2Proof.Machine.execZcrossEdge s
  | .mainsLost => Sys2Proof.Machine.execMainsLost s
  | .sensorRead die adc => Sys2Proof.Machine.execSensorRead die adc s
  | .dieTrip sensor => Sys2Proof.Machine.execDieTrip sensor s
  | .dieHoldRelease => Sys2Proof.Machine.execDieHoldRelease s
  | .htrHwtrip cmp code us => Sys2Proof.Machine.execHtrHwtrip cmp code us s
  | .fuserCmpRelease cmp code => Sys2Proof.Machine.execFuserCmpRelease cmp code s
  | .coreDroop mv => Sys2Proof.Machine.execCoreDroop mv s
  | .droopRecover => Sys2Proof.Machine.execDroopRecover s
  | .seqGo src => Sys2Proof.Machine.execSeqGo src s
  | .seqDown src => Sys2Proof.Machine.execSeqDown src s
  | .seqbellStageAdvance high => Sys2Proof.Machine.execSeqbellStageAdvance high s
  | .railGood rail code => Sys2Proof.Machine.execRailGood rail code s
  | .stageDwellEnd => Sys2Proof.Machine.execStageDwellEnd s
  | .railUpTimeout rail => Sys2Proof.Machine.execRailUpTimeout rail s
  | .railDownTimeout rail => Sys2Proof.Machine.execRailDownTimeout rail s
  | .railRunFault rail code us => Sys2Proof.Machine.execRailRunFault rail code us s
  | .inputFailure mv us => Sys2Proof.Machine.execInputFailure mv us s
  | .externalEbb ns => Sys2Proof.Machine.execExternalEbb ns s
  | .tShutExpire => Sys2Proof.Machine.execTShutExpire s
  | .tOffMinExpire => Sys2Proof.Machine.execTOffMinExpire s
  | .pwrReq src mode => Sys2Proof.Machine.execPwrReq src mode s
  | .slackDeclared => Sys2Proof.Machine.execSlackDeclared s
  | .mooredEntry => Sys2Proof.Machine.execMooredEntry s
  | .mooredStopTimeout => Sys2Proof.Machine.execMooredStopTimeout s
  | .wake by_ us => Sys2Proof.Machine.execWake by_ us s
  | .mooredExit => Sys2Proof.Machine.execMooredExit s
  | .fenlinkCycle port => Sys2Proof.Machine.execFenlinkCycle port s
  | .fenlinkPoll port => Sys2Proof.Machine.execFenlinkPoll port s
  | .reply port frame => Sys2Proof.Machine.execReply port frame s
  | .replyMissed port node => Sys2Proof.Machine.execReplyMissed port node s
  | .hello port frame => Sys2Proof.Machine.execHello port frame s
  | .nodeListLoad n data => Sys2Proof.Machine.execNodeListLoad n data s
  | .faultRaise src unit inst info live => Sys2Proof.Machine.execFaultRaise src unit inst info live s
  | .faultLatchClear src mask => Sys2Proof.Machine.execFaultLatchClear src mask s
  | .faultPairChange pair a b us => Sys2Proof.Machine.execFaultPairChange pair a b us s
  | .interlockChange input level ns => Sys2Proof.Machine.execInterlockChange input level ns s
  | .lanternToggle => Sys2Proof.Machine.execLanternToggle s
  | .ferryWd => Sys2Proof.Machine.execFerryWd s
  | .ferrymanReArm => Sys2Proof.Machine.execFerrymanReArm s
  | .lighterCopy n => Sys2Proof.Machine.execLighterCopy n s
  | .lighterTransferComplete lt => Sys2Proof.Machine.execLighterTransferComplete lt s
  | .lighterReadFail lt how => Sys2Proof.Machine.execLighterReadFail lt how s
  | .drainTimeout lt => Sys2Proof.Machine.execDrainTimeout lt s
  | .imageStage n data => Sys2Proof.Machine.execImageStage n data s
  | .imageSwitch n => Sys2Proof.Machine.execImageSwitch n s
  | .imageHandover => Sys2Proof.Machine.execImageHandover s
  | .imageSwitchTimeout => Sys2Proof.Machine.execImageSwitchTimeout s
  | .handoverArmTimeout => Sys2Proof.Machine.execHandoverArmTimeout s
  | .flashWrite n inTime => Sys2Proof.Machine.execFlashWrite n inTime s
  | .unitLayup n => Sys2Proof.Machine.execUnitLayup n s
  | .layupApply k => Sys2Proof.Machine.execLayupApply k s
  | .laidUp k => Sys2Proof.Machine.execLaidUp k s
  | .layupTimeout k => Sys2Proof.Machine.execLayupTimeout k s
  | .unitReadmit n => Sys2Proof.Machine.execUnitReadmit n s
  | .logbookWrite n data => Sys2Proof.Machine.execLogbookWrite n data s
  | .crossingCounterWrite => Sys2Proof.Machine.execCrossingCounterWrite s
  | .journalEntryWrite kind data => Sys2Proof.Machine.execJournalEntryWrite kind data s
  | .lbAddrWrite src word => Sys2Proof.Machine.execLbAddrWrite src word s
  | .inputGood mv => Sys2Proof.Machine.execInputGood mv s
  | .ebbNRelease => Sys2Proof.Machine.execEbbNRelease s
  | .seqbellGlitch => Sys2Proof.Machine.execSeqbellGlitch s
  | .beamLinkTrainRetry stn => Sys2Proof.Machine.execBeamLinkTrainRetry stn s
  | .scanPllRetry stn => Sys2Proof.Machine.execScanPllRetry stn s
  | .angleSearchRetry n => Sys2Proof.Machine.execAngleSearchRetry n s
  | .encSignalRestored p => Sys2Proof.Machine.execEncSignalRestored p s
  | .dfltRelease n => Sys2Proof.Machine.execDfltRelease n s
  | .busReactionEnd g => Sys2Proof.Machine.execBusReactionEnd g s
  | .lighterReadComplete lt data => Sys2Proof.Machine.execLighterReadComplete lt data s

end Sys2Proof.Machine
end

