-- ==== Sys2Proof/Machine/Flags.lean ====
section
/-! DEFINITION. The levels of the output pins, computed from the state: gates of the drive and stepper channels, HVPWM, HTRG,
LEN, the rail enables, EBB_N, SEQBELL, LANTERN and the GPIO outputs. Rise times are not modelled (log 2). -/

namespace Sys2Proof.Machine

/-- The level of an output pin: high-impedance, low or high (R374). -/
inductive Lvl where
  | z | low | high
deriving DecidableEq, Repr

/-- The level that drives a pin active or inactive with polarity bit `pol` (1 = active low); high-impedance in reset (R374). -/
def State.pin (s : State) (pol active : Bool) : Lvl :=
  if s.boot.rstLow then .z else if active != pol then .high else .low

/-- The drive gates are held at the pin (R302, R331, R342). -/
def State.drvHeld (s : State) : Bool := s.allHeld || s.intlkAny fun i => s.on Reg.IO_INTLK_ROUTE_DRV_ALL i
/-- The stepper gates are held at the pin (R302, R331, R342). -/
def State.stpHeld (s : State) : Bool := s.allHeld || s.intlkAny fun i => s.on Reg.IO_INTLK_ROUTE_STP_ALL i

/-- Drive channel `n` drives its bridge (R210, R220, R223): not in OFF, TRIPPED, a HELD that coasts, Moored, nor held at the
pin. -/
def State.drvGatesOn (s : State) (n : Nat) : Bool :=
  !(s.dst n == Dst.off || s.dst n == Dst.tripped || 
      (s.dst n == Dst.held && decide (2 ≤ s.lv Reg.DRV_CFG_STOP_MODE n) && !(s.buss (s.lv Reg.DRV_CFG_BUS_GRP n)).ovr) ||
    s.rd Reg.PWR_STAT_MODE == 2 || s.drvHeld)

/-- The gates AH, AL, BH, BL, CH, CL of drive channel `n` that are active (R210): in a leg that changed at the last decision the switch that turns
on follows after the dead time. In CATCH and SEARCH the gates carry the pulses of `Out.pulses`, not the vector. -/
def State.drvGates (s : State) (n : Nat) : List Bool :=
  let d := s.drvs n
  let free := decide (d.decAt + 2 * s.lv Reg.DRV_DT_DT n ≤ s.now)
  let on := s.drvGatesOn n && s.dst n != Dst.catch_ && s.dst n != Dst.search
  ((legs d.prev).zip (legs d.vec)).flatMap fun l =>
    let live := on && (l.1 == l.2 || free)
    [live && l.2, live && !l.2]

/-- The levels of DGn_AH–DGn_CL (R210). -/
def State.drvPins (s : State) (n : Nat) : List Lvl :=
  (s.drvGates n).zipIdx.map fun g => s.pin (bitOf (s.lv Reg.DRV_DT_GATE_POL n) g.2) g.1

/-- The gates 1H, 1L, 2H, 2L that a coil has on in its phase (R243): in a leg that switched, the switch that turns on follows after the
dead time of `dt` ns. -/
def Coil.gates (c : Coil) (dt now : Nat) : List Bool :=
  [0, 1].flatMap fun l =>
    let high := bitOf c.legs l
    let live := high == bitOf c.was l || decide (c.swAt + dt ≤ now)
    [live && high, live && !high]

/-- The gates of stepper channel `k` that are active, coil A then coil B (R243, R245). -/
def State.stpGates (s : State) (k : Nat) : List Bool :=
  let on := (s.rd Reg.STP_STAT_STATE k == 1 || s.rd Reg.STP_STAT_STATE k == 2) && !s.stpHeld
  let dt := 2 * s.lv Reg.STP_CHOP_DT k
  ((s.stps k).a.gates dt s.now ++ (s.stps k).b.gates dt s.now).map fun g => on && g

/-- The levels of STGk_A1H–STGk_B2L (R243). -/
def State.stpPins (s : State) (k : Nat) : List Lvl :=
  (s.stpGates k).zipIdx.map fun g => s.pin (bitOf (s.lv Reg.STP_GATE_GATE_POL k) g.2) g.1

/-- Cycles of the present PWM period over which HVPWMh is active (R286, R290, R342). -/
def State.hvCycles (s : State) (h : Nat) : Nat :=
  if s.hvHeld || !(s.hst h == Hst.run || s.hst h == Hst.down) then 0 else (s.hvs h).duty

/-- The level of HVPWMh: active for those cycles from the start of the period (R286). -/
def State.hvPin (s : State) (h : Nat) : Lvl :=
  s.pin (s.lon Reg.HV_CFG_POL h) (decide (s.now < (s.hvs h).startAt + 2 * s.hvCycles h))

/-- The level of HTRGk (R295, R296, R303, R342). -/
def State.htrPin (s : State) (k : Nat) : Lvl := s.pin (s.lon Reg.HTR_CFG_POL k) (s.htrOn k)

/-- The level of LENs, active high (R201). -/
def State.lenLevel (s : State) (n : Nat) : Lvl := s.pin false (s.on Reg.BL_STAT_LEN n)

/-- The level of RAILENn (R305). -/
def State.railPin (s : State) (n : Nat) : Lvl := s.pin (s.on Reg.RAIL_CFG_EN_POL n) (s.on Reg.RAIL_STAT_ON n)

/-- EBB_N and SEQBELL are open-drain: pulled low or released (R306, R309). -/
def State.ebbPin (s : State) : Lvl := if !s.boot.rstLow && (s.sequ.ownEbb || s.sequ.idleEbb) then .low else .z
def State.bellPin (s : State) : Lvl := if !s.boot.rstLow && s.bellPull then .low else .z

/-- The level of LANTERN (R337). -/
def State.lanternPin (s : State) : Lvl := s.pin false s.lantern

/-- The level of GPIOn (R339): released, low, high, or for an open-drain output low or released. -/
def State.gpioPin (s : State) (n : Nat) : Lvl :=
  if s.boot.rstLow || !s.lon Reg.IO_GPIO_CFG_OUT n then .z
  else match tget 0 s.io n with
    | 1 => .low
    | 2 => if s.lon Reg.IO_GPIO_CFG_OD n then .z else .high
    | _ => .z

/-- The levels of EMUe_A, EMUe_B, EMUe_Z (R258, R260). -/
def State.emuPins (s : State) (e : Nat) : List Lvl :=
  [s.pin false (s.emus e).a, s.pin false (s.emus e).b, s.pin false (s.emuZ e)]

/-- The level of ENCp_CLK (R247, R248): driven in mode 2 only, where it shares the pair of ENCp_Z. -/
def State.encClkPin (s : State) (p : Nat) : Lvl := if s.lv Reg.ENC_CFG_MODE p = 2 then s.pin false (s.ssiClock p) else .z

end Sys2Proof.Machine
end

