-- ==== Sys2Proof/Safety.lean ====
section
/-! DEFINITION. What every state of a run satisfies: the tables that hold the device's registers and stores are in canonical
form, and the buffers of R14, R56 and R73 never hold more than the manual gives them. -/

namespace Sys2Proof.Machine

/-- Every sparse table of the state is in canonical form: keys rising, no entry equal to what an unlisted key reads as. -/
def State.storesWf (s : State) : Prop :=
  (Tbl.wf SqSt.init s.sq = true ∧
   Tbl.wf EqSt.init s.eq = true ∧
   Tbl.wf none s.post = true ∧
   Tbl.wf none s.lowLatch = true ∧
   Tbl.wf 0 s.logbook = true ∧
   Tbl.wf false s.causes = true ∧
   Tbl.wf none s.lastRec = true ∧
   Tbl.wf false s.boomed = true) ∧
  (Tbl.wf false s.laid = true ∧
   Tbl.wf [] s.flips = true ∧
   Tbl.wf false s.poison = true ∧
   Tbl.wf 0 s.scrubPos = true ∧
   Tbl.wf 0 s.scrubDue = true ∧
   Tbl.wf none s.tide = true ∧
   Tbl.wf false s.tideArmed = true ∧
   Tbl.wf 0xFF s.tideOwner = true) ∧
  (Tbl.wf false s.axDisc = true ∧
   Tbl.wf [] s.hist = true ∧
   Tbl.wf 0 s.io = true ∧
   Tbl.wf none s.pulses = true ∧
   Tbl.wf false s.nodeLaid = true ∧
   Tbl.wf Stn.init s.stn = true ∧
   Tbl.wf RLt.init s.rlt = true ∧
   Tbl.wf 0 s.hold = true) ∧
  (Tbl.wf Spll.init s.spll = true ∧
   Tbl.wf Ramp.init s.ramps = true ∧
   Tbl.wf Bl.init s.bl = true ∧
   Tbl.wf Drv.init s.drv = true ∧
   Tbl.wf BusGrp.init s.bus = true ∧
   Tbl.wf Mot.init s.mot = true ∧
   Tbl.wf Seg.init s.segs = true ∧
   Tbl.wf Stp.init s.stp = true) ∧
  (Tbl.wf none s.ustep = true ∧
   Tbl.wf Enc.init s.enc = true ∧
   Tbl.wf Emu.init s.emu = true ∧
   Tbl.wf Loop.init s.loop = true ∧
   Tbl.wf 0 s.lparam = true ∧
   Tbl.wf 0 s.lword = true ∧
   Tbl.wf 0 s.block = true ∧
   Tbl.wf 0 s.ff = true) ∧
  (Tbl.wf Cap.init s.cap = true ∧
   Tbl.wf Hv.init s.hv = true ∧
   Tbl.wf Htr.init s.htr = true ∧
   Tbl.wf none s.tEff = true ∧
   Tbl.wf [] s.xfer = true ∧
   Tbl.wf FPort.init s.fport = true ∧
   Tbl.wf FNode.init s.fnode = true ∧
   Tbl.wf 63 s.rrSq = true) ∧
  (Tbl.wf 0 s.scrubAt = true ∧
   Tbl.wf 256 s.thrWant = true ∧
   Tbl.wf 0 s.fusAt = true ∧
   Tbl.wf 0 s.raisedAt = true)

/-- The tables whose entries differ in their reset value list their keys in rising order. -/
def State.keysRise (s : State) : Prop :=
  trising s.regs = true ∧ trising s.quay = true ∧ trising s.live = true ∧ trising s.msixTab = true ∧
    trising s.edgeRegs = true ∧ trising s.cfg = true ∧ trising (s.edgeLive.getD []) = true

/-- No buffer holds more than the manual gives it: 256 records in holdover (R56) and in each ring's share of the staging buffer
(R14), 8 pending commits (R73). -/
def State.bounded (s : State) : Prop :=
  s.holdover.length ≤ 256 ∧ (∀ e ∈ s.eq, e.2.share.length ≤ 256) ∧ s.commits.length ≤ 8

/-- The invariant of the device. -/
def State.Inv (s : State) : Prop := s.storesWf ∧ s.keysRise ∧ s.bounded

/-- From `s` to `t` nothing changed but what a completion, a record or the reaction to a fault may change (R42, R49, R331–R336):
registers, the quay and live sets, records and messages, pending commits, booms, and the channels that a reaction stops. -/
def State.Reacts (s t : State) : Prop :=
  t = { s with regs := t.regs, quay := t.quay, live := t.live, pf0 := t.pf0, pf1 := t.pf1, sq := t.sq, eq := t.eq,
               holdover := t.holdover, commits := t.commits, out := t.out, free := t.free, lbDue := t.lbDue,
               causes := t.causes, lastRec := t.lastRec, boomed := t.boomed, abCauses := t.abCauses, stn := t.stn,
               fnode := t.fnode, drv := t.drv, mot := t.mot, stopWaits := t.stopWaits, stp := t.stp, hv := t.hv,
               htr := t.htr, loop := t.loop, bl := t.bl, raisedAt := t.raisedAt }

/-! ### Terms that statements use -/

/-- From `s` to `t` no register changed but those whose keys are listed. -/
def State.RegsBut (s t : State) (ks : List Nat) : Prop := ∀ d k, k ∉ ks → tget d t.regs k = tget d s.regs k

/-- A register access through `src` reaches offset `off`: BAR0 answers, the function owns the target, its block is awake
(R29, R30, R311, R353). -/
abbrev State.Granted (s : State) (src : Port) (off : Nat) : Prop :=
  s.barOpen src off = true ∧ (portPf src = none ∨ ((s.ownerOf off = none ∨ s.ownerOf off = portPf src) ∧ s.asleep off = false))

/-- Descriptor `d` with opcode `opc` is the first accepted descriptor of ring `n`, and its fence lets it start (R39). -/
abbrev State.Ready (s : State) (n opc : Nat) (d : Desc) : Prop :=
  (s.sqs n).accepted.head? = some d ∧ dOpc d = opc ∧ (dFence d = true → (s.sqs n).running = 0)

/-- The descriptor as it starts: its ring's event ring and function go with it (R49). -/
def State.jobOf (s : State) (n : Nat) (d : Desc) : Job := ⟨n, s.rd Reg.SQ_CFG_EQ n, s.ownSq n, d⟩

/-- Event ring `e` has room in its share of the staging buffer and is not in holdover (R14, R56). -/
abbrev State.Room (s : State) (e : Nat) : Prop := (s.eqs e).held = false ∧ (s.eqs e).share.length < 256

/-- The record as a ring takes it at state `s`: stamped with device time (R45). -/
def State.stamped (s : State) (r : Rec) : Rec := { r with stamp := s.stamp, degraded := s.degraded }

/-- From `s` to `t` descriptor `d` of ring `n` started and has completed with `status` and `data`: it has left the ring, and its
record, unless FLG.QUIET meets OK, is the last one that waits for its event ring (R39, R42, R45, R49). -/
abbrev State.Done (s t : State) (n : Nat) (d : Desc) (status data : Nat) : Prop :=
  (t.sqs n).accepted = (s.sqs n).accepted.tail ∧ (t.sqs n).running = (s.sqs n).running ∧
    (t.eqs (s.rd Reg.SQ_CFG_EQ n)).share = (s.eqs (s.rd Reg.SQ_CFG_EQ n)).share ++
      (if dQuiet d = true ∧ status = St.ok then [] else [s.stamped (completionRec (s.jobOf n d) status data)])

/-- From `s` to `t` descriptor `d` of ring `n` has started and still runs (R39). -/
abbrev State.Started (s t : State) (n : Nat) : Prop :=
  (t.sqs n).accepted = (s.sqs n).accepted.tail ∧ (t.sqs n).running = (s.sqs n).running + 1

/-- From `s` to `t` record `r` was handed to event ring `e`, which had room, and nothing else went to it (R14, R45). -/
abbrev State.Told (s t : State) (e : Nat) (r : Rec) : Prop := (t.eqs e).share = (s.eqs e).share ++ [s.stamped r]

/-- No error injection is armed (R22). -/
abbrev State.Calm (s : State) : Prop := s.on Reg.DIAG_ECC_INJ_ARM = false

/-- Word `w` of store `st` holds a good codeword (R18, R21). -/
abbrev State.Sound (s : State) (st w : Nat) : Prop :=
  tget false s.poison (wordKey st w) = false ∧ tget [] s.flips (wordKey st w) = []

/-- The state as descriptor work on ring `n` begins: its front descriptor has left the accepted ones and runs (R39). -/
def State.begun (s : State) (n : Nat) : State :=
  s.setSq n { s.sqs n with accepted := (s.sqs n).accepted.tail, running := (s.sqs n).running + 1 }

/-- Decided action `d` with code `code` is the first issued, was decided on time, and its target is not fenced (R84, R92); no TIDE_INSERT
waits for records (R89). -/
abbrev State.OnTime (s : State) (code : Nat) (d : Decided) : Prop :=
  s.issued.head? = some d ∧ d.e.action = code ∧ d.late = false ∧ s.actFenced d = false ∧ s.tideWaits = []

/-- The state once the first issued action has been taken (R86). -/
abbrev State.issueTaken (s : State) : State := { s with issued := s.issued.tail }

end Sys2Proof.Machine
end

