-- ==== Sys2Proof/Certificates/Slice0/Obligations.lean ====
section
/-! DEFINITION. The statements for the provers. -/

open Sys2Proof Sys2Proof.Machine

/-- The block takes its commands first in, first out (the model's own queue, log 14): with command c at the front of the queue, a step is exec of c on the state whose queue is the rest. The model's choice (log 15): on an empty queue a step changes nothing. -/
def Obligations.StepRunsTheFrontCommand : Prop :=
  (∀ (c : Instr) (rest : List Instr) (s : State), s.pending = c :: rest → step s = exec c { s with pending := rest }) ∧
  (∀ s : State, s.pending = [] → step s = .next s)

/-- POWER_ON_RESET completes in every state: every field of the state is at its reset value but the queue, the model's own trace and free counter, the boot flash, the OTP, the log book with the counters still due to it, and GEN_RESET_CAUSE, which says power on. -/
def Obligations.ResetState : Prop :=
  ∀ s : State, ∃ t, exec .powerOnReset s = .next t ∧ t.rd Reg.GEN_RESET_CAUSE_CAUSE = 1 ∧
    State.RegsBut State.reset t [Reg.GEN_RESET_CAUSE_CAUSE.key 0 0] ∧
    t = { State.reset with pending := s.pending, free := s.free, out := s.out, flash0 := s.flash0, flash1 := s.flash1,
                           otp := s.otp, logbook := s.logbook, regs := t.regs, lbDue := s.lbDue.filter (· == 3) ++ [0] }

/-- State.reset: every sparse table in canonical form, no buffer beyond its size (the tables' form is the model's own). -/
def Obligations.ResetMeetsTheInvariant : Prop := State.reset.Inv

/-- From every state that satisfies Inv, whatever command is at the front of the queue, a step answers a state that satisfies Inv: tables in canonical form; at most 256 records in holdover (R56) and in each event ring's share of the staging buffer (R14); at most 8 pending commits (R73). -/
def Obligations.EveryStepKeepsTheInvariant : Prop :=
  ∀ s : State, s.Inv → ∃ t, step s = .next t ∧ t.Inv

/-- From every state that satisfies the invariant, over any number of steps: what the device has sent (records, messages, frames, log-book words) is never altered, later emissions only follow it, and each step takes exactly one command from the queue, whatever it is; no command adds to the queue. -/
def Obligations.EmissionsAreNeverTakenBack : Prop :=
  ∀ (n : Nat) (s : State), s.Inv → ∃ t, Nat.repeat (fun (o : Host.Outcome State Fault Refusal) => match o with | .next u => step u | o => o) n (.next s) = Host.Outcome.next t ∧
    t.pending = s.pending.drop n ∧ s.out <:+ t.out

/-- For every command c (each of the 231 rows of the table, whatever its operands) and every state that satisfies the invariant, exec c answers a next state: no command stops the device. That state satisfies the invariant, the commands that wait are untouched, and what the device has emitted stays emitted. What else each row does there, the statements of its own say. -/
def Obligations.EveryCommandCompletes : Prop :=
  ∀ (c : Instr) (s : State), s.Inv → ∃ t, exec c s = .next t ∧ t.Inv ∧ t.pending = s.pending ∧ s.out <:+ t.out

/-- Where the access is granted: SQ_ENABLE on a ring whose EN is 0 sets EN, zeroes head and tail, sets the expected SEQ to SEQ_INIT and clears HALT (R36); SQ_DISABLE clears EN, drops a chain not yet accepted whole and leaves head and accepted descriptors (R40); SQ_RESTART clears HALT (R41). Nothing else of the device changes. A 4-byte write at n × 0x1000 by the function that owns enabled ring n, of size N: a tail at or past N, or one that moves back over descriptors posted and not accepted, halts the ring with BAD_DESC and captures the old tail (unless it is halted already); a tail equal to the present one changes nothing; any other becomes the tail, and a chain that waited to be posted whole waits no longer (R38); the doorbell is a wake source (R312), and no other ring changes. -/
def Obligations.SubmissionRingsAreControlled : Prop :=
  (∀ (src : Port) (n : Nat) (s : State), n < 64 → s.Granted src (Reg.SQ_CTL_EN.addr n 0) →
    (s.on Reg.SQ_CTL_EN n = false → ∃ t, exec (.sqEnable src n) s = .next t ∧ t.on Reg.SQ_CTL_EN n = true ∧
      t.rd Reg.SQ_HEAD_HEAD n = 0 ∧ t.rd Reg.SQ_TAIL_TAIL n = 0 ∧ t.on Reg.SQ_STAT_HALT n = false ∧
      t.rd Reg.SQ_SEQ_SEQ_NEXT n = s.rd Reg.SQ_SEQ_SEQ_INIT n % 2 ^ 16 ∧ (t.sqs n).accepted = (s.sqs n).accepted ∧
      (∀ m, m ≠ n → t.sqs m = s.sqs m) ∧ t = { s with regs := t.regs, sq := t.sq } ∧
      State.RegsBut s t [Reg.SQ_CTL_EN.key n 0, Reg.SQ_HEAD_HEAD.key n 0, Reg.SQ_TAIL_TAIL.key n 0, Reg.SQ_SEQ_SEQ_NEXT.key n 0, Reg.SQ_STAT_HALT.key n 0]) ∧
    (∃ t, exec (.sqDisable src n) s = .next t ∧ t.on Reg.SQ_CTL_EN n = false ∧ (t.sqs n).part = [] ∧
      t.rd Reg.SQ_HEAD_HEAD n = s.rd Reg.SQ_HEAD_HEAD n ∧ (t.sqs n).accepted = (s.sqs n).accepted ∧ (t.sqs n).running = (s.sqs n).running ∧
      (∀ m, m ≠ n → t.sqs m = s.sqs m) ∧ t = { s with regs := t.regs, sq := t.sq } ∧ State.RegsBut s t [Reg.SQ_CTL_EN.key n 0]) ∧
    ∃ t, exec (.sqRestart src n) s = .next t ∧ t.on Reg.SQ_STAT_HALT n = false ∧ t = { s with regs := t.regs } ∧
      State.RegsBut s t [Reg.SQ_STAT_HALT.key n 0]) ∧
  (∀ (src : Port) (n v : Nat) (s : State), n < 64 → v < 2 ^ 16 → portPf src = some (s.ownSq n) → s.on Reg.SQ_CTL_EN n = true →
    ∃ t, exec (.doorbell src (n * 0x1000) 4 v) s = .next t ∧
      (let N := s.sqSize n; let h := s.rd Reg.SQ_HEAD_HEAD n; let old := s.rd Reg.SQ_TAIL_TAIL n
       if N ≤ v ∨ (v ≠ old ∧ (v + N - h) % N < (old + N - h) % N) then
         t.on Reg.SQ_STAT_HALT n = true ∧ t.rd Reg.SQ_TAIL_TAIL n = old ∧
           (s.on Reg.SQ_STAT_HALT n = false → s.Room (s.rd Reg.SQ_CFG_EQ n) → t.rd Reg.SQ_STAT_HALT_CODE n = St.badDesc ∧ t.rd Reg.SQ_STAT_HALT_SLOT n = old % 2 ^ 16) ∧
           t = { s with regs := t.regs, sq := t.sq, eq := t.eq, holdover := t.holdover, post := t.post, pwr := t.pwr }
       else if v = old then t.rd Reg.SQ_TAIL_TAIL n = old ∧ t.rd Reg.SQ_STAT_HALT n = s.rd Reg.SQ_STAT_HALT n ∧
         t = { s with regs := t.regs, post := t.post, pwr := t.pwr } ∧ State.RegsBut s t [Reg.PWR_STAT_CHANGING.key 0 0, Reg.PWR_STAT_LAST_WAKE.key 0 0]
       else t.rd Reg.SQ_TAIL_TAIL n = v ∧ ((s.sqs n).chainNeed ≤ t.posted n → (t.sqs n).chainAt = none) ∧
         (t.sqs n).accepted = (s.sqs n).accepted ∧ (t.sqs n).part = (s.sqs n).part ∧ (∀ m, m ≠ n → t.sqs m = s.sqs m) ∧
         t = { s with regs := t.regs, sq := t.sq, post := t.post, pwr := t.pwr } ∧
         State.RegsBut s t [Reg.SQ_TAIL_TAIL.key n 0, Reg.PWR_STAT_CHANGING.key 0 0, Reg.PWR_STAT_LAST_WAKE.key 0 0]))

/-- Ring n may fetch, has posted a descriptor, is not inside a chain and it is its turn (R39); no injected fabric error meets the read of its slot. A descriptor whose LINK is 0, whose header passes R44 and whose SEQ is due (or unchecked) is accepted behind the others; the head and the expected SEQ move on by one (R38, R44); no record is produced. One whose SEQ is wrong completes with BAD_DESC and halts the ring at its own slot (R41, R44). A failed fetch of an enabled ring that has posted descriptors halts it with TIMEOUT, ECC or BAD_DESC, by how the read ended (R34); a chain whose rest is not posted within DESC_FETCH_MS halts it with TIMEOUT (R38). HALT_SLOT is the slot of the first descriptor, HALT and its code are captured, one halt record goes to the ring's event ring, and the head stays (R41). A NOP at the front of ring n, whose event ring has room: it leaves the ring and its record says OK, or BAD_DESC where bytes 16 to 63 are not all zero (R5, R43); FLG.QUIET drops the record of an OK (R42); nothing else of the device changes, and no other ring. -/
def Obligations.DescriptorsAreAcceptedOrTheRingHalts : Prop :=
  (∀ (n : Nat) (d : Desc) (s : State), n < 64 → s.rd Reg.SQ_HEAD_HEAD n < s.sqSize n → s.fetchOk n = true → 1 ≤ s.posted n → s.sqTurn = some n → (s.sqs n).part = [] → s.Calm → dLink d = 0 →
    ((s.on Reg.SQ_CFG_SEQ_CHK n = false ∨ dSeq d = s.rd Reg.SQ_SEQ_SEQ_NEXT n % 2 ^ 16) → headerOk d 0 = true →
      ∃ t, exec (.descriptorFetch n [d]) s = .next t ∧ (t.sqs n).accepted = (s.sqs n).accepted ++ [d] ∧
        t.rd Reg.SQ_HEAD_HEAD n = (s.rd Reg.SQ_HEAD_HEAD n + 1) % s.sqSize n ∧
        t.rd Reg.SQ_SEQ_SEQ_NEXT n = (s.rd Reg.SQ_SEQ_SEQ_NEXT n + 1) % 2 ^ 16 ∧ (∀ m, m ≠ n → t.sqs m = s.sqs m) ∧
        t.out = .hostRead (s.sqBase n + 64 * s.rd Reg.SQ_HEAD_HEAD n) 64 :: s.out ∧
        t = { s with regs := t.regs, sq := t.sq, rrSq := t.rrSq, out := t.out } ∧ State.RegsBut s t [Reg.SQ_HEAD_HEAD.key n 0, Reg.SQ_SEQ_SEQ_NEXT.key n 0]) ∧
    (s.on Reg.SQ_CFG_SEQ_CHK n = true → dSeq d ≠ s.rd Reg.SQ_SEQ_SEQ_NEXT n % 2 ^ 16 → (s.eqs (s.rd Reg.SQ_CFG_EQ n)).held = false →
      (s.eqs (s.rd Reg.SQ_CFG_EQ n)).share.length < 255 →
      ∃ t, exec (.descriptorFetch n [d]) s = .next t ∧ t.on Reg.SQ_STAT_HALT n = true ∧ t.rd Reg.SQ_STAT_HALT_CODE n = St.badDesc ∧
        t.rd Reg.SQ_HEAD_HEAD n = s.rd Reg.SQ_HEAD_HEAD n ∧ (t.sqs n).accepted = (s.sqs n).accepted ∧
        (t.eqs (s.rd Reg.SQ_CFG_EQ n)).share.length = (s.eqs (s.rd Reg.SQ_CFG_EQ n)).share.length + 2)) ∧
  (∀ (n : Nat) (s : State), n < 64 → s.on Reg.SQ_STAT_HALT n = false → s.on Reg.SQ_CTL_EN n = true → s.Room (s.rd Reg.SQ_CFG_EQ n) →
    (let halts (t : State) (code slot : Nat) : Prop :=
      t.on Reg.SQ_STAT_HALT n = true ∧ t.rd Reg.SQ_STAT_HALT_CODE n = code ∧ t.rd Reg.SQ_STAT_HALT_SLOT n = slot % 2 ^ 16 ∧
        (t.sqs n).part = [] ∧ (t.sqs n).chainAt = none ∧ t.rd Reg.SQ_HEAD_HEAD n = s.rd Reg.SQ_HEAD_HEAD n ∧
        s.Told t (s.rd Reg.SQ_CFG_EQ n) ⟨0, code, n + 2 ^ 14 + 2 ^ 15 * s.ownSq n, 0, 0, 0, 0, false, slot⟩ ∧
        t = { s with regs := t.regs, sq := t.sq, eq := t.eq }
     (∀ how : ReadEnd, s.posted n ≠ 0 → ∃ t, exec (.fetchFail n how) s = .next t ∧
        halts t (match how with | .timeout => St.timeout | .poisoned => St.ecc | .ur => St.badDesc | .ca => St.badDesc)
          ((s.rd Reg.SQ_HEAD_HEAD n + (s.sqs n).part.length) % s.sqSize n)) ∧
     (∀ t0, (s.sqs n).chainAt = some t0 → s.posted n < (s.sqs n).chainNeed → (s.pf (s.ownSq n)).bme = true → t0 + (s.sqs n).chainLost + s.descFetchNs ≤ s.now →
        ∃ t, exec (.chainTimeout n) s = .next t ∧ halts t St.timeout (s.rd Reg.SQ_HEAD_HEAD n)))) ∧
  (∀ (n : Nat) (d : Desc) (s : State), s.Ready n 0x00 d → s.Room (s.rd Reg.SQ_CFG_EQ n) →
    ∃ t, exec (.nop n) s = .next t ∧ s.Done t n d (if dZero d 16 64 then St.ok else St.badDesc) 0 ∧
      t = { s with sq := t.sq, eq := t.eq } ∧ (∀ m, m ≠ n → t.sqs m = s.sqs m) ∧ ∀ e, e ≠ s.rd Reg.SQ_CFG_EQ n → t.eqs e = s.eqs e)

/-- Where the access is granted: EQ_ENABLE of a ring whose EN is 0 and that has nothing waiting starts it at head 0, tail 0, phase 1 and ends its holdover (R46, R56); EQ_DISABLE clears EN and nothing else (R14); EQ_HEAD takes a head between the old one and the tail, and any other write leaves it and sets HEAD_ERR (R47). A record handed to ring n waits last in the ring's share of the staging buffer; with the share full it is lost and counted (R14, R48); with the ring in holdover it goes to the holdover buffer while that has room (R56). A ready ring writes the 32 bytes of the first record that waits at EQ_BASE + 32 × its tail with the present phase; the tail moves on, and past the last slot it returns to 0 with the phase inverted (R45, R46). IMOD_TIME after the first unsignalled record the ring's vector is signalled: sent where MSI-X is enabled, the vector unmasked and Bus Master Enable 1, held pending where it is masked or Bus Master Enable is 0 (R31, R50). Clearing a vector's mask bit sends its pending message once, where it may go (R31). A configuration write sets the two enables of its function and no other function's (R391). -/
def Obligations.EventRingsAndTheirMessages : Prop :=
  (∀ (src : Port) (n : Nat) (s : State), n < 16 →
    (s.Granted src (Reg.EQ_CTL_EN.addr n 0) → s.on Reg.EQ_CTL_EN n = false → (s.eqs n).share = [] → (s.eqs n).owed = 0 →
      (s.holdover.any fun x => x.1 == n) = false →
      ∃ t, exec (.eqEnable src n) s = .next t ∧ t.on Reg.EQ_CTL_EN n = true ∧ t.rd Reg.EQ_HEAD_HEAD n = 0 ∧ t.rd Reg.EQ_TAIL_TAIL n = 0 ∧
        t.rd Reg.EQ_TAIL_PHASE n = 1 ∧ (t.eqs n).held = false ∧ (∀ m, m ≠ n → t.eqs m = s.eqs m) ∧ t = { s with regs := t.regs, eq := t.eq }) ∧
    (s.Granted src (Reg.EQ_CTL_EN.addr n 0) →
      ∃ t, exec (.eqDisable src n) s = .next t ∧ t.on Reg.EQ_CTL_EN n = false ∧ t = { s with regs := t.regs } ∧
        State.RegsBut s t [Reg.EQ_CTL_EN.key n 0]) ∧
    (∀ v, v < 2 ^ 16 → s.Granted src (Reg.EQ_HEAD_HEAD.addr n 0) →
      ∃ t, exec (.eqHeadWrite src n v) s = .next t ∧
        (if s.eqSize n ≤ v ∨ (s.rd Reg.EQ_TAIL_TAIL n + s.eqSize n - s.rd Reg.EQ_HEAD_HEAD n) % s.eqSize n < (v + s.eqSize n - s.rd Reg.EQ_HEAD_HEAD n) % s.eqSize n
         then t.on Reg.EQ_STAT_HEAD_ERR n = true ∧ State.RegsBut s t [Reg.EQ_STAT_HEAD_ERR.key n 0]
         else t.rd Reg.EQ_HEAD_HEAD n = v ∧ State.RegsBut s t [Reg.EQ_HEAD_HEAD.key n 0]) ∧ t = { s with regs := t.regs })) ∧
  (∀ (n : Nat) (s : State), n < 16 →
    (∀ r : Rec, ∃ t, exec (.eventRecordProduce n r) s = .next t ∧
      (s.Room n → s.Told t n r ∧ t = { s with eq := t.eq } ∧ ∀ m, m ≠ n → t.eqs m = s.eqs m) ∧
      ((s.eqs n).held = false → 256 ≤ (s.eqs n).share.length → (t.eqs n).share = (s.eqs n).share ∧ (t.eqs n).owed = (s.eqs n).owed + 1 ∧
        t.rd Reg.EQ_STAT_LOST n = min (2 ^ 16 - 1) (s.rd Reg.EQ_STAT_LOST n + 1)) ∧
      ((s.eqs n).held = true → (s.eqs n).share = [] → s.holdover.length < 256 → t = { s with holdover := s.holdover ++ [(n, s.stamped r)] })) ∧
    (∀ r rs, s.eqReady n = true → (s.eqs n).owed = 0 → (s.holdover.any fun x => x.1 == n) = false → (s.eqs n).share = r :: rs →
      ∃ t, exec (.eventRecordDeliver n) s = .next t ∧ (t.eqs n).share = rs ∧
        (Out.record n (s.eqBase n + 32 * s.rd Reg.EQ_TAIL_TAIL n) (recImage r (s.rd Reg.EQ_TAIL_PHASE n)) :: s.out) <:+ t.out ∧
        (if s.rd Reg.EQ_TAIL_TAIL n + 1 = s.eqSize n then t.rd Reg.EQ_TAIL_TAIL n = 0 ∧ t.rd Reg.EQ_TAIL_PHASE n = (1 - s.rd Reg.EQ_TAIL_PHASE n) % 2
         else t.rd Reg.EQ_TAIL_TAIL n = (s.rd Reg.EQ_TAIL_TAIL n + 1) % 2 ^ 16 ∧ t.rd Reg.EQ_TAIL_PHASE n = s.rd Reg.EQ_TAIL_PHASE n) ∧
        t = { s with regs := t.regs, eq := t.eq, out := t.out, pf0 := t.pf0, pf1 := t.pf1 })) ∧
  ((∀ (n t0 : Nat) (s : State), n < 16 → (s.eqs n).unsigAt = some t0 → s.rd Reg.EQ_CFG_IMOD_TIME n ≠ 0 →
    t0 + 1000 * s.rd Reg.EQ_CFG_IMOD_TIME n ≤ s.now → (s.pf (s.ownEq n)).msixEn = true →
    ∃ t, exec (.imodTimerExpire n) s = .next t ∧ (t.eqs n).unsigAt = none ∧ (t.eqs n).unsig = 0 ∧
      (let v := if s.ownEq n = 0 then 32 + n else n
       if s.vecMasked (s.ownEq n) v = false ∧ (s.pf (s.ownEq n)).bme = true then t.out = .msix (s.ownEq n) v :: s.out
       else t.out = s.out ∧ bitOf (t.pf (s.ownEq n)).pba v = true) ∧
      t = { s with eq := t.eq, pf0 := t.pf0, pf1 := t.pf1, out := t.out }) ∧
  (∀ (p v : Nat) (s : State), p < 2 → v < vecCount p →
    ∃ t, exec (.msixUnmask p v) s = .next t ∧ t.vecMasked p v = false ∧
      (if bitOf (s.pf p).pba v = true ∧ (s.pf p).msixEn = true ∧ (s.pf p).bme = true then t.out = .msix p v :: s.out ∧ bitOf (t.pf p).pba v = false
       else t.out = s.out ∧ t.pf p = s.pf p) ∧ t = { s with msixTab := t.msixTab, pf0 := t.pf0, pf1 := t.pf1, out := t.out }) ∧
  ∀ (p : Nat) (bme msixEn : Bool) (s : State), p < 2 → ((List.range 18).any fun i => (s.xfer? (14 + i)).any fun x => x.job.pf == p) = false →
    ∃ t, exec (.busMasterEnableWrite p bme msixEn) s = .next t ∧ (t.pf p).bme = bme ∧ (t.pf p).msixEn = msixEn ∧
      t.pf (1 - p) = s.pf (1 - p) ∧ t = { s with pf0 := t.pf0, pf1 := t.pf1, out := t.out, sq := t.sq })

/-- FUNDAMENTAL_RESET keeps FLT_GRAVE and the latch bits it covers and gives every other register its reset value (R334, R352). RST_N_RISE samples the straps, locks the PLLs, arms the watchdog and has the ROM read the primary slot (R353, R373). A slot that verifies boots: the ferryman runs its image, GANGWAY closes, the OTP takes the image's enrolment (R353, R357). A primary slot that fails leads to the backup; a backup that fails leaves STAGE 5 with the watchdog disarmed (R358). Boot code that writes GEN_GANGWAY.CLOSED closes it, and nothing else changes; the same write through a function is a violation of the lock (R75). The first loss of the reference sets REF_LOST and clears both PLL locks beside the reaction to REF_LOSS (R17, R331); afterwards a PLL that has relocked on the RC oscillator shows its lock (R17). -/
def Obligations.ResetBootGangwayAndClocks : Prop :=
  ((∀ s : State, ∃ t, exec .fundamentalReset s = .next t ∧ t.rd Reg.FLT_GRAVE = s.rd Reg.FLT_GRAVE % 2 ^ Reg.FLT_GRAVE.width ∧
    t.rd Reg.FLT_LATCH = (s.rd Reg.FLT_LATCH &&& s.rd Reg.FLT_GRAVE) % 2 ^ Reg.FLT_LATCH.width ∧ t.rd Reg.GEN_RESET_CAUSE_CAUSE = 2 ∧
    State.RegsBut State.reset t [Reg.GEN_RESET_CAUSE_CAUSE.key 0 0, Reg.FLT_GRAVE.key 0 0, Reg.FLT_LATCH.key 0 0] ∧
    t = { State.reset with pending := s.pending, free := s.free, out := s.out, flash0 := s.flash0, flash1 := s.flash1, otp := s.otp,
                           logbook := s.logbook, regs := t.regs, lbDue := s.lbDue.filter (· == 3) ++ [1], graveHold := s.rd Reg.FLT_GRAVE != 0 }) ∧
  (∀ (clk : Bool) (banks : Nat) (s : State), s.boot.rstLow = true →
    ∃ t, exec (.rstNRise clk banks) s = .next t ∧ t.boot = { s.boot with rstLow := false, reading := some 0, wdArmed := true, wdAt := s.now } ∧
      t.on Reg.GEN_CLK_STAT_REF_SRC = clk ∧ t.on Reg.GEN_IO_STAT_CLKSEL = clk ∧ t.on Reg.GEN_CLK_STAT_CH_LOCK = true ∧
      t.on Reg.GEN_CLK_STAT_HB_LOCK = true ∧ t.rd Reg.GEN_BOOT_STAT_STAGE = 1 ∧ t = { s with regs := t.regs, boot := t.boot }) ∧
  (∀ (slot : Nat) (answers : Bool) (s : State), slot < 2 → s.boot.reading = some slot →
    (let img := if slot = 0 then s.flash0 else s.flash1
     let r := if answers then s.verify img false else 2
     ∃ t, exec (.bootImageVerified slot answers) s = .next t ∧ t.flash0 = s.flash0 ∧ t.flash1 = s.flash1 ∧
      (r = 0 → t.boot.running = true ∧ t.boot.reading = none ∧ t.boot.bank0 = img ∧ t.rd Reg.GEN_BOOT_STAT_STAGE = 4 ∧
        t.rd Reg.GEN_BOOT_STAT_BACKUP = slot ∧ t.on Reg.GEN_GANGWAY_CLOSED = true ∧ t.otp = s.otp.boot 0xFF img) ∧
      (r ≠ 0 → slot = 0 → t.boot = { s.boot with wdAt := s.now, reading := some 1 } ∧ t.rd Reg.GEN_BOOT_STAT_RESULT_PRI = r % 2 ^ Reg.GEN_BOOT_STAT_RESULT_PRI.width ∧
        t = { s with regs := t.regs, boot := t.boot }) ∧
      (r ≠ 0 → slot = 1 → t.boot = { s.boot with wdAt := s.now, reading := none, wdArmed := false } ∧ t.rd Reg.GEN_BOOT_STAT_STAGE = 5 ∧
        t.on Reg.GEN_GANGWAY_CLOSED = true ∧ t.lbDue = s.lbDue ++ [3] ∧ t = { s with regs := t.regs, boot := t.boot, lbDue := t.lbDue })))) ∧
  ((∀ s : State, s.boot.rstLow = false →
    (∃ t, exec (.gangwayClose .ferryman) s = .next t ∧ t.on Reg.GEN_GANGWAY_CLOSED = true ∧ t = { s with regs := t.regs } ∧
      State.RegsBut s t [Reg.GEN_GANGWAY_CLOSED.key 0 0]) ∧
    exec (.gangwayClose .pf0) s = .next (s.lockViol 0x10 0) ∧ exec (.gangwayClose .pf1) s = .next (s.lockViol 0x10 1)) ∧
  (∀ s : State, s.on Reg.GEN_CLK_STAT_REF_LOST = false →
    ∃ t, exec .refLoss s = .next t ∧ t.on Reg.GEN_CLK_STAT_REF_LOST = true ∧ t.on Reg.GEN_CLK_STAT_CH_LOCK = false ∧
      t.on Reg.GEN_CLK_STAT_HB_LOCK = false ∧ s.Reacts t) ∧
  ∀ (harbour : Bool) (s : State), s.on Reg.GEN_CLK_STAT_REF_LOST = true →
    ∃ t, exec (.pllRelock harbour) s = .next t ∧ t.on (if harbour then Reg.GEN_CLK_STAT_HB_LOCK else Reg.GEN_CLK_STAT_CH_LOCK) = true ∧
      t = { s with regs := t.regs } ∧ State.RegsBut s t [(if harbour then Reg.GEN_CLK_STAT_HB_LOCK else Reg.GEN_CLK_STAT_CH_LOCK).key 0 0])

/-- An aligned 4-byte read that is granted, outside the posted blocks: the completion carries the word as its fields show it, undefined bits 0 (R60), and no state changes. A read through a function that does not own the target answers zero and is a violation (R30). A read of another size or alignment, or past the map, is answered with Unsupported Request (R29). One register of each kind, every value v, a granted 4-byte write: an RW field takes its bits, and nothing else changes (R61); the low word of a 64-bit base waits for the high word, which its block ignores while enabled (R52, R65); a QS field takes them in its quay value, its live value stays, and its unit turns DIRTY (R68); a sticky field keeps the bits written 1 and a counter takes the value, where hardware has not changed them at this edge (R61, R66); an RO field does not change; a field of the protection set-up changes nothing and is a violation of the lock, once GANGWAY is closed (R75). A granted 4-byte write of a word of block FAULT whose fields are posted (the timeouts at FLT_TMO) changes no register: it waits in the block's stage where that is empty, and is dropped with OVERRUN set where it is not (R62). POST_WRITE_APPLY empties the stage and gives the field its bits. -/
def Obligations.RegistersAreReadAndWrittenByKind : Prop :=
  (∀ (src : Port) (off : Nat) (s : State), s.boot.rstLow = false →
    (off % 4 = 0 → off < 0x100000 → postBase off = none → s.Granted src off →
      exec (.registerWrite src 0 false off 4 0) s = .next { s with out := .readDone (some (s.wordAt off)) :: s.out }) ∧
    (∀ p o, off % 4 = 0 → off < 0x100000 → s.barOpen src off = true → portPf src = some p → s.ownerOf off = some o → o ≠ p →
      exec (.registerWrite src 0 false off 4 0) s = .next ((s.pfViol off 0 p false).emit (.readDone (some 0))) ∧
      ∀ v, exec (.registerWrite src 0 true off 4 v) s = .next (s.pfViol off 0 p true)) ∧
    ∀ size v, (size ≠ 4 ∧ size ≠ 8) ∨ off % size ≠ 0 ∨ 0x100000 ≤ off →
      exec (.registerWrite src 0 false off size v) s = .next { s with out := .readDone none :: s.out } ∧
      exec (.registerWrite src 0 true off size v) s = .next { s with out := .writeUr :: s.out }) ∧
  (∀ (src : Port) (v : Nat) (s : State), v < 2 ^ 32 → s.boot.rstLow = false →
    (s.Granted src 0x18008 → ∃ t, exec (.registerWrite src 0 true 0x18008 4 v) s = .next t ∧ t.rd Reg.AXIS_SCALE_SCALE_PM = v ∧
      t = { s with regs := t.regs, edgeRegs := t.edgeRegs, edgeSw := t.edgeSw } ∧ State.RegsBut s t [Reg.AXIS_SCALE_SCALE_PM.key 0 0]) ∧
    (s.Granted src 0x5800 → ∃ t, exec (.registerWrite src 0 true 0x5800 4 v) s = .next t ∧
      (if s.on Reg.CHART_CTL_EN then t = s else tget none t.lowLatch 0x5800 = some (v / 2 ^ 12) ∧ t = { s with lowLatch := t.lowLatch })) ∧
    (s.Granted src 0x5804 → ∃ t, exec (.registerWrite src 0 true 0x5804 4 v) s = .next t ∧
      (if s.on Reg.CHART_CTL_EN then t = s
       else t.rd Reg.CHART_BASE_HI_BASE_HI = v ∧ t.rd Reg.CHART_BASE_LO_BASE_LO = (match tget none s.lowLatch 0x5800 with
           | some lo => lo % 2 ^ 20
           | none => s.rd Reg.CHART_BASE_LO_BASE_LO) ∧
         t = { s with regs := t.regs, lowLatch := t.lowLatch, edgeRegs := t.edgeRegs, edgeSw := t.edgeSw } ∧
         State.RegsBut s t [Reg.CHART_BASE_HI_BASE_HI.key 0 0, Reg.CHART_BASE_LO_BASE_LO.key 0 0])) ∧
    (s.Granted src 0x10000 → ∃ t, exec (.registerWrite src 0 true 0x10000 4 v) s = .next t ∧ t.qv Reg.TIDE_CFG_ERR_EQ = v % 16 ∧
      t.on Reg.GEN_QUAY_STAT_DIRTY 121 = true ∧ t = { s with regs := t.regs, quay := t.quay, commits := t.commits } ∧
      State.RegsBut s t [Reg.GEN_QUAY_STAT_DIRTY.key 121 0]) ∧
    (s.Granted src 0x24 → s.edgeRd Reg.GEN_RESET_CAUSE_CAUSE = s.rd Reg.GEN_RESET_CAUSE_CAUSE → ∃ t, exec (.registerWrite src 0 true 0x24 4 v) s = .next t ∧
      t.rd Reg.GEN_RESET_CAUSE_CAUSE = (s.rd Reg.GEN_RESET_CAUSE_CAUSE &&& v % 64) % 64 ∧
      t = { s with regs := t.regs, edgeRegs := t.edgeRegs, edgeSw := t.edgeSw } ∧
      State.RegsBut s t [Reg.GEN_RESET_CAUSE_CAUSE.key 0 0]) ∧
    (s.Granted src 0x1000C → s.edgeRd Reg.TIDE_LATE_COUNT = s.rd Reg.TIDE_LATE_COUNT → ∃ t, exec (.registerWrite src 0 true 0x1000C 4 v) s = .next t ∧ t.rd Reg.TIDE_LATE_COUNT = v ∧
      t = { s with regs := t.regs, edgeRegs := t.edgeRegs, edgeSw := t.edgeSw } ∧ State.RegsBut s t [Reg.TIDE_LATE_COUNT.key 0 0]) ∧
    (s.Granted src 0x28 → exec (.registerWrite src 0 true 0x28 4 v) s = .next s) ∧
    (s.Granted src 0x1104 → s.on Reg.GEN_GANGWAY_CLOSED = true →
      exec (.registerWrite src 0 true 0x1104 4 v) s = .next (s.lockViol 0x1104 (lockSrc src)))) ∧
  (∀ (src : Port) (v : Nat) (s : State), v < 2 ^ 32 → s.boot.rstLow = false →
    (s.Granted src Reg.FLT_TMO_DESC_FETCH_MS.base → tget none s.post 0x88000 = none →
      ∃ t, exec (.registerWrite src 0 true Reg.FLT_TMO_DESC_FETCH_MS.base 4 v) s = .next t ∧
        tget none t.post 0x88000 = some ⟨Reg.FLT_TMO_DESC_FETCH_MS.base, v, false, src, 0⟩ ∧ t = { s with post := t.post }) ∧
    (s.Granted src Reg.FLT_TMO_DESC_FETCH_MS.base → tget none s.post 0x88000 ≠ none →
      ∃ t, exec (.registerWrite src 0 true Reg.FLT_TMO_DESC_FETCH_MS.base 4 v) s = .next t ∧ t.post = s.post ∧
        t.rd Reg.FLT_TMO_DESC_FETCH_MS = s.rd Reg.FLT_TMO_DESC_FETCH_MS ∧ t = { s with regs := t.regs }) ∧
    (∀ seen rung, tget none s.post 0x88000 = some ⟨Reg.FLT_TMO_DESC_FETCH_MS.base, v, seen, src, rung⟩ →
      ∃ t, exec (.postWriteApply 0x88000) s = .next t ∧ tget none t.post 0x88000 = none ∧
        t.rd Reg.FLT_TMO_DESC_FETCH_MS = v / 2 ^ Reg.FLT_TMO_DESC_FETCH_MS.lo % 2 ^ Reg.FLT_TMO_DESC_FETCH_MS.width ∧
        t = { s with regs := t.regs, post := t.post, edgeRegs := t.edgeRegs, edgeSw := t.edgeSw }))

/-- A source of class D, C or B that names no unit, with no bit of class A latched and no record of it yet: its bit is latched, its record, which carries source, class, unit and instance, goes to the fault ring, and under class B an engine-wide abandonment waits for its edge (R331, R332, R333); no register changes but FLT_LATCH, no unit is boomed. Under class A its bit of FLT_GRAVE is set as well and the abandonment waits. A source raised with a lasting cause has that cause live (R329). A source of class C raised in commit unit u fences u: a boom. No unit is un-boomed by any raise, and nothing but what a reaction may change is changed (R331, R335). -/
def Obligations.FaultsReactByTheirClass : Prop :=
  (∀ (src inst info : Nat) (s : State), src < 64 → inst < 256 →
    (s.cls src ≤ 2 → src ≠ Src.refLoss → s.aLatched = false → s.eng = none → tget none s.lastRec (src * 256 + Src.noUnit) = none →
      s.Room (s.rd Reg.RING_EVT_ROUTE_FAULT) →
      ∃ t, exec (.faultRaise src Src.noUnit inst info false) s = .next t ∧
        t.rd Reg.FLT_LATCH = setBit (s.rd Reg.FLT_LATCH) src true % 2 ^ 64 ∧ State.RegsBut s t [Reg.FLT_LATCH.key 0 0] ∧
        s.Told t (s.rd Reg.RING_EVT_ROUTE_FAULT) (mkRec 3 St.ok (src + 64 * s.cls src + 256 * Src.noUnit) 0 (inst + 2 ^ 32 * info)) ∧
        t.abCauses = (if s.cls src = 2 then setBit s.abCauses 3 true else s.abCauses) ∧ t.boomed = s.boomed ∧ t.causes = s.causes ∧ s.Reacts t) ∧
    ∀ unit live, unit < 256 → s.cls src = 3 → s.eng = none → src ≠ Src.refLoss → unit = Src.noUnit →
      ∃ t, exec (.faultRaise src unit inst info live) s = .next t ∧ bitOf t.abCauses 2 = true ∧
        (live = true → src ≠ Src.laserCut → t.hasCause src unit inst = true) ∧ s.Reacts t) ∧
  (∀ (src u inst info : Nat) (live : Bool) (s : State), src < 64 → u < 122 → inst < 256 →
    ∃ t, exec (.faultRaise src u inst info live) s = .next t ∧ (s.cls src = 1 → t.isBoomed u = true) ∧
      (∀ v, s.isBoomed v = true → t.isBoomed v = true) ∧ s.Reacts t)

/-- A granted clear of bit i of FLT_LATCH, latched before this edge, with the FAULT block's posting stage empty and every head off: a bit under class D, or under class C or B with no live cause, is cleared; one of class C or B whose cause is live stays and CLR_REFUSED is set; one of class A, or that FLT_GRAVE holds, stays (R334); one whose source is raised at this edge stays (R66). With a write in the stage the clear is dropped and DROP is set (R62). A used fault input pair that has read a, b for us µs: levels that agree for 1 ms are broken, and EXTi and PAIR_BROKEN are live; levels that differ for EXT_FILT end broken, and EXTi is live where they read fault; levels that differ for less end broken alone; anything else changes nothing (R336). An interlock input that has been at a level for ns ns: after 100 ns open, INTLK_OPEN is live where the input is routed, and where it is not only its status bits change; after 10 ms closed the cause ends; a level of a shorter time only shows in LEVEL (R342). Nothing but what a reaction may change is changed. -/
def Obligations.FaultLatchesAndInputs : Prop :=
  (∀ (src : Port) (i : Nat) (s : State), i < 64 → s.Granted src 0x88000 → 
    (tget none s.post 0x88000 ≠ none → exec (.faultLatchClear src (2 ^ i)) s = .next (s.wr Reg.FAULT_POST_STAT_DROP 1)) ∧
    (tget none s.post 0x88000 = none → bitOf (s.rd Reg.FLT_LATCH) i = true → bitOf (s.edgeRd Reg.FLT_LATCH) i = true → s.rd Reg.FLT_LATCH < 2 ^ 64 →
    (∀ n, n < 6 → s.on Reg.BL_STAT_LEN n = false ∧ (s.bls n).upSeen = false ∧ s.lv Reg.BL_CFG_PORT n ≠ 2) →
    ∃ t, exec (.faultLatchClear src (2 ^ i)) s = .next t ∧ s.Reacts t ∧
      (if s.cls i = 3 ∨ bitOf (s.rd Reg.FLT_GRAVE) i = true then t = s
       else if 1 ≤ s.actCls i ∧ s.srcLive i = true then t.on Reg.FLT_SUMMARY_CLR_REFUSED = true ∧ State.RegsBut s t [Reg.FLT_SUMMARY_CLR_REFUSED.key 0 0] ∧ t = { s with regs := t.regs }
       else if tget 0 s.raisedAt i = s.now + 1 then t = s
       else t.rd Reg.FLT_LATCH = setBit (s.rd Reg.FLT_LATCH) i false))) ∧
  ((∀ (i us : Nat) (a b : Bool) (s : State), i < 8 → bitOf (s.rd Reg.FLT_EXT_CFG_PAIR_EN) i = true →
    (let filt := max 1 (s.rd Reg.FLT_EXT_CFG_EXT_FILT)
     let broken := bitOf (s.rd Reg.FLT_EXT_STAT_BROKEN) i
     let shows (t : State) (ext brk : Bool) : Prop := t.hasCause (Src.ext i) Src.noUnit i = ext ∧ t.hasCause Src.pairBroken Src.noUnit i = brk ∧ s.Reacts t
     (a = b → 1000 ≤ us → ∃ t, exec (.faultPairChange i a b us) s = .next t ∧ shows t true true) ∧
     (a ≠ b → filt ≤ us → ∃ t, exec (.faultPairChange i a b us) s = .next t ∧ shows t a false) ∧
     (a ≠ b → us < filt → broken = true → ∃ t, exec (.faultPairChange i a b us) s = .next t ∧ shows t false false) ∧
     ((a = b → us < 1000) → (a ≠ b → us < filt ∧ broken = false) → exec (.faultPairChange i a b us) s = .next s))) ∧
  ∀ (i ns : Nat) (level : Bool) (s : State), i < 8 →
    (let closed := s.on Reg.IO_INTLK_ROUTE_CLOSED_LVL i
     (level = closed → 10000000 ≤ ns → ∃ t, exec (.interlockChange i level ns) s = .next t ∧ s.Reacts t ∧ t.hasCause Src.intlkOpen Src.noUnit i = false) ∧
     (level ≠ closed → 100 ≤ ns → bitOf (s.rd Reg.IO_INTLK_STAT_OPEN) i = false → s.intlkRouted i = true →
       ∃ t, exec (.interlockChange i level ns) s = .next t ∧ s.Reacts t ∧ t.hasCause Src.intlkOpen Src.noUnit i = true) ∧
     (level ≠ closed → 100 ≤ ns → s.intlkRouted i = false → ∃ t, exec (.interlockChange i level ns) s = .next t ∧
        bitOf (t.rd Reg.IO_INTLK_STAT_OPEN) i = true ∧ bitOf (t.rd Reg.IO_INTLK_STAT_LEVEL) i = level ∧ t = { s with regs := t.regs } ∧
        State.RegsBut s t [Reg.IO_INTLK_STAT_OPEN.key 0 0, Reg.IO_INTLK_STAT_LEVEL.key 0 0]) ∧
     (ns < (if level = closed then 10000000 else 100) → ∃ t, exec (.interlockChange i level ns) s = .next t ∧
        bitOf (t.rd Reg.IO_INTLK_STAT_LEVEL) i = level ∧ t = { s with regs := t.regs } ∧ State.RegsBut s t [Reg.IO_INTLK_STAT_LEVEL.key 0 0])))

/-- LANTERN toggles on each edge of its timebase while its conditions hold and is still otherwise (R337). A watchdog that is armed, outside Moored, and has not been re-armed for WD_MS (10 to 1000 ms) lapses: the ferryman stops, and the lapse is due in the log book (R26). A re-arm of a booted ferryman has it run, re-arms the watchdog at this time and writes every counter due (R26, R367); no register changes where no handover waits for it. A scrubber of a store that is enabled and due, outside Moored: it moves on to the store's next word and falls due again (R22). A sound word leaves everything else as it is; one bit that has flipped in it is corrected and written back (R18, R20). A granted write of DIAG_ECC_INJ.ARM arms the injection and changes nothing else (R22). -/
def Obligations.TheWatchdogAndTheScrubbers : Prop :=
  ((∀ s : State, ∃ t, exec .lanternToggle s = .next t ∧
    t = (if s.lanternRuns then { s with lantern := !s.lantern, lanternAt := s.now } else s)) ∧
  (∀ s : State, s.boot.wdArmed = true → s.boot.lapsed = false → s.boot.reading = none → s.rd Reg.PWR_STAT_MODE ≠ 2 → s.boot.armBy = none →
    s.boot.wdAt + 1000000 * min 1000 (max 10 (s.rd Reg.FLT_WD_WD_MS)) ≤ s.now → (s.liveCrx.any fun c => c.state == 1) = false →
    ∃ t, exec .ferryWd s = .next t ∧ t.boot = { s.boot with lapsed := true, running := false } ∧ s.lbDue ++ [4] <+: t.lbDue ∧
      State.Reacts { s with boot := t.boot } t) ∧
  ∀ s : State, s.rd Reg.GEN_BOOT_STAT_STAGE = 4 →
    ∃ t, exec .ferrymanReArm s = .next t ∧ t.lbDue = [] ∧ s.out <:+ t.out ∧
      t.boot = { s.boot with running := true, lapsed := false, wdArmed := true, wdAt := s.now, armBy := none, armJob := none } ∧
      (s.boot.armJob = none → t = { s with boot := t.boot, logbook := t.logbook, out := t.out, lbDue := t.lbDue }) ∧
      ∀ j, s.boot.armJob = some j → (t.sqs j.ring).running = (s.sqs j.ring).running - 1) ∧
  ((∀ (st b : Nat) (s : State), st ∈ [0, 1, 2, 4] → b < 266 → s.on Reg.DIAG_ECC_SCRUB_SCRUB_EN st = true → s.rd Reg.PWR_STAT_MODE ≠ 2 → s.holdBusy = false →
    tget 0 s.scrubDue st + 2 * max 1 (s.rd Reg.DIAG_ECC_SCRUB_SCRUB_INTERVAL st) ≤ s.now → s.Sound st (tget 0 s.scrubPos st) →
    (∃ t, exec (.scrubRead st []) s = .next t ∧ tget 0 t.scrubPos st = (tget 0 s.scrubPos st + 1) % storeWords st ∧
      tget 0 t.scrubDue st = tget 0 s.scrubDue st + 2 * max 1 (s.rd Reg.DIAG_ECC_SCRUB_SCRUB_INTERVAL st) ∧
      tget 0 t.scrubAt st = s.now ∧
      t = { s with scrubPos := t.scrubPos, scrubDue := t.scrubDue, scrubAt := t.scrubAt, flips := t.flips } ∧ ∀ k, tget [] t.flips k = tget [] s.flips k) ∧
    ∃ t, exec (.scrubRead st [b]) s = .next t ∧ t.Sound st (tget 0 s.scrubPos st) ∧
      State.Reacts { s with scrubPos := t.scrubPos, scrubDue := t.scrubDue, scrubAt := t.scrubAt, flips := t.flips } t) ∧
  ∀ (src : Port) (s : State), s.Granted src 0xF0180 →
    ∃ t, exec (.eccInjectArm src) s = .next t ∧ t.on Reg.DIAG_ECC_INJ_ARM = true ∧ t = { s with regs := t.regs } ∧
      State.RegsBut s t [Reg.DIAG_ECC_INJ_ARM.key 0 0])

/-- A QUAY_COMMIT of well-formed fields whose units the function owns: with no unit boomed, no pending commit of one of them, fewer than 8 pending and every check of the set it would produce passed, it is pending last of all, with its units and the quay set as it stands at this edge; quay and live sets do not change (R72, R73). With a boomed unit it completes with FENCED, which each named unit shows as its last status, and nothing is pending that was not (R73). -/
def Obligations.CommitsWaitWithTheirSnapshot : Prop :=
  ∀ (n : Nat) (d : Desc) (s : State), s.Ready n 0x80 d →
    (let us := dUnits d; let b := s.begun n; let c := b.commitOf (s.jobOf n d)
     c.bound < 5 → us < 2 ^ 122 → commitZero d = true → (c.bound = 2 → dget d 36 0 32 ≠ 0) → (c.bound = 3 → popcount c.stns 6 = 1) →
     (c.bound = 1 → c.stns ≠ 0) → b.unitsForeign (s.jobOf n d) = false →
     ((bitsOf us 122).any s.isBoomed = false →
      (s.commits.any fun x => x.units &&& us != 0 || (c.bound == 4 && x.bound == 4 && dTag x.job.d == dTag d)) = false →
      s.commits.length < 8 → blame (failing (b.withSnap us s.quay) b us false) = none →
      ∃ t, exec (.quayCommit n) s = .next t ∧ s.Started t n ∧ t.commits = s.commits ++ [c] ∧ c.units = us ∧ c.snap = s.quay ∧
        t = { s with sq := t.sq, commits := t.commits }) ∧
     ((bitsOf us 122).any s.isBoomed = true → s.Room (s.rd Reg.SQ_CFG_EQ n) → n < 64 →
      ∃ t, exec (.quayCommit n) s = .next t ∧ s.Done t n d St.fenced 0 ∧ (∀ u, u < 122 → bitOf us u = true → t.rd Reg.GEN_QUAY_STAT_LAST_STATUS u = St.fenced) ∧
        t = { s with regs := t.regs, sq := t.sq, eq := t.eq }))

/-- A pending commit of the tide unit alone that is at its boundary, with none accepted earlier at its own at this edge (R73), and passes its checks: the live set of that unit becomes the snapshot, no other unit's live value changes, the unit's generation counts up, it shows OK, and the commit is no longer pending (R68, R71, R72). The same where its COMMIT entry issues it on time (R84). At its deadline a pending commit ends with TIMEOUT: its units show it, its record says it, no live value changes (R73). A QUAY_DISCARD of units its function owns: every quay value of a named unit becomes its live value, every other quay value stays, no named unit is DIRTY, live values do not change, and it completes with OK (R74). A QUAY_STAGE of one valid pair for TIDE_CFG writes that register's quay value as a host write would, and completes with OK (R74, R68). -/
def Obligations.CommitsEndAndQuaySetsAreWritten : Prop :=
  ((∀ (k : Nat) (c : Commit) (s : State), s.commits[k]? = some c → ((s.commits.eraseIdx k).all fun x => x.job != c.job) = true → c.units = 2 ^ 121 → c.heads = 0 → s.keysRise →
    (let applied (t : State) : Prop :=
      (∀ d x, tget d t.live x = if ({ s with quay := c.snap } : State).keyIn c.units x then tget d c.snap x else tget d s.live x) ∧
        t.rd Reg.GEN_QUAY_STAT_LAST_STATUS 121 = St.ok ∧
        t.rd Reg.GEN_QUAY_STAT_GENERATION 121 = (s.rd Reg.GEN_QUAY_STAT_GENERATION 121 + 1) % 2 ^ 16 ∧
        t.commits = s.commits.eraseIdx k ∧ t.quay = s.quay
     trising c.snap = true →
     (blame (failing ((s.markTried c).withSnap c.units c.snap) (s.markTried c) c.units true) = none →
       s.atBoundary c = true → c.tried ≠ some s.now → ((s.commits.take k).any fun x => x.heads == 0 && s.atBoundary x && x.tried != some s.now) = false →
       ∃ t, exec (.commitBoundary k) s = .next t ∧ applied t) ∧
     (∀ d, blame (failing (s.issueTaken.withSnap c.units c.snap) s.issueTaken c.units true) = none →
       s.OnTime 0x05 d → (s.commits.find? fun c => c.bound == 4 && c.heads == 0 && dTag c.job.d == d.e.arg) = some c →
       ∃ t, exec .commit s = .next t ∧ applied t ∧ t.issued = s.issued.tail))) ∧
  ∀ (k : Nat) (c : Commit) (s : State), s.commits[k]? = some c → c.deadline ≤ s.now → s.Room c.job.eq →
    ∃ t, exec (.commitTimeout k) s = .next t ∧ s.Told t c.job.eq (completionRec c.job St.timeout 0) ∧
      (∀ u, u < 122 → bitOf c.units u = true → t.rd Reg.GEN_QUAY_STAT_LAST_STATUS u = St.timeout) ∧
      t.commits = (s.commits.eraseP fun x => x.job == c.job) ∧ t = { s with regs := t.regs, commits := t.commits, sq := t.sq, eq := t.eq, bl := t.bl }) ∧
  ((∀ (n : Nat) (d : Desc) (s : State), n < 64 → s.Ready n 0x81 d → s.Room (s.rd Reg.SQ_CFG_EQ n) → dUnits d < 2 ^ 122 → dZero d 32 64 = true →
    (s.begun n).unitsForeign (s.jobOf n d) = false → s.keysRise →
    ∃ t, exec (.quayDiscard n) s = .next t ∧ s.Done t n d St.ok 0 ∧
      (∀ x k, tget x t.quay k = if ({ s with quay := s.live } : State).keyIn (dUnits d) k then tget x s.live k else tget x s.quay k) ∧
      (∀ u, u < 122 → bitOf (dUnits d) u = true → t.on Reg.GEN_QUAY_STAT_DIRTY u = false) ∧
      t = { s with regs := t.regs, quay := t.quay, sq := t.sq, eq := t.eq }) ∧
  ∀ (n v : Nat) (d : Desc) (s : State), n < 64 → s.Ready n 0x82 d → s.Room (s.rd Reg.SQ_CFG_EQ n) → stagePairs d = [(0x10000, v)] →
    ((List.range 6).any fun i => dget d (16 + 8 * i) 20 11 != 0) = false → s.ownerOf 0x10000 = some (s.ownSq n) →
    ∃ t, exec (.quayStage n) s = .next t ∧ s.Done t n d St.ok 0 ∧ t.qv Reg.TIDE_CFG_ERR_EQ = v % 2 ^ 32 % 16 ∧
      t.on Reg.GEN_QUAY_STAT_DIRTY 121 = true ∧ t.live = s.live ∧
      t = { s with regs := t.regs, quay := t.quay, commits := t.commits, sq := t.sq, eq := t.eq })

/-- With nothing due, no TIDE_INSERT waiting, no injection armed and the word sound: an entry of an enabled axis, owned by no crossing, whose target is not fenced, whose index is free and whose position is ahead is armed at its index, other entries stay, and the record says whether it was near (R85, R88, R89). A TIDE_REMOVE of one index that holds an entry no crossing owns, of no COMMIT action, empties it and reports one entry removed (R90). -/
def Obligations.EntriesAreWrittenAndRemoved : Prop :=
  ∀ (n i : Nat) (e : TEntry) (d : Desc) (s : State), n < 64 → s.Room (s.rd Reg.SQ_CFG_EQ n) → s.dueEntries = [] → s.Calm → s.Sound 1 (i / 2) →
    s.live? 0 = none → s.tideWaits = [] →
    (s.Ready n 0x20 d → slots d = [(i, e)] → slotsZero d = true → slotsBad d = false → e.axis < 64 → s.axisEn e.axis = true → e.crx = 0 →
      s.entryFenced e = false → s.occupied i = false → s.behind e = false →
      ∃ t, exec (.tideInsert n) s = .next t ∧ t.entry? i = some e ∧ t.armed i = true ∧ (∀ j, j ≠ i → t.entry? j = s.entry? j) ∧
        s.Done t n d St.ok (if s.near e then (if dget d 16 15 1 = 1 then 1 else 2) else 0) ∧
        t = { s with regs := t.regs, tide := t.tide, tideArmed := t.tideArmed, tideOwner := t.tideOwner, tideFresh := t.tideFresh, poison := t.poison, flips := t.flips, sq := t.sq, eq := t.eq }) ∧
    (s.Ready n 0x21 d → ((List.range 8).filter fun k => dget d (16 + 2 * k) 15 1 == 1) = [0] → dget d 16 0 13 = i →
      ((List.range 8).any fun k => dget d (16 + 2 * k) 13 2 != 0) = false → dZero d 32 64 = true → s.entry? i = some e → e.crx = 0 → e.action ≠ 0x05 → e.axis < 64 →
      ∃ t, exec (.tideRemove n) s = .next t ∧ t.entry? i = none ∧ (∀ j, j ≠ i → t.entry? j = s.entry? j) ∧ s.Done t n d St.ok 1 ∧
        t = { s with regs := t.regs, tide := t.tide, tideArmed := t.tideArmed, tideOwner := t.tideOwner, tideFresh := t.tideFresh, poison := t.poison, flips := t.flips, sq := t.sq, eq := t.eq })

/-- Outside Moored: with nothing due an edge of the tide engine leaves nothing but the note of earlier re-zeroes behind; one due entry of a sound word, on an axis not re-zeroed past it, leaves the table and waits for issue, on time, decided at this edge (R85, R86). The first decided action is issued where this cycle has issued fewer than 2 and the last 1,000 ns fewer than 64; it keeps its place in the order, and the longest wait is recorded; otherwise nothing changes (R93). -/
def Obligations.EntriesBecomeDueAndIssue : Prop :=
  (∀ s : State, s.rd Reg.PWR_STAT_MODE ≠ 2 →
    (s.dueEntries = [] → exec .tideEntryDue s = .next { s with tideFresh := s.tideFresh.filter fun x => x.2.1 == s.now }) ∧
    ∀ i e, s.dueEntries = [(i, e)] → s.entry? i = some e → s.Sound 1 (i / 2) → s.rezeroedNow e = false → s.leftBehind e = false →
      ∃ t x, exec .tideEntryDue s = .next t ∧ t.entry? i = none ∧ (∀ j, j ≠ i → t.entry? j = s.entry? j) ∧ t.decided = s.decided ++ [x] ∧
        x.idx = i ∧ x.e = e ∧ x.time = s.now ∧ x.late = false ∧ x.s = s.rd Reg.AXIS_SCHED e.axis ∧
        t = { s with regs := t.regs, tide := t.tide, tideArmed := t.tideArmed, tideOwner := t.tideOwner, tideFresh := t.tideFresh, decided := t.decided }) ∧
  ∀ (x : Decided) (xs : List Decided) (s : State), s.decided = x :: xs →
    (let recent := s.issueLog.filter fun t => decide (s.now < t + 1000)
     (recent.filter (· == s.now)).length < 2 → recent.length < 64 →
      ∃ t, exec .tideActionIssue s = .next t ∧ t.decided = xs ∧ t.issued = s.issued ++ [x] ∧ t.issueLog = recent ++ [s.now] ∧
        t.rd Reg.TIDE_WAIT_MAX_WAIT_NS = max (s.rd Reg.TIDE_WAIT_MAX_WAIT_NS) (min 0xFFFF (s.now - x.time)) % 2 ^ 16 ∧
        t = { s with regs := t.regs, decided := t.decided, issued := t.issued, issueLog := t.issueLog } ∧ State.RegsBut s t [Reg.TIDE_WAIT_MAX_WAIT_NS.key 0 0]) ∧
    (let recent := s.issueLog.filter fun t => decide (s.now < t + 1000)
     64 ≤ recent.length → exec .tideActionIssue s = .next s)

/-- On a local pin that is an output, issued on time and unfenced: PIN drives low, high, toggles a driven level, or releases; a pulse drives its level at once, remembers the level before it (of a pulse on a pulse, the first one's), and at its end the pin returns to that level (R84, R339). Every other pin stays as it is. PIN on a pin that is no output is refused with a record (R339). Issued on time: NOP leaves only the queue of issued actions shorter; an EVENT tells its event ring its argument and axis; a CAPTURE whose record is asked for tells the ring the position latched when it fell due, one that asks for none tells nothing (R84, R94). Nothing else of the device changes. -/
def Obligations.PinsAndRecordsOfTheTide : Prop :=
  ((∀ (d : Decided) (s : State), s.OnTime 0x01 d → d.e.target < 64 →
    (s.lon Reg.IO_GPIO_CFG_OUT d.e.target = true → d.e.arg < 4 →
      ∃ t, exec .pin s = .next t ∧ (∀ m, m ≠ d.e.target → tget 0 t.io m = tget 0 s.io m) ∧ tget none t.pulses d.e.target = none ∧
        (d.e.arg = 0 → tget 0 t.io d.e.target = 1) ∧ (d.e.arg = 1 → tget 0 t.io d.e.target = 2) ∧ (d.e.arg = 3 → tget 0 t.io d.e.target = 0) ∧
        (d.e.arg = 2 → tget 0 s.io d.e.target ∈ [1, 2] → tget 0 t.io d.e.target = 3 - tget 0 s.io d.e.target) ∧
        t.issued = s.issued.tail ∧ t = { s with issued := t.issued, io := t.io, pulses := t.pulses, free := t.free }) ∧
    (s.lon Reg.IO_GPIO_CFG_OUT d.e.target = false → s.Room d.e.eq → d.e.crx = 0 → s.live? 0 = none →
      ∃ t, exec .pin s = .next t ∧ t.io = s.io ∧
        s.Told t d.e.eq (mkRec 2 St.refusedState (d.idx % 2 ^ 13) d.e.crx (lateData d.e d.s)))) ∧
  (∀ (d : Decided) (s : State), s.OnTime 0x02 d → d.e.target < 64 → s.lon Reg.IO_GPIO_CFG_OUT d.e.target = true →
    ∃ t, exec .pulse s = .next t ∧ tget 0 t.io d.e.target = (if bitOf d.e.arg 16 then 2 else 1) ∧
      tget none t.pulses d.e.target = some (s.now + 2 * (d.e.arg % 2 ^ 16), match tget none s.pulses d.e.target with | some x => x.2 | none => tget 0 s.io d.e.target) ∧
      (∀ m, m ≠ d.e.target → tget 0 t.io m = tget 0 s.io m ∧ tget none t.pulses m = tget none s.pulses m) ∧
      t = { s with issued := t.issued, io := t.io, pulses := t.pulses }) ∧
  ∀ (n t0 l : Nat) (s : State), tget none s.pulses n = some (t0, l) → t0 ≤ s.now →
    ∃ t, exec (.pulseEnd n) s = .next t ∧ tget 0 t.io n = l ∧ tget none t.pulses n = none ∧
      (∀ m, m ≠ n → tget 0 t.io m = tget 0 s.io m ∧ tget none t.pulses m = tget none s.pulses m) ∧ t = { s with io := t.io, pulses := t.pulses }) ∧
  (∀ (d : Decided) (s : State),
    (s.OnTime 0x00 d → exec .tideNop s = .next { s with issued := s.issued.tail }) ∧
    (s.OnTime 0x04 d → s.Room d.e.eq → ∃ t, exec .event s = .next t ∧
      s.Told t d.e.eq (mkRec 2 St.ok (d.idx % 2 ^ 13) d.e.crx (d.e.arg + 2 ^ 32 * d.e.axis)) ∧ (∀ e, e ≠ d.e.eq → t.eqs e = s.eqs e) ∧
      t = { s with issued := s.issued.tail, eq := t.eq }) ∧
    (s.OnTime 0x03 d → bitOf d.e.arg 8 = true → s.Room d.e.eq → ∃ t, exec .capture s = .next t ∧
      s.Told t d.e.eq (mkRec 2 St.ok (d.idx % 2 ^ 13) d.e.crx (d.cap + 2 ^ 40 * (d.e.arg % 64) + 2 ^ 46 * 3)) ∧
      t = { s with issued := s.issued.tail, eq := t.eq }) ∧
    (s.OnTime 0x03 d → bitOf d.e.arg 8 = false → exec .capture s = .next { s with issued := s.issued.tail }))

/-- Each edge of AX39 moves device time on by 2 ns, by 40 ns in Moored (R76, R311). An axis whose source is laid up or not configured keeps its positions. On an axis that moves, that no emulation output or station follows: a reported position at or ahead of S becomes P and S and ends HOLDING; one behind S by at most HOLD_MAX becomes P while S stays and HOLDING is set (R78). With an empty tide table and no count of the axis's port at this edge (R254): REZERO, issued on time, and AXIS_REZERO of an axis 40 to 63 whose port is not fenced set P and S of the axis to the value given and end HOLDING; the next history sample carries the discontinuity (R80, R84, R90). AXIS_REZERO completes with OK. -/
def Obligations.AxesFollowAndAreRezeroed : Prop :=
  ((∀ s : State, ∃ t, exec (.axisUpdate 39) s = .next t ∧ t.now = s.now + (if s.rd Reg.PWR_STAT_MODE = 2 then 40 else 2)) ∧
  ∀ (ax : Nat) (s : State), ax < 64 → ax ≠ 39 → s.rd Reg.PWR_STAT_MODE ≠ 2 →
    (s.axisOn ax = false → ∃ t, exec (.axisUpdate ax) s = .next t ∧ State.RegsBut s t [Reg.AXIS_STAT_SRC_OK.key ax 0] ∧ t = { s with regs := t.regs }) ∧
    (s.axisOn ax = true → ¬ (32 ≤ ax ∧ ax < 39) → (∀ e, e < 8 → s.on Reg.EMU_CFG_EN e = false) → (∀ n, n < 6 → s.axisOn (32 + n) = false) →
      s.axisCount ax < 2 ^ 40 →
      (posReached (s.axisCount ax) (s.rd Reg.AXIS_SCHED ax) = true →
        ∃ t, exec (.axisUpdate ax) s = .next t ∧ t.rd Reg.AXIS_POS ax = s.axisCount ax ∧ t.rd Reg.AXIS_SCHED ax = s.axisCount ax ∧
          t.on Reg.AXIS_STAT_HOLDING ax = false ∧ t = { s with regs := t.regs } ∧
          State.RegsBut s t [Reg.AXIS_POS.key ax 0, Reg.AXIS_SCHED.key ax 0, Reg.AXIS_STAT_HOLDING.key ax 0, Reg.AXIS_STAT_SRC_OK.key ax 0]) ∧
      (posReached (s.axisCount ax) (s.rd Reg.AXIS_SCHED ax) = false → posDist (s.rd Reg.AXIS_SCHED ax) (s.axisCount ax) ≤ s.lv Reg.AXIS_CFG_HOLD_MAX ax →
        ∃ t, exec (.axisUpdate ax) s = .next t ∧ t.rd Reg.AXIS_POS ax = s.axisCount ax ∧ t.rd Reg.AXIS_SCHED ax = s.rd Reg.AXIS_SCHED ax ∧
          t.on Reg.AXIS_STAT_HOLDING ax = true ∧ t = { s with regs := t.regs }))) ∧
  (∀ (ax p : Nat) (s : State), 40 ≤ ax → ax < 64 → p < 2 ^ 40 → s.tide = [] → (s.encs (s.lv Reg.AXIS_CFG_PORT ax)).times.head? ≠ some s.now →
    (let zeroed (t : State) : Prop := t.rd Reg.AXIS_POS ax = p ∧ t.rd Reg.AXIS_SCHED ax = p ∧ t.on Reg.AXIS_STAT_HOLDING ax = false ∧ tget false t.axDisc ax = true
     (∀ d, s.OnTime 0x06 d → d.e.target = ax → d.e.arg = p → ∃ t, exec .rezero s = .next t ∧ zeroed t ∧ t.issued = s.issued.tail) ∧
     (∀ n d, n < 64 → s.Ready n 0x22 d → s.Room (s.rd Reg.SQ_CFG_EQ n) → dget d 16 0 6 = ax → dget d 24 0 40 = p → dget d 16 6 2 = 0 → dZero d 17 24 = true →
        dget d 24 40 24 = 0 → dZero d 32 64 = true → s.fenced (38 + s.lv Reg.AXIS_CFG_PORT ax) = false →
        ∃ t, exec (.axisRezero n) s = .next t ∧ zeroed t ∧ s.Done t n d St.ok 0)))

/-- At a multiple of 50,000 ns not yet sampled, with no reading waiting: each enabled lane stores the P of its axis with its discontinuity in front of its samples and keeps 1,024; other lanes keep theirs; no axis is marked discontinuous any more (R80). A well-formed AXIS_CONVERT completes with the position of its time in 1/256 count, or with REFUSED_STATE and why: no lane, stale, a discontinuity between the samples, or in the future (R81, R82). -/
def Obligations.HistoryIsSampledAndConverted : Prop :=
  (∀ s : State, s.now % 50000 = 0 → s.histK ≤ s.now / 50000 → (∀ w ∈ s.marks, w.edge = none) → s.flWait = [] →
    ∃ t, exec .axisHistorySample s = .next t ∧ t.histK = s.now / 50000 + 1 ∧ t.axDisc = [] ∧
      (∀ l, l < 16 → tget [] t.hist l = if s.on Reg.AXIS_HIST_SEL_EN (l / 4) (l % 4) then
        ((s.now / 50000, s.rd Reg.AXIS_POS (s.rd Reg.AXIS_HIST_SEL_AXIS (l / 4) (l % 4)), tget false s.axDisc (s.rd Reg.AXIS_HIST_SEL_AXIS (l / 4) (l % 4))) :: tget [] s.hist l).take 1024
        else tget [] s.hist l) ∧
      t = { s with hist := t.hist, histK := t.histK, axDisc := t.axDisc, flWait := [] }) ∧
  ∀ (n : Nat) (d : Desc) (s : State), s.Ready n 0x23 d → s.Room (s.rd Reg.SQ_CFG_EQ n) → dget d 16 6 2 = 0 → dZero d 17 24 = true →
    dget d 24 40 24 = 0 → dZero d 32 64 = true → s.convert (dget d 16 0 6) (dget d 24 0 40) ≠ .wait →
    ∃ t, exec (.axisConvert n) s = .next t ∧ t = { s with sq := t.sq, eq := t.eq } ∧
      s.Done t n d (match s.convert (dget d 16 0 6) (dget d 24 0 40) with
          | .ok _ => St.ok
          | _ => St.refusedState)
        (match s.convert (dget d 16 0 6) (dget d 24 0 40) with
          | .ok p => p % 256 + 2 ^ 8 * (p / 256)
          | .stale => 2 ^ 48
          | .disc => 2 ^ 49
          | .future => 2 ^ 50
          | _ => 0)

/-- While the ferryman takes boarding requests: a head whose chain is in order and has members opens the chain's assembly; each member that is not the last, and that no FLG.FENCE holds back (R39), joins it, and nothing else changes (R100). No word of a store is bad. When the chain is whole it is judged: a chain that some check of R106 turns away has every descriptor completed with that check's status and no crossing appears; a head alone that passes boards, last of the crossings, with the id of its descriptor (R98, R106). -/
def Obligations.ManifestsAreAssembledAndJudged : Prop :=
  (∀ (n : Nat) (d : Desc) (s : State), s.boardsNow = true → s.Ready n 0x01 d →
    (let ms := ((s.sqs n).accepted.tail).take (dLink d)
     orderOk d ms = true →
     (dLink d ≠ 0 → ∃ t, exec (.manifestHead n) s = .next t ∧ s.Started t n ∧ (t.sqs n).manifest = [s.jobOf n d] ∧ t = { s with sq := t.sq }) ∧
     (dLink d = 0 → ∀ code status, (s.begun n).manifestCheck [s.jobOf n d] = some (code, status) → status ≠ St.ok → s.Room (s.rd Reg.SQ_CFG_EQ n) →
       ∃ t, exec (.manifestHead n) s = .next t ∧ s.Done t n d status code ∧ t = { s with sq := t.sq, eq := t.eq }) ∧
     (dLink d = 0 → (s.begun n).manifestCheck [s.jobOf n d] = none → s.Calm → s.poison = [] → s.flips = [] →
       ∃ t c, exec (.manifestHead n) s = .next t ∧ t.crossings = s.crossings ++ [c] ∧ c.crx = dCrx d ∧ c.state = 1 ∧ c.chain = [s.jobOf n d]))) ∧
  ∀ (n : Nat) (s : State) (h : Job) (hs : List Job) (d : Desc) (ds : List Desc), s.boardsNow = true → (s.sqs n).manifest = h :: hs →
    (s.sqs n).accepted = d :: ds → (dFence d = true → (s.sqs n).running = (s.sqs n).manifest.length) →
    ∀ p ∈ [(0x02, Instr.manifestStation n), (0x03, .manifestPath n), (0x04, .manifestWindow n), (0x05, .manifestTide n)], dOpc d = p.1 →
      (let ms := h :: hs ++ [s.jobOf n d]
       (ms.length ≤ dLink h.d → ∃ t, exec p.2 s = .next t ∧ (t.sqs n).manifest = ms ∧ s.Started t n ∧ t = { s with sq := t.sq }) ∧
       (dLink h.d < ms.length → ∀ b : State, b = s.setSq n { s.sqs n with accepted := ds, running := (s.sqs n).running + 1, manifest := [] } →
         (∀ code status, b.manifestCheck ms = some (code, status) → ∃ t, exec p.2 s = .next t ∧ (t.sqs n).manifest = [] ∧ t.crossings = s.crossings ∧ t.tide = s.tide) ∧
         (b.manifestCheck ms = none → s.Calm → s.poison = [] → s.flips = [] → ∃ t c, exec p.2 s = .next t ∧ t.crossings = s.crossings ++ [c] ∧ c.state = 1 ∧ c.chain = ms)))

/-- A boarding crossing whose fill condition is met, with no tide position reached: it is boarded at this time and its entries are armed (R109). At its bound a boarding crossing returns to drafted and is live no more; so does one that CROSSING_ABANDON names (R98, R108, R123), which abandons a boarded one for the host and is refused for an id that is not live. PATH_CLEAR frees every segment that the named crossing's jam holds and no other (R119). -/
def Obligations.CrossingsBoardOrReturn : Prop :=
  (∀ (crx : Nat) (c : Crossing) (s : State), s.live? crx = some c → c.state = 1 → s.pwr.kept = none →
    ((c.parts.all fun p => s.filled c p) = true → (∀ x ∈ s.entries, posReached (s.rd Reg.AXIS_SCHED x.2.axis) x.2.pos = false) →
      ∃ t, exec (.boarded crx) s = .next t ∧ t.live? crx = some { c with state := 2, stateTime := s.stamp, chain := [] } ∧
        (∀ x ∈ s.entries, x.2.crx = crx → t.armed x.1 = true) ∧ t.tide = s.tide) ∧
    (c.deadline ≤ s.now → ∃ t, exec (.boardingTimeout crx) s = .next t ∧ t.live? crx = none) ∧
    (∀ n d, s.Ready n 0x08 d → dCrx d = crx → dZero d 16 64 = true → ∃ t, exec (.crossingAbandon n) s = .next t ∧ t.live? crx = none)) ∧
  (∀ (n : Nat) (d : Desc) (s : State), s.Ready n 0x08 d → dZero d 16 64 = true →
    (∀ c, s.live? (dCrx d) = some c → c.state = 2 → c.abandon = none → ∃ t, exec (.crossingAbandon n) s = .next t ∧
      ((t.live? (dCrx d)).bind fun c => c.abandon) = some Cause.host) ∧
    (s.live? (dCrx d) = none → s.Room (s.rd Reg.SQ_CFG_EQ n) → ∃ t, exec (.crossingAbandon n) s = .next t ∧ s.Done t n d St.refusedState 0 ∧ t = { s with sq := t.sq, eq := t.eq })) ∧
  ∀ (n : Nat) (d : Desc) (s : State), s.Ready n 0x09 d → dZero d 16 64 = true → s.Room (s.rd Reg.SQ_CFG_EQ n) →
    ∃ t, exec (.pathClear n) s = .next t ∧ t = { s with sq := t.sq, eq := t.eq, jams := s.jams.filter fun x => x.2 != dCrx d } ∧
      s.Done t n d (if (s.jams.any fun x => x.2 == dCrx d) then St.ok else St.refusedState) 0

/-- For the live crossing of the issued entry, with no TIDE_INSERT waiting: CAST_OFF makes a boarded one cast off, next in the cast-off order (R98, R110); WINDOW_OPEN opens the named window; WINDOW_CLOSE closes a satisfied one, and on a Fenlink sensor whose node serves an unsatisfied one waits for the node (R117, R320); LAND ends a cast-off crossing whose stations and windows are done: it has landed, or is spoiled where a defect was recorded, and it is live no more (R116). -/
def Obligations.CrossingActionsAreIssued : Prop :=
  ∀ (x : Decided) (xs : List Decided) (c : Crossing) (s : State), s.issued = x :: xs → s.tideWaits = [] → s.live? x.e.crx = some c →
    (x.e.action = 0x10 → c.state = 2 → c.abandon = none → ∃ t, exec .castOff s = .next t ∧ t.castCount = s.castCount + 1 ∧ t.issued = xs ∧
      t.live? x.e.crx = some { c with state := 3, castSeq := s.castCount, stateTime := s.stamp }) ∧
    (x.e.action = 0x13 → ∃ t, exec .windowOpen s = .next t ∧ t = { s with issued := xs, crossings := t.crossings } ∧
      t.live? x.e.crx = some { c with wins := c.wins.map fun w => if w.id == x.e.arg % 256 then { w with opened := true } else w }) ∧
    (∀ w, x.e.action = 0x14 → (c.wins.find? fun w => w.id == x.e.arg % 256 && !w.closed) = some w →
      (w.sat = true → ∃ t, exec .windowClose s = .next t ∧ t = { s with issued := xs, crossings := t.crossings } ∧
        t.live? x.e.crx = some { c with wins := c.wins.map fun v => if v.id == x.e.arg % 256 then { v with closed := true, wait := none } else v }) ∧
      (w.sat = false → ∀ p a, s.sheetNode w.sensor = some (p, a) → s.nodeFenced p a = false →
        ∃ t, exec .windowClose s = .next t ∧ t = { s with issued := xs, crossings := t.crossings } ∧
          t.live? x.e.crx = some { c with wins := c.wins.map fun v => if v.id == x.e.arg % 256 then { v with wait := some s.now } else v })) ∧
    (x.e.action = 0x15 → c.state = 3 → c.abandon = none → (∀ p ∈ c.parts, p.done = true ∧ (s.stns p.stn).expo = none) → (∀ w ∈ c.wins, w.closed = true) →
      ({ s with issued := xs } : State).owned x.e.crx = [] → s.pwr.kept = none →
      ∃ t, exec .land s = .next t ∧ t.issued = xs ∧
        t.crossings = s.crossings.map fun y => if y.crx == c.crx && decide (y.state ≤ 3) then
          { c with state := if c.details.isEmpty then 4 else 5, status := if c.details.isEmpty then St.ok else St.spoiled, stateTime := s.stamp } else y)

/-- An edge of an enabled local sheet sensor that has lasted its filter and debounce times (R340), of the sense an open, unsatisfied window waits for satisfies the earliest such window and changes nothing else (R117). An abandoned crossing that no station exposes any more has ended, abandoned, and keeps its slot (R120). Causes that wait start one engine-wide abandonment at this edge: every exposing station is to stop (R121, R332). 1 ms later no station exposes. Once none does, its last steps end it (R121). -/
def Obligations.SheetEdgesAndAbandonment : Prop :=
  (∀ (i ns : Nat) (level : Bool) (c : Crossing) (w : Win) (s : State), i < 32 → s.lon Reg.IO_SHEET_EN i = true → s.lv Reg.IO_SHEET_INPUT i < 64 →
    100 * s.lv Reg.IO_GPIO_CFG_FILT (s.lv Reg.IO_SHEET_INPUT i) ≤ ns → 1000 * max 1 (s.lv Reg.IO_SHEET_DEBOUNCE i) ≤ ns →
    (((s.winsOn i).filter fun x => x.2.opened && !x.2.closed).find? fun x => !x.2.sat && x.2.sense == !(level == s.lon Reg.IO_SHEET_COVER_LVL i)) = some (c, w) →
    ∃ t, exec (.sheetEdge i level ns) s = .next t ∧ t = { s with crossings := s.crossings.map fun y => if y.crx == c.crx && decide (y.state ≤ 3) then
      { c with wins := c.wins.map fun v => if v.id == w.id then { v with sat := true } else v } else y }) ∧
  (∀ (crx : Nat) (c : Crossing) (s : State), s.live? crx = some c → c.abandon.isSome = true → s.exposing crx = 0 → s.pwr.kept = none →
    ∃ t, exec (.abandonComplete crx) s = .next t ∧ t.crossings = s.crossings.map fun y => if y.crx == c.crx && decide (y.state ≤ 3) then
      { c.defect 7 0x09 c.lost c.expMask with state := 6, status := St.abandoned, stateTime := s.stamp } else y) ∧
  (∀ s : State, s.abCauses ≠ 0 → s.eng = none → ∃ t, exec .engineAbandon s = .next t ∧ t.eng = some ⟨engineCause s.abCauses, s.now⟩ ∧ t.abCauses = 0 ∧
    (∀ n, n < 6 → (s.stns n).expo.isSome = true → bitOf (t.stns n).stop 4 = true) ∧
    t = { s with eng := t.eng, abCauses := 0, stn := t.stn, crossings := t.crossings }) ∧
  (∀ (a : EngAb) (s : State), s.eng = some a → a.start + 1000000 ≤ s.now → ∃ t, exec .engineAbandonLaserCut s = .next t ∧ (∀ n, n < 6 → (t.stns n).expo = none) ∧ t.eng = s.eng) ∧
  ∀ (a : EngAb) (s : State), s.eng = some a → (∀ n, n < 6 → (s.stns n).expo = none) → s.pwr.kept = none →
    ∃ t, exec .engineAbandonShutdown s = .next t ∧ t.eng = none ∧ (s.liveCrx = [] → ∀ h, h < 32 → t.hst h ≠ Hst.run ∧ t.hst h ≠ Hst.blank)

/-- On station n, whose last sweep had its EOS: an SOS pulse of full width inside the window starts the next sweep at its tick and the next facet; with the scan clock unlocked nothing else happens. A shorter pulse, or one outside the window, changes nothing. Where none came in the window, a flown sweep starts at the tick predicted from the last two accepted ones and is counted, while fewer than FLY_MAX are in a row (R125); the clock lane carries the sweep's marker (R182). An EOS of full width between half and one period after its SOS ends the sweep; its duration D shows in LAST_D (R154); where the scan clock is unlocked and no facet is locked or learned nothing else changes, and during learning D is summed at its position (R126). When every sweep of a learning run has been measured facets are locked and their durations stored, the longest first where it stands out by 64 ticks (R126). -/
def Obligations.SweepsBeginAndEnd : Prop :=
  (∀ (n tick pulse : Nat) (s : State), n < 6 → (s.stns n).sweep = none ∨ (s.stns n).eosSeen = true →
    (let x := s.stns n
     let next := (s.rd Reg.STN_SCAN_STAT_FACET n + 1) % facets s n % 2 ^ 4
     (pulse < s.lv Reg.STN_DET_MIN_PULSE n ∨ s.inSosWindow n tick = false → exec (.sosEdge n tick pulse) s = .next s) ∧
     (s.lv Reg.STN_DET_MIN_PULSE n ≤ pulse → s.inSosWindow n tick = true → s.on Reg.SPLL_STAT_LOCKED n = false →
        ∃ t, exec (.sosEdge n tick pulse) s = .next t ∧ t.rd Reg.STN_SCAN_STAT_FACET n = next ∧
          t.stns n = { x with sweep := some tick, sos0 := some tick, sos1 := x.sos0, sosGap := x.flown + 1, begun := true, eosSeen := false, flown := 0 } ∧
          t = { s with regs := t.regs, stn := t.stn, spll := t.spll, bl := t.bl, out := t.out } ∧ State.RegsBut s t [Reg.STN_SCAN_STAT_FACET.key n 0]) ∧
     (∀ m per at_, x.predict = some (m, per, at_) → x.flown < s.lv Reg.STN_DET_FLY_MAX n →
        ∃ t, exec (.sosWindowExpire n) s = .next t ∧ t.rd Reg.STN_SCAN_STAT_FACET n = next ∧
          t.stns n = { x with sweep := some ((2 * at_ + m) / (2 * m)), begun := true, eosSeen := false, flown := x.flown + 1 } ∧
          t = { s with regs := t.regs, stn := t.stn, spll := t.spll, bl := t.bl, out := t.out } ∧
          State.RegsBut s t [Reg.STN_SCAN_STAT_FACET.key n 0, Reg.STN_DET_CNT_FLOWN.key n 0]))) ∧
  (∀ (n tick pulse t0 m per at_ : Nat) (s : State), n < 6 → (s.stns n).sweep = some t0 → (s.stns n).predict = some (m, per, at_) →
    s.lv Reg.STN_DET_MIN_PULSE n ≤ pulse → (s.stns n).eosSeen = false → t0 ≤ tick → per ≤ 2 * (tick - t0) * m → (tick - t0) * m ≤ per →
    s.on Reg.SPLL_STAT_LOCKED n = false → s.on Reg.STN_SCAN_STAT_FACET_LOCK n = false →
      ∃ t, exec (.eosEdge n tick pulse) s = .next t ∧ t = { s with regs := t.regs, stn := t.stn } ∧
        t.rd Reg.SPLL_LAST_D_D n = (tick - t0) % 2 ^ Reg.SPLL_LAST_D_D.width ∧ State.RegsBut s t [Reg.SPLL_LAST_D_D.key n 0] ∧
        (let x := s.stns n
         let f := s.rd Reg.STN_SCAN_STAT_FACET n
         t.stns n = if s.on Reg.STN_SCAN_STAT_LEARNING n then
             { x with eosSeen := true, learn := x.learn.set f (x.learn.getD f 0 + (tick - t0)), learnN := x.learnN + 1 }
           else { x with eosSeen := true })) ∧
  ∀ (n : Nat) (s : State), n < 6 → s.on Reg.STN_SCAN_STAT_LEARNING n = true → facets s n * s.learnRevs n ≤ (s.stns n).learnN → facets s n ≤ 12 →
    ∃ t, exec (.facetLearnEnd n) s = .next t ∧ t.on Reg.STN_SCAN_STAT_FACET_LOCK n = true ∧ t.on Reg.STN_SCAN_STAT_LEARNING n = false ∧
      (t.stns n).learn = [] ∧ t = { s with regs := t.regs, stn := t.stn, causes := t.causes } ∧
      (t.on Reg.STN_SCAN_STAT_FACET_AMBIG n = true ↔
        (let m := argMax 0 (0, 0) (s.stns n).learn
         (s.stns n).learn.getD m 0 < ((s.stns n).learn.eraseIdx m).foldl max 0 + 64 * s.learnRevs n))

/-- A sweep has begun on station n and no stop waits. Not ready (scan clock, head or facet lock missing), PHASE_OK falls and the base is not kept (R133, R134). Ready, with the base b kept and nothing exposed, the lag L against b decides: below half a line early the sweep is skipped and counted and b stays; within half a line it writes the group at b and the next base is b + ROWS; later it re-bases by the whole lines nearest to L first (R134, R135). -/
def Obligations.ASweepWritesItsGroup : Prop :=
  ∀ (n : Nat) (s : State), n < 6 → (s.stns n).begun = true → (s.stns n).stop = 0 →
    (s.sweepOk n = false → ∃ t, exec (.sweepStart n) s = .next t ∧ t.on Reg.STN_SCAN_STAT_PHASE_OK n = false ∧ (t.stns n).bSet = false ∧
      (t.stns n).okRun = 0 ∧ (t.stns n).begun = false ∧ (t.stns n).sweepAt = s.now ∧ t.crossings = s.crossings) ∧
    (s.sweepOk n = true → (s.stns n).bSet = true → (s.stns n).expo = none →
      (let b := (s.stns n).b
       let L := signed 48 (unsigned 48 (s.sweepX n - 256 * b))
       (L < -128 → ∃ t, exec (.sweepStart n) s = .next t ∧ (t.stns n).b = b ∧ (t.stns n).begun = false ∧
         t.rd Reg.STN_OVS_CNT_SKIPS n = satAdd Reg.STN_OVS_CNT_SKIPS.width (s.rd Reg.STN_OVS_CNT_SKIPS n) 1 ∧ t.crossings = s.crossings) ∧
       (-128 ≤ L → L < 128 → ∃ t, exec (.sweepStart n) s = .next t ∧ (t.stns n).b = b + s.rows n ∧ (t.stns n).begun = false ∧
         t.rd Reg.STN_OVS_CNT_DROPS n = s.rd Reg.STN_OVS_CNT_DROPS n ∧ t.crossings = s.crossings) ∧
       (128 ≤ L → ∃ t, exec (.sweepStart n) s = .next t ∧ (t.stns n).b = b + ((L + 128).fdiv 256).toNat + s.rows n)))

/-- Issued on time: EXPOSE_START on a ready station without an exposure starts one of the crossing's unfinished raster: first slot at the station's scheduling axis plus LINE_LEAD and the whole lines W of the registration offset that F_now leaves, with 64 W + F_now as APPLIED (R131, R141). EXPOSE_END ends the crossing's exposure there; lines not yet emitted are TRUNCATED (R111, R114). MARK_WINDOW adds a window behind the others. An edge of an enabled local mark sensor whose level has lasted FILTER goes to the earliest window that waits for one of its sense: one whose time awaits its history sample keeps it, one that cannot be converted counts a failure (R81, R139, R140). The first window past its end closes, and without an edge counts a failure, or waits where a Fenlink node in service serves it (R140, R320). -/
def Obligations.ExposureAndMarks : Prop :=
  (∀ (d : Decided) (c : Crossing) (p : Part) (s : State), s.OnTime 0x11 d → d.e.target < 6 → s.live? d.e.crx = some c →
    (c.parts.find? fun p => p.stn == d.e.target && !p.done) = some p → (s.stns d.e.target).expo = none → s.stnReady d.e.target = true →
    ∃ t, exec .exposeStart s = .next t ∧ t = { s with issued := s.issued.tail, regs := t.regs, stn := t.stn, bl := t.bl, crossings := t.crossings } ∧
      (let n := d.e.target
       let W := (s.rdI Reg.STN_REG_OFS_R n - (s.stns n).fNow + 32).fdiv 64
       t.rdI Reg.STN_REG_STAT_APPLIED n = signed Reg.STN_REG_STAT_APPLIED.width (unsigned Reg.STN_REG_STAT_APPLIED.width (64 * W + (s.stns n).fNow)) ∧
       t.stns n = { s.stns n with wLast := W, stop := (if s.eng.isSome then 16 else 0), expo := some ⟨d.e.crx, ((s.rd Reg.AXIS_SCHED (32 + n) + s.lv Reg.STN_LEAD_LINE_LEAD n : Nat) : Int) + W, 0, [], 0⟩ })) ∧
  (∀ (d : Decided) (c : Crossing) (p : Part) (x : Expo) (s : State), s.OnTime 0x12 d → d.e.target < 6 → (s.stns d.e.target).expo = some x → x.crx = d.e.crx →
    s.live? d.e.crx = some c → (c.parts.find? fun p => p.stn == d.e.target) = some p → p.done = false →
    ∃ t, exec .exposeEnd s = .next t ∧ t.issued = s.issued.tail ∧ (t.stns d.e.target).expo = none ∧
      t.live? d.e.crx = some ((c.endDetail p x.front x.ahead .truncated).setPart { p with done := true })) ∧
  (∀ (d : Decided) (s : State), s.OnTime 0x16 d → exec .markWindow s = .next { s with issued := s.issued.tail, marks := s.marks ++
    [⟨d.e.target, field d.e.arg 0 3, bitOf d.e.arg 3, d.e.axis, d.e.pos, field d.e.arg 4 12, field d.e.arg 16 12, false, none, none⟩] }) ∧
  (∀ (m time : Nat) (fall : Bool) (w : MarkWin) (s : State), m < 16 → s.on Reg.MARK_SRC_EN m = true → s.on Reg.MARK_SRC_SRC m = false →
    100 * s.rd Reg.MARK_SRC_FILTER m ≤ posDist s.now time →
    (s.marks.find? fun w => w.sensor == m && !w.got && w.sense == fall && (w.wait.isSome || !s.markOver w)) = some w →
    (let put (v : MarkWin) := s.marks.map fun x => if x == w then v else x
     (s.convert w.axis time = .wait → exec (.markEdge m fall time) s = .next { s with marks := put { w with got := true, edge := some time } }) ∧
     (s.convert w.axis time ≠ .wait → (∀ p, s.convert w.axis time ≠ .ok p) → ∃ t, exec (.markEdge m fall time) s = .next t ∧
       t = { s with marks := put { w with got := true, edge := none }, regs := t.regs } ∧
       t.rd Reg.STN_MARK_CNT_FAIL w.stn = satAdd Reg.STN_MARK_CNT_FAIL.width (s.rd Reg.STN_MARK_CNT_FAIL w.stn) 1 ∧
       State.RegsBut s t [Reg.STN_MARK_CNT_FAIL.key w.stn 0]))) ∧
  ∀ (w : MarkWin) (s : State), (s.marks.find? fun w => w.edge.isNone && w.wait.isNone && s.markOver w) = some w →
    (w.got = true → exec .markWindowClose s = .next { s with marks := s.marks.filter fun x => x != w }) ∧
    (w.got = false → s.markNode w.sensor = none → ∃ t, exec .markWindowClose s = .next t ∧
      t = { s with marks := s.marks.filter fun x => x != w, regs := t.regs } ∧
      t.rd Reg.STN_MARK_CNT_FAIL w.stn = satAdd Reg.STN_MARK_CNT_FAIL.width (s.rd Reg.STN_MARK_CNT_FAIL w.stn) 1 ∧
      State.RegsBut s t [Reg.STN_MARK_CNT_FAIL.key w.stn 0]) ∧
    (∀ p a, w.got = false → s.markNode w.sensor = some (p, a) → s.nodeFenced p a = false →
      exec .markWindowClose s = .next { s with marks := s.marks.map fun x => if x == w then { x with wait := some s.now } else x })

/-- A trial of a search that counts below 1,024 moves the lower bound past its band, one that does not the upper bound onto it, and the next trial is in the middle; of the last two bands the one nearer 1,024 is found, the upper on a tie: the loop closes on it at N_NOM (R145). A closed loop shows VT_WARN at each window; unlocked, a window in tolerance lengthens the run, and LOCK_K of them lock it; locked, one in tolerance ends the run of bad ones, and UNLOCK_K bad ones unlock it, are counted, and acquisition starts again (R146, R148). LOCK_TIMEOUT without lock sets NO_LOCK and raises SCANPLL_NOLOCK; every 10 ms from then a full search starts (R149). A SCAN_RAMP_LOAD of well-formed fields for the bank of a station that is not live and that no pending commit selects: without segments the bank holds its start value alone, and is valid; with segments it reads them from the source, where the ring's function may read and no error is injected, and holds those up to the first of length 0; the reserved bits of what it holds are 0 (R152, R153, R391). One for the live bank is refused, and the bank stays (R153). -/
def Obligations.ScanClocksAndRampBanks : Prop :=
  ((∀ (n count : Nat) (s : State), n < 6 → s.on Reg.SPLL_STAT_SEARCHING n = true →
    (let x := s.splls n
     (x.last = false → count < 1024 → x.m + 1 < x.hi → exec (.bandSearchTrial n count) s = .next (s.setSpll n { x with lo := x.m + 1, m := (x.m + 1 + x.hi) / 2 })) ∧
     (x.last = false → 1024 ≤ count → x.lo < x.m →
       exec (.bandSearchTrial n count) s = .next (s.setSpll n { x with hi := x.m, cnt := some count, m := (x.lo + x.m) / 2 })) ∧
     (∀ c, x.last = true → x.cnt = some c → x.lo ≤ 63 → s.lv Reg.SPLL_CFG_BAND_SLOT n < 8 → ∃ t, exec (.bandSearchTrial n count) s = .next t ∧
       t.rd Reg.SPLL_STAT_BAND n = (if ((count : Int) - 1024).natAbs < ((c : Int) - 1024).natAbs then x.lo - 1 else x.lo) ∧
       t.on Reg.SPLL_STAT_SEARCHING n = false ∧ t.rd Reg.SPLL_STAT_N n = s.lv Reg.SPLL_CFG_N_NOM n % 2 ^ 9 ∧ (t.splls n).closed = true ∧
       t = { s with regs := t.regs, spll := t.spll }))) ∧
  (∀ (n count : Nat) (vt : Bool) (s : State), n < 6 → (s.splls n).closed = true → (s.splls n).held = 0 →
    (let x := s.splls n
     let tol := ((count : Int) - 1024).natAbs ≤ s.lv Reg.SPLL_LOCK_CFG_LOCK_TOL n
     let shown := s.wb Reg.SPLL_STAT_VT_WARN vt n
     (s.on Reg.SPLL_STAT_LOCKED n = false → tol → x.inRun + 1 < max 1 (s.lv Reg.SPLL_LOCK_CFG_LOCK_K n) → x.wins + 1 < 8 →
       exec (.lockWindowEnd n count vt) s = .next (shown.setSpll n { x with inRun := x.inRun + 1, wins := x.wins + 1 })) ∧
     (s.on Reg.SPLL_STAT_LOCKED n = false → tol → max 1 (s.lv Reg.SPLL_LOCK_CFG_LOCK_K n) ≤ x.inRun + 1 → (s.bst n ≠ Bst.off ∨ s.lv Reg.BL_CFG_PORT n ≠ 1) →
       ∃ t, exec (.lockWindowEnd n count vt) s = .next t ∧ t.on Reg.SPLL_STAT_LOCKED n = true ∧ t.on Reg.SPLL_STAT_VT_WARN n = vt ∧
         (t.splls n).acqAt = none ∧ t = { s with regs := t.regs, spll := t.spll, causes := t.causes } ∧
         State.RegsBut s t [Reg.SPLL_STAT_LOCKED.key n 0, Reg.SPLL_STAT_HOPPING.key n 0, Reg.SPLL_STAT_VT_WARN.key n 0]) ∧
     (s.on Reg.SPLL_STAT_LOCKED n = true → tol → exec (.lockWindowEnd n count vt) s = .next (shown.setSpll n { x with outRun := 0 })) ∧
     (s.on Reg.SPLL_STAT_LOCKED n = true → ¬tol → max 1 (s.lv Reg.SPLL_LOCK_CFG_UNLOCK_K n) ≤ x.outRun + 1 → s.bst n ≠ Bst.up → (s.stns n).expo = none →
       s.rd Reg.SPLL_CNT_UNLOCKS n < 2 ^ 16 - 1 → ∃ t, exec (.lockWindowEnd n count vt) s = .next t ∧ t.on Reg.SPLL_STAT_LOCKED n = false ∧
         t.rd Reg.SPLL_CNT_UNLOCKS n = s.rd Reg.SPLL_CNT_UNLOCKS n + 1 ∧ (t.splls n).acqAt = some s.now ∧ t.on Reg.STN_SCAN_STAT_PHASE_OK n = false ∧ (t.stns n).bSet = false ∧
         t = { s with regs := t.regs, spll := t.spll, stn := t.stn }))) ∧
  (∀ (n t0 : Nat) (s : State), n < 6 → s.isLaid n = false → (s.splls n).acqAt = some t0 → s.on Reg.SPLL_STAT_LOCKED n = false →
    t0 + 100000 * max 1 (s.lv Reg.SPLL_LOCK_CFG_LOCK_TIMEOUT n) ≤ s.now →
    exec (.pllLockTimeout n) s = .next (((s.setSpll n { s.splls n with acqAt := none, retryAt := some (s.now + 10000000) }).wr Reg.SPLL_STAT_NO_LOCK 1 n).raiseLive
      Src.scanpllNolock n)) ∧
  ∀ (n t0 : Nat) (s : State), n < 6 → s.isLaid n = false → (s.splls n).retryAt = some t0 → t0 ≤ s.now →
    ∃ t, exec (.scanPllRetry n) s = .next t ∧ t.on Reg.SPLL_STAT_SEARCHING n = true ∧ t = { s with regs := t.regs, spll := t.spll } ∧
      t.splls n = { s.splls n with retryAt := some (t0 + 10000000), lo := 0, hi := 62, m := 31, cnt := none, last := false, closed := false }) ∧
  (∀ (n : Nat) (d : Desc) (data : ReadRes) (s : State), n < 64 → s.Ready n 0x48 d → dCrx d = 0 → dget d 16 0 3 < 6 → dget d 17 0 7 ≤ 64 →
    dget d 24 0 64 % 8 = 0 → dget d 16 4 4 = 0 → dget d 17 7 1 = 0 → dZero d 18 20 = true → dZero d 32 64 = true → s.Room (s.rd Reg.SQ_CFG_EQ n) →
    (let st := dget d 16 0 3
     let b := dget d 16 3 1
     let cnt := dget d 17 0 7
     let r0 := signed 32 (dget d 20 0 32)
     (s.lv Reg.SPLL_SD_RAMP_BANK st = b → (cnt = 0 → dget d 24 0 64 = 0) → ∃ t, exec (.scanRampLoad n data) s = .next t ∧ s.Done t n d St.refusedState 0 ∧
       t = { s with sq := t.sq, eq := t.eq }) ∧
     (s.lv Reg.SPLL_SD_RAMP_BANK st ≠ b → s.rampPending st b = false → cnt = 0 → dget d 24 0 64 = 0 →
       ∃ t, exec (.scanRampLoad n data) s = .next t ∧ t.ramp st b = ⟨r0, []⟩ ∧ t.rdI Reg.SPLL_RAMP_MIN_RAMP_MIN st b = r0 ∧ t.rdI Reg.SPLL_RAMP_MAX_RAMP_MAX st b = r0 ∧
         t.on (if b = 0 then Reg.SPLL_STAT_RAMP0_VALID else Reg.SPLL_STAT_RAMP1_VALID) st = true ∧ (t.sqs n).accepted = (s.sqs n).accepted.tail ∧
         t = { s with regs := t.regs, ramps := t.ramps, sq := t.sq, eq := t.eq }) ∧
     (∀ bs, s.lv Reg.SPLL_SD_RAMP_BANK st ≠ b → s.rampPending st b = false → 0 < cnt → data = .ok bs → s.Calm → (s.pf (s.ownSq n)).flr = false →
       (s.pf (s.ownSq n)).bme = true → (∀ v ∈ (entries 8 cnt bs).take ((rampSegs (entries 8 cnt bs)).length + 1), field v 48 16 = 0) →
       ∃ t, exec (.scanRampLoad n data) s = .next t ∧ t.ramp st b = ⟨r0, rampSegs (entries 8 cnt bs)⟩ ∧ (t.sqs n).accepted = (s.sqs n).accepted.tail ∧
         t.on (if b = 0 then Reg.SPLL_STAT_RAMP0_VALID else Reg.SPLL_STAT_RAMP1_VALID) st = true)))

/-- Lighter l of station l / 2, with Bus Master Enable set and tags left on the link, takes its next row of the first crossing with one left: it reads the row's whole words at base + offset × stride, in requests of at most the Max Read Request Size, where the row has its words or the share has room for them; else WAIT_SPACE with the line, and no read (R27, R113, R164–R166). Without Bus Master Enable, or with too few tags, nothing happens. With no injection armed and no general lighter at work, a read that returned data writes the row's words into the words its line reserved and counts their bytes; the line now holds that row. One that failed counts, and marks the line absent (R344). A DOT_SET_LOAD of well-formed fields for a set of station t: where a live crossing that did not board at this very edge names the set it is refused and nothing else changes; where the station is not boomed, no other load writes its head and the function may read, one that names the mapping table alone: the 64 bits read become the mapping that dot codes are looked up in, and it completes (R171, R175). One that names no table completes at once. A waveform entry whose sub-pulses are out of order makes it BAD_DESC with the entry's code, and no table changes (R172). -/
def Obligations.RastersAndDotSetsAreRead : Prop :=
  ((∀ (l : Nat) (c : Crossing) (p : Part) (s : State), l < 12 → s.pf0.flr = false → s.rasterWork (l / 2) (l % 2) = some (c, p) →
    (let k := l % 2
     let off := p.forLighter k (p.nextOf k)
     let tag := p.tags && k == 1
     let len := 32 * (if tag then p.wordsT else p.wordsL)
     let need := s.reserveFrom c.crx p off
     (s.pf0.bme = false → exec (.rasterRowFetch l) s = .next s) ∧
     (s.tagLimit 0 < s.readsOut + s.readCount 0 len → exec (.rasterRowFetch l) s = .next s) ∧
     (s.pf0.bme = true → s.readsOut + s.readCount 0 len ≤ s.tagLimit 0 → (∀ lo m, need = some (lo, m) → m * (p.wordsL + p.wordsT) ≤ s.ringFree (l / 2)) →
       ∃ t, exec (.rasterRowFetch l) s = .next t ∧
         t.out = (s.emitReads 0 ((if tag then p.tagBase else p.lvlBase) + off * p.stride) len).out ∧
         (t.rlts l).rows = (s.rlts l).rows ++ [⟨c.crx, off, tag, s.readCount 0 len⟩] ∧ t.on Reg.LT_STAT_BUSY l = true ∧
         t = { s with regs := t.regs, stn := t.stn, rlt := t.rlt, crossings := t.crossings, out := t.out }) ∧
     (∀ lo m, s.pf0.bme = true → s.readsOut + s.readCount 0 len ≤ s.tagLimit 0 → need = some (lo, m) → s.ringFree (l / 2) < m * (p.wordsL + p.wordsT) →
       ∃ t, exec (.rasterRowFetch l) s = .next t ∧ t.on Reg.LT_STAT_WAIT_SPACE l = true ∧ t.rd Reg.LT_NEXT_LINE_LINE l = (p.first + off) % 2 ^ 24 ∧
         t = { s with regs := t.regs } ∧ State.RegsBut s t [Reg.LT_STAT_WAIT_SPACE.key l 0, Reg.LT_NEXT_LINE_LINE.key l 0]))) ∧
  ∀ (l : Nat) (r : Row) (rs : List Row) (h : HLine) (s : State), l < 12 → s.Calm → s.xfer = [] → (s.rlts l).rows = r :: rs → (s.rlts l).crx = r.crx → (s.live? r.crx).isSome = true →
    ((s.stns (l / 2)).lines.find? fun h => h.crx == r.crx && h.off == r.off) = some h →
    (let n := l / 2
     let cnt := if r.tag then h.wt else h.wl
     let base := if r.tag then h.base + h.wl else h.base
     let row (f : HLine → HLine) := (s.stns n).lines.map fun h => if h.crx == r.crx && h.off == r.off then f h else h
     (∀ bs, cnt ≤ s.shareWords n → s.rd Reg.LT_BYTES l + 32 * cnt < 2 ^ 64 → ∃ t, exec (.rasterReadComplete l (.ok bs)) s = .next t ∧ (t.rlts l).rows = rs ∧
       (∀ i, i < cnt → tget 0 t.hold (s.shareWord n (base + i)) = (entries 32 cnt bs).getD i 0) ∧ t.rd Reg.LT_BYTES l = s.rd Reg.LT_BYTES l + 32 * cnt ∧
       (t.stns n).lines = row fun h => if r.tag then { h with gotT := true, time := s.now } else { h with gotL := true, time := s.now }) ∧
     (∀ how, how ≠ .poisoned → s.rd Reg.LT_ERR_READ_FAIL l + 1 < 2 ^ 16 → ∃ t, exec (.rasterReadComplete l (.fail how)) s = .next t ∧ (t.rlts l).rows = rs ∧
       t.hold = s.hold ∧ t.rd Reg.LT_ERR_READ_FAIL l = s.rd Reg.LT_ERR_READ_FAIL l + 1 ∧ (t.stns n).lines = row fun h => { h with absent := true }))) ∧
  (∀ (n : Nat) (d : Desc) (bs : List Byte) (s : State), n < 64 → s.Ready n 0x44 d → dCrx d = 0 → dget d 16 0 3 < 6 → dget d 24 0 64 % 8 = 0 →
    dget d 16 7 1 = 0 → dZero d 17 24 = true → dZero d 32 64 = true → s.Room (s.rd Reg.SQ_CFG_EQ n) → s.Calm →
    (let st := dget d 16 0 3
     let k := dget d 16 3 2
     let m := dget d 16 5 1 = 1
     let w := dget d 16 6 1 = 1
     let used := s.dotUsed st k
     (used = true → ∃ t, exec (.dotSetLoad n (.ok bs)) s = .next t ∧ s.Done t n d St.refusedState 0 ∧ t = { s with sq := t.sq, eq := t.eq }) ∧
     (used = false → s.isBoomed st = false → ¬m → ¬w → ∃ t, exec (.dotSetLoad n (.ok bs)) s = .next t ∧ s.Done t n d St.ok 0 ∧ t = { s with sq := t.sq, eq := t.eq }) ∧
     (used = false → s.isBoomed st = false → m → ¬w → (s.bls st).load = none → (s.pf (s.ownSq n)).flr = false → (s.pf (s.ownSq n)).bme = true → ∃ t, exec (.dotSetLoad n (.ok bs)) s = .next t ∧ (t.sqs n).accepted = (s.sqs n).accepted.tail ∧
       (∀ v g, v < 4 → g < 4 → t.dotCode st k v g = field (leNat (bs.take 8)) (4 * (4 * v + g)) 4)) ∧
     (used = false → s.isBoomed st = false → w → (s.bls st).load = none → (s.pf (s.ownSq n)).flr = false → (s.pf (s.ownSq n)).bme = true → ∀ i, ((entries 8 16 (if m then bs.drop 8 else bs)).findIdx? fun v => !waveOk v 4 0 0) = some i →
       ∃ t, exec (.dotSetLoad n (.ok bs)) s = .next t ∧ (t.sqs n).accepted = (s.sqs n).accepted.tail ∧
         t = { s with regs := t.regs, sq := t.sq, eq := t.eq, out := t.out, pf0 := t.pf0, pf1 := t.pf1 } ∧ State.RegsBut s t [Reg.LT_BYTES.key 12 0])))

/-- Where records have room, the station exposes nothing and no class A fault is latched: a head that appears is present, and its identity is read; one that goes leaves a station of a used port with no head, no identity and its link OFF, and raises HEAD_DETACH (R188, R203). Where the identity read in state IDENT agrees with the host's description, ID_AGREE is set, its unit id shows, and training begins at CLOCK, attempt 1; where it does not agree, or the read failed, ID_AGREE is 0, the link goes OFF and the identity waits for a change (R188, R194). With room for reports, no exposure on the station, no class A fault latched, and nothing being written to its head: from CLOCK, LANE, DESKEW and SYNC a report that shows the state's goal (delay line locked, every used lane locked, aligned, every table and the levels read back equal) moves the link to the next state, with a report of old and new state, and one that does not moves it nowhere; UP is HEAD_SYNC (R188, R191, R204). 5 ms without UP starts the next of three attempts; after the third the link is OFF, counts the failure and raises BL_TRAIN_FAIL, and one second later the identity is read again (R188). An UP link whose scan PLL is unlocked, or whose sideband has been silent for 3 ms, goes to CLOCK; one with neither stays (R188). -/
def Obligations.HeadsAreIdentifiedAndLinksTrained : Prop :=
  (∀ (n : Nat) (s : State), n < 6 → (s.eqs (s.rd Reg.RING_EVT_ROUTE_UNIT)).held = false → (s.eqs (s.rd Reg.RING_EVT_ROUTE_UNIT)).share.length < 250 →
    (s.stns n).expo = none → s.aLatched = false →
    (s.on Reg.BL_STAT_HEAD_PRESENT n = false → s.on Reg.SPLL_STAT_LOCKED n = false →
      ∃ t, exec (.hpdChange n true) s = .next t ∧ t.on Reg.BL_STAT_HEAD_PRESENT n = true ∧ (t.bls n).reading = true ∧ (t.bls n).refused = false ∧
        t = { s with regs := t.regs, bl := t.bl, causes := t.causes } ∧ State.RegsBut s t [Reg.BL_STAT_HEAD_PRESENT.key n 0]) ∧
    (s.on Reg.BL_STAT_HEAD_PRESENT n = true → s.lv Reg.BL_CFG_PORT n ≠ 0 → s.isLaid n = false →
      ∃ t u : State, exec (.hpdChange n false) s = .next t ∧ t = u.raiseLive Src.headDetach n ∧ u.on Reg.BL_STAT_HEAD_PRESENT n = false ∧
        u.on Reg.BL_STAT_ID_AGREE n = false ∧ u.bst n = Bst.off ∧ (u.bls n).ident = [] ∧ u.crossings = s.crossings ∧ u.tide = s.tide) ∧
    ((s.bls n).reading = true → s.on Reg.BL_STAT_HEAD_PRESENT n = true → s.bst n = Bst.ident →
      (∀ bs, s.idAgrees n (bs.take 676) = true → ∃ t, exec (.identityReadDone n (some bs)) s = .next t ∧ t.on Reg.BL_STAT_ID_AGREE n = true ∧
        t.bst n = Bst.clock ∧ (t.bls n).attempt = 1 ∧ (t.bls n).ident = bs.take 676 ∧
        t.rd Reg.BL_HEAD_ID_LO_UNIT_ID_LO n = bytesAt (bs.take 676) 8 4 % 2 ^ 32) ∧
      (∀ bs, s.idAgrees n (bs.take 676) = false → ∃ t, exec (.identityReadDone n (some bs)) s = .next t ∧ t.on Reg.BL_STAT_ID_AGREE n = false ∧
        t.bst n = Bst.off ∧ (t.bls n).refused = true) ∧
      ∃ t, exec (.identityReadDone n none) s = .next t ∧ t.on Reg.BL_STAT_ID_AGREE n = false ∧ t.bst n = Bst.off ∧ (t.bls n).refused = true)) ∧
  (∀ (n : Nat) (s : State), n < 6 → (s.eqs (s.rd Reg.RING_EVT_ROUTE_UNIT)).held = false → (s.eqs (s.rd Reg.RING_EVT_ROUTE_UNIT)).share.length < 250 →
    (s.stns n).expo = none → s.aLatched = false → (s.bls n).load = none → (s.commits.any fun c => bitOf c.heads n) = false →
    (let goes (t : State) (a b : Nat) : Prop := t.bst n = b ∧ s.Told t (s.rd Reg.RING_EVT_ROUTE_UNIT) (mkRec 4 St.ok (n + 8 * 0x03) 0 (b + 8 * a))
     (∀ r, s.bst n = Bst.clock → (bitOf r 5 = true → ∃ t, exec (.linkTrainProgress n r) s = .next t ∧ goes t Bst.clock Bst.lane) ∧
       (bitOf r 5 = false → exec (.linkTrainProgress n r) s = .next s)) ∧
     (∀ r, s.bst n = Bst.lane → (r &&& s.laneMask n = s.laneMask n → ∃ t, exec (.linkTrainProgress n r) s = .next t ∧ goes t Bst.lane Bst.deskew) ∧
       (r &&& s.laneMask n ≠ s.laneMask n → exec (.linkTrainProgress n r) s = .next s)) ∧
     (∀ r, s.bst n = Bst.deskew → (bitOf r 4 = true → ∃ t, exec (.linkTrainProgress n r) s = .next t ∧ goes t Bst.deskew Bst.sync) ∧
       (bitOf r 4 = false → exec (.linkTrainProgress n r) s = .next s)) ∧
     (∀ r, s.bst n = Bst.sync → ((s.bls n).sync ≠ 31 → exec (.linkTrainProgress n r) s = .next s) ∧ ((s.bls n).sync = 31 → ∃ t, exec (.linkTrainProgress n r) s = .next t ∧ goes t Bst.sync Bst.up ∧ t.on Reg.BL_STAT_HEAD_SYNC n = true ∧
       (t.bls n).upSeen = true ∧ (t.bls n).pollAt = s.now + 1000000)) ∧
     (Bst.clock < s.bst n → s.bst n < Bst.up → (s.bls n).since + 5000000 ≤ s.now →
       ((s.bls n).attempt < 3 → ∃ t, exec (.linkTrainTimeout n) s = .next t ∧ goes t (s.bst n) Bst.clock ∧ (t.bls n).attempt = (s.bls n).attempt + 1 ∧ (t.bls n).since = s.now ∧
         t = { s with regs := t.regs, bl := t.bl, eq := t.eq, out := t.out } ∧ State.RegsBut s t [Reg.BL_STAT_STATE.key n 0, Reg.BL_STAT_HEAD_SYNC.key n 0]) ∧
       (3 ≤ (s.bls n).attempt → s.rd Reg.BL_CNT_TRAIN_FAIL n + 1 < 2 ^ 16 → ∃ t u : State, exec (.linkTrainTimeout n) s = .next t ∧ t = u.raise Src.blTrainFail n ∧ u.bst n = Bst.off ∧
         (u.bls n).retryAt = some (s.now + 1000000000) ∧ u.rd Reg.BL_CNT_TRAIN_FAIL n = s.rd Reg.BL_CNT_TRAIN_FAIL n + 1)) ∧
     (∀ t0, (s.bls n).retryAt = some t0 → t0 ≤ s.now → s.bst n = Bst.off → s.lv Reg.BL_CFG_PORT n = 1 → s.isLaid n = false → s.on Reg.BL_STAT_HEAD_PRESENT n = true →
       s.on Reg.SPLL_STAT_LOCKED n = true → (s.bls n).refused = false → s.rd Reg.PWR_STAT_MODE = 0 →
       ∃ t, exec (.beamLinkTrainRetry n) s = .next t ∧ goes t Bst.off Bst.ident ∧ (t.bls n).reading = true ∧ (t.bls n).retryAt = none) ∧
     (s.retrainDue n = false → exec (.linkRetrain n) s = .next s) ∧
     (s.bst n = Bst.up → s.retrainDue n = true → ∃ t, exec (.linkRetrain n) s = .next t ∧ goes t Bst.up Bst.clock ∧ (t.bls n).attempt = 1 ∧ t.on Reg.BL_STAT_HEAD_SYNC n = false ∧
       t = { s with regs := t.regs, bl := t.bl, eq := t.eq, stn := t.stn, out := t.out } ∧
       State.RegsBut s t [Reg.BL_STAT_STATE.key n 0, Reg.BL_STAT_HEAD_SYNC.key n 0, Reg.STN_SCAN_STAT_PHASE_OK.key n 0])))

/-- With room for reports: at its time, a link that is UP asks for status and then for errors (R190); the reply to the outstanding request, by its CMD, TID and CRC, is taken, and another packet changes nothing; without a reply in 100 µs the request is sent again, twice, and then the sideband is silent (R189). A good frame report ends the wait for its frame; a bad one, or none in 100 µs, counts and records BEAM_LINK over the lines of its live crossings (R187). A fault report fails its emitter, and where a row maps to it says so (R197). Relief of a head that agrees maps the one failed row to the first healthy free emitter of its site, in quay and live set, and reports it (R198). A wear copy is written page after page, and reported after the last (R195). -/
def Obligations.HeadsAreAskedAndAnswer : Prop :=
  ∀ (n : Nat) (s : State), n < 6 → s.Room (s.rd Reg.RING_EVT_ROUTE_UNIT) →
    (s.bst n = Bst.up → (s.bls n).pollAt ≤ s.now → (s.bls n).stale = false → (s.bls n).req = none → ∃ t, exec (.headStatusPoll n) s = .next t ∧ (t.bls n).pollAt = (s.bls n).pollAt + 1000000 ∧
      t.out = .sideband n (sbPacket 0x01 ((s.bls n).tid % 255 + 1) []) :: s.out ∧ (t.bls n).queue = (s.bls n).queue ++ [(0x02, [])]) ∧
    (∀ q, (s.bls n).req = some q → (s.bls n).queue = [] →
      (∀ cmd tid p crc, (tid ≠ q.tid ∨ cmd ≠ q.cmd + 0x80 ∨ crc ≠ crc32c (sbBody cmd tid p)) → exec (.sidebandReply n cmd tid p crc) s = .next s) ∧
      (∀ p, q.cmd = 0x01 → p.length ≤ 1024 → ∃ t, exec (.sidebandReply n 0x81 q.tid p (crc32c (sbBody 0x81 q.tid p))) s = .next t ∧ t.rd Reg.BL_STAT_TEMP n = bytesAt p 1 2 % 2 ^ 16 ∧ (t.bls n).req = none ∧ (t.bls n).tempAt = s.now) ∧
      (q.at_ + 100000 ≤ s.now → q.tries < 2 → exec (.sidebandTimeout n) s = .next ((s.setBl n { s.bls n with req := some { q with tries := q.tries + 1, at_ := s.now } }).emit
        (.sideband n (sbPacket q.cmd q.tid q.payload)))) ∧
      (q.at_ + 100000 ≤ s.now → 2 ≤ q.tries → q.cmd = 0x01 ∨ q.cmd = 0x02 → ∃ t, exec (.sidebandTimeout n) s = .next t ∧ t = { s with bl := t.bl } ∧
        t.bls n = { s.bls n with req := none, silent := if (s.bls n).silent.isSome then (s.bls n).silent else some s.now })) ∧
    (∀ f, ((s.bls n).frames.find? fun g => g.sweep == f.sweep) = some f → f.missed = false → (∀ l ∈ f.lines, (s.live? l.1).isSome = true) →
      (let waits := s.setBl n { s.bls n with frames := (s.bls n).frames.filter fun g => g.sweep != f.sweep }
       exec (.gstat n f.sweep true false) s = .next waits ∧
       (∀ whole crcFail crx lo hi c, (whole = false ∨ crcFail = true) → f.lines = [(crx, lo, hi)] → s.live? crx = some c → s.rd Reg.BL_GSTAT_CNT_FRAME_ERR n + 1 < 2 ^ 16 →
         ∃ t, exec (.gstat n f.sweep whole crcFail) s = .next t ∧ t.live? crx = some (c.defect n 0x0B lo hi) ∧ t = { waits with regs := t.regs, crossings := t.crossings } ∧
           t.rd Reg.BL_GSTAT_CNT_FRAME_ERR n = s.rd Reg.BL_GSTAT_CNT_FRAME_ERR n + 1 ∧ State.RegsBut s t [Reg.BL_GSTAT_CNT_FRAME_ERR.key n 0]))) ∧
    (∀ f fs, (s.bls n).frames = f :: fs → f.missed = false → f.time + 100000 ≤ s.now → f.lines = [] → s.rd Reg.BL_GSTAT_CNT_FRAME_ERR n + 1 < 2 ^ 16 →
      ∃ t, exec (.gstatMissing n) s = .next t ∧ t.bls n = { s.bls n with frames := { f with missed := true } :: fs } ∧ t = { s with regs := t.regs, bl := t.bl } ∧
        t.rd Reg.BL_GSTAT_CNT_FRAME_ERR n = s.rd Reg.BL_GSTAT_CNT_FRAME_ERR n + 1 ∧ State.RegsBut s t [Reg.BL_GSTAT_CNT_FRAME_ERR.key n 0]) ∧
    (∀ e cause, e < 40 → cause < 3 → s.lv Reg.BL_CFG_PORT n = 1 → ∃ t, exec (.emitterFault n e cause) s = .next t ∧ bitOf (t.failed n) e = true ∧
      (∀ i, i < 40 → i ≠ e → bitOf (t.failed n) i = bitOf (s.failed n) i) ∧ t = { s with regs := t.regs, bl := t.bl, eq := t.eq } ∧
      (if s.emitterRow n e = 0x3F then t.eq = s.eq else (t.eqs (s.rd Reg.RING_EVT_ROUTE_UNIT)).share.length = (s.eqs (s.rd Reg.RING_EVT_ROUTE_UNIT)).share.length + 1)) ∧
    (∀ r p, (s.bls n).relief = true → s.lv Reg.BL_CFG_PORT n = 1 → s.on Reg.BL_STAT_ID_AGREE n = true → (s.stns n).expo = none → s.on Reg.BL_STAT_CHAR_BUSY n = false → r < min 32 (s.rows n) →
      (∀ q, q < min 32 (s.rows n) → (bitOf (s.failed n) (s.rowEmitter n q) = true ↔ q = r)) →
      ((List.range 40).find? fun p => s.poolFree n p && (s.bls n).site p == (s.bls n).site (s.rowEmitter n r)) = some p →
      ∃ t, exec (.relief n) s = .next t ∧ t.rowEmitter n r = p ∧ t.qv Reg.STN_ROW_MAP_EMITTER n r = p ∧ (∀ q, q ≠ r → q < 32 → t.rowEmitter n q = s.rowEmitter n q) ∧
        (t.bls n).relief = false ∧ (t.bls n).wearDue = true ∧ t = { s with quay := t.quay, live := t.live, commits := t.commits, bl := t.bl, eq := t.eq }) ∧
    ∀ copy page img, s.boot.running = true → (s.stns n).expo = none → s.isLaid n = false → s.on Reg.BL_STAT_ID_AGREE n = true → (s.bls n).wear = some (copy, page, img) → 0 < page →
      ∃ t, exec (.wearWrite n) s = .next t ∧ t.out = .idPage n (32 + 8 * copy + page) (((img.drop (32 * page)).take 32).map fun v => BitVec.ofNat 8 v) :: s.out ∧
        (page < 7 → (t.bls n).wear = some (copy, page + 1, img) ∧ t.eq = s.eq) ∧ (7 ≤ page → (t.bls n).wear = none ∧
          s.Told t (s.rd Reg.RING_EVT_ROUTE_UNIT) (mkRec 4 St.ok (n + 8 * 0x08) 0 (leNat ((img.take 4).map fun v => BitVec.ofNat 8 v) + 2 ^ 32 * copy))) ∧
        t = { s with bl := t.bl, out := t.out, eq := t.eq }

/-- A decision of channel n away from the edge of a commit: the sinc3 filters give currents and bus voltage, VBUS and speed are shown and the bus group is measured (R206, R222). Where that leaves the channel in RUN, not braking and its group not shorted, the decision shows the torque of the flux it estimates, moves both comparators by R208, and applies the switching table's entry for them and the flux's sector, an entry from 8 on being the zero vector nearest to the last (R207–R210). With its set-point in DRV_SPD_SET, the 50 µs step moves the ramped set-point towards the clamped one by ACCEL or DECEL and sets the torque reference from error and sum, within TQ_MAX (R212, R213). In OFF and TRIPPED no torque reference moves. -/
def Obligations.DrivesDecideAndStep : Prop :=
  (∀ (n : Nat) (bA bB bV : List Bool) (adc : Nat) (s : State), n < 16 → s.edgeLive = none →
    (let mv := s.drvVolts n bV adc
     let iA := s.drvCurrent n (sinc3 (s.osr n) bA)
     let iB := s.drvCurrent n (sinc3 (s.osr n) bB)
     let g := s.lv Reg.DRV_CFG_BUS_GRP n
     let m := ((s.wr Reg.DRV_VBUS_VBUS mv n).wrI Reg.DRV_SPEED_SPEED (s.drvSpeed n) n).busMeasure g
     m.dst n = Dst.run → (m.buss g).ovr = false → 0 ≤ (m.drvs n).tref * s.drvSpeed n →
     ∃ t, exec (.driveDecision n bA bB bV adc) s = .next t ∧ t = { m with regs := t.regs, drv := t.drv, free := t.free, causes := t.causes } ∧
      (let d := m.drvs n
       let e := t.drvs n
       let torq := torque (s.lv Reg.DRV_CFG_POLE_PAIRS n) e.psiA e.psiB iA iB
       t.rd Reg.DRV_VBUS_VBUS n = m.rd Reg.DRV_VBUS_VBUS n ∧ t.rd Reg.DRV_TORQUE_TORQUE n = unsigned Reg.DRV_TORQUE_TORQUE.width torq ∧ t.dst n = Dst.run ∧
       e.iA = iA ∧ e.iB = iB ∧ (e.psiA, e.psiB) = m.fluxNext n iA iB mv (s.drvSpeed n) ∧
       e.phi = fluxCmp d.phi (e.psiA * e.psiA + e.psiB * e.psiB).toNat (m.psiRef2000 n) (s.lv Reg.DRV_BANDS_FLUX_BAND n) ∧
       e.tau = torqueCmp d.tau (d.tref - 5120000 * torq) (5120000 * s.lv Reg.DRV_BANDS_TQ_BAND n) ∧ e.tref = d.tref ∧
       ∀ k, sector e.psiA e.psiB = some k → t.free = m.free ∧
         e.vec = (if 8 ≤ s.swEntry n (18 * e.phi + 6 * e.tau + k) then nearestZero d.vec else s.swEntry n (18 * e.phi + 6 * e.tau + k))))) ∧
  ∀ (n : Nat) (x : PinInputs) (s : State), n < 16 → s.lv Reg.DRV_CFG_SRC n = 6 →
    (s.dst n = Dst.run → s.on Reg.DRV_STAT_BRAKING n = false →
      ∃ t, exec (.driveSpeedStep n x) s = .next t ∧ t = { s with regs := t.regs, drv := t.drv } ∧ t.dst n = Dst.run ∧
        (let d := s.drvs n
         let r := rampTo d.ramped (20000 * clampLim (s.lvI Reg.DRV_SPD_SET_SPD_SET n) (s.lvI Reg.DRV_SPD_MAX_SPD_MAX n).natAbs) (16 * s.lv Reg.DRV_ACCEL_ACCEL n) (16 * s.lv Reg.DRV_DECEL_DECEL n)
         let e := r - 20000 * s.drvSpeed n
         let sum := if d.clamped then d.sumE else d.sumE + e
         (t.drvs n).ramped = r ∧ (t.drvs n).sumE = sum ∧
         (t.drvs n).tref = clampLim (s.lv Reg.DRV_SPD_PI_KP n * e + s.lv Reg.DRV_SPD_PI_KI n * sum) (s.lv Reg.DRV_TQ_MAX_TQ_MAX n * (s.takeThr (4 + n)).rd Reg.THM_THR_THR (4 + n) * 20000))) ∧
    (s.dst n = Dst.off ∨ s.dst n = Dst.tripped → ∃ t, exec (.driveSpeedStep n x) s = .next t ∧ t = { s with regs := t.regs, drv := t.drv } ∧
      (t.drvs n).tref = (s.drvs n).tref ∧ (t.drvs n).want = s.lvI Reg.DRV_SPD_SET_SPD_SET n)

/-- Channel n is not fenced. Where the access is granted: START in OFF of an enabled channel with a set-point other than 0 goes to CATCH, or RUN with a valid angle, or SEARCH (R217); STOP takes RUN to STOPPING, and waits in CATCH (R217); FIND_ANGLE in OFF starts a search and its pulses (R219). A catch whose pulses agree on a slow rotor runs from rest, or searches where the angle is not valid; one that turns the right way within CATCH_MAX runs from its speed with a valid angle; one whose pulses disagree is tried once more, then the windings are shorted (R218). A search whose rotor stayed and whose rise times tell the direction makes the angle valid and runs, or is OFF again where only the angle was asked for; one that failed is tried again 20 ms later, and failing again raises DRV_ANGLE (R219). -/
def Obligations.DrivesStartCatchAndSearch : Prop :=
  ∀ (n : Nat) (s : State), n < 16 → s.fenced (6 + n) = false → s.stopWaits = [] → s.mst n = Mst.idle →
    (∀ src, s.Granted src (Reg.DRV_CTL_START.addr n 0) →
      (s.dst n = Dst.off → s.lon Reg.DRV_CFG_EN n = true → s.lv Reg.DRV_CFG_SRC n = 6 → s.lvI Reg.DRV_SPD_SET_SPD_SET n ≠ 0 →
        ∃ t, exec (.drvStart src n) s = .next t ∧ (t.drvs n).fwd = decide (0 ≤ s.lvI Reg.DRV_SPD_SET_SPD_SET n) ∧
          t.dst n = (if s.lon Reg.DRV_CFG_CATCH_EN n then Dst.catch_ else if s.on Reg.DRV_STAT_ANGLE_VALID n then Dst.run else Dst.search) ∧
          t.out = (if s.lon Reg.DRV_CFG_CATCH_EN n then (s.catchPulses n).out else if s.on Reg.DRV_STAT_ANGLE_VALID n then s.out else (s.searchPulses n).out) ∧
          t = { s with regs := t.regs, drv := t.drv, out := t.out } ∧ State.RegsBut s t [Reg.DRV_STAT_STATE.key n 0]) ∧
      (s.dst n = Dst.run → ∃ t, exec (.drvStop src n) s = .next t ∧ t.dst n = Dst.stopping ∧ t.drvs n = { s.drvs n with haltAt := some s.now } ∧
        t = { s with regs := t.regs, drv := t.drv } ∧ State.RegsBut s t [Reg.DRV_STAT_STATE.key n 0]) ∧
      (s.dst n = Dst.catch_ → ∃ t, exec (.drvStop src n) s = .next t ∧ t.drvs n = { s.drvs n with stopPend := true } ∧ t = { s with drv := t.drv }) ∧
      (s.dst n = Dst.off → ∃ t, exec (.findAngle src n) s = .next t ∧ t.dst n = Dst.search ∧ (t.drvs n).findOnly = true ∧ (t.drvs n).searchS = s.rd Reg.AXIS_SCHED n ∧
        t.out = (s.searchPulses n).out ∧ t = { s with regs := t.regs, drv := t.drv, out := t.out } ∧ State.RegsBut s t [Reg.DRV_STAT_STATE.key n 0])) ∧
    (s.dst n = Dst.catch_ → (s.drvs n).stopPend = false →
      (∀ (p q r : Int × Int × Nat) (v : Int) (θ : Nat), s.catchResult n p q r = some (v, θ) →
        (v.natAbs < 16 * s.lv Reg.DRV_CATCH_CATCH_MIN n → ∃ t, exec (.catchDone n [p, q, r]) s = .next t ∧
          t.dst n = (if s.on Reg.DRV_STAT_ANGLE_VALID n then Dst.run else Dst.search) ∧ t = { s with regs := t.regs, drv := t.drv, out := t.out } ∧
          State.RegsBut s t [Reg.DRV_STAT_STATE.key n 0]) ∧
        (16 * s.lv Reg.DRV_CATCH_CATCH_MIN n ≤ v.natAbs → v.natAbs ≤ 16 * s.lv Reg.DRV_CATCH_CATCH_MAX n → decide (0 < v) = (s.drvs n).fwd →
          ∃ t, exec (.catchDone n [p, q, r]) s = .next t ∧ t.dst n = Dst.run ∧ (t.drvs n).ramped = 20000 * v ∧ t.on Reg.DRV_STAT_ANGLE_VALID n = true ∧
            t = { s with regs := t.regs, drv := t.drv } ∧
            State.RegsBut s t [Reg.DRV_STAT_STATE.key n 0, Reg.DRV_STAT_ANGLE_VALID.key n 0, Reg.DRV_CNT_CATCHES.key n 0])) ∧
      (∀ p q r : Int × Int × Nat, s.catchResult n p q r = none → (s.drvs n).catches = 0 →
        exec (.catchDone n [p, q, r]) s = .next ((s.setDrv n { s.drvs n with catches := 1 }).catchPulses n)) ∧
      (∀ p q r : Int × Int × Nat, s.catchResult n p q r = none → (s.drvs n).catches ≠ 0 → exec (.catchDone n [p, q, r]) s = .next (s.wr Reg.DRV_STAT_STATE Dst.short n))) ∧
    (s.dst n = Dst.search →
      (let d := s.drvs n
       let moved := s.lv Reg.DRV_IPD_ANGLE_MOVE n < (posDiff (s.rd Reg.AXIS_SCHED n) d.searchS).natAbs
       (∀ rise fwd rev k, searchAxis rise = some k → d.retryAt = none → ¬moved → d.stopPend = false → s.rd Reg.DRV_CNT2_ANGLE_FINDS n + 1 < 2 ^ 16 →
         ∃ t, exec (.angleSearchDone n rise fwd rev) s = .next t ∧ t.on Reg.DRV_STAT_ANGLE_VALID n = true ∧
           (t.drvs n).angle = ((k + if fwd ≤ rev then 0 else 6) * 65536 / 12 + 65536 - s.rotorAngle n (s.rd Reg.AXIS_SCHED n)) % 65536 ∧
           t.dst n = (if d.findOnly then Dst.off else Dst.run) ∧ t.rd Reg.DRV_CNT2_ANGLE_FINDS n = s.rd Reg.DRV_CNT2_ANGLE_FINDS n + 1 ∧
           t = { s with regs := t.regs, drv := t.drv, out := t.out }) ∧
       (∀ rise fwd rev, (searchAxis rise = none ∨ moved) → d.retryAt = none →
         (d.searches = 0 → exec (.angleSearchDone n rise fwd rev) s = .next (s.setDrv n { d with searches := 1, retryAt := some (s.now + 20000000) })) ∧
         (d.searches ≠ 0 → exec (.angleSearchDone n rise fwd rev) s = .next ((s.drvOff n).raise Src.drvAngle (6 + n)))) ∧
       (∀ t0, d.retryAt = some t0 → t0 ≤ s.now →
         exec (.angleSearchRetry n) s = .next ((s.setDrv n { d with retryAt := none, searchS := s.rd Reg.AXIS_SCHED n }).searchPulses n))))

/-- An overcurrent on the OSR 8 filter of a channel that is not OFF, and a gate-driver fault, trip it: TRIPPED, not braking, its motion axis idle, the source noted as one that must be cleared; then the source is raised in its unit, live until the currents lie within OC_LIMIT, or the gate driver's pin is high again (R206, R217, R224, R329). A stall that has lasted STALL_MS stops a running channel and raises DRV_STALL (R224). A pin reference that reads as lost sets the set-point to 0 and raises DRV_PIN_LOST; one that reads does nothing (R214). The voltage of a bus group is the highest VBUS of its enabled channels. A group without a reaction whose voltage lies within its levels and whose chopper reports no fault only shows the voltage and its maximum (R222); one beyond OV_TRIP is shorted (R223). A chopper that has failed its sense check for CHOP_CHK shows SENSE_FAIL, and within OV_LEVEL nothing more (R222). A forced winding short whose condition ended 10 ms ago ends; so does a short for overvoltage, with its cause (R223). -/
def Obligations.DrivesTripAndBusGroupsReact : Prop :=
  (∀ (n : Nat) (s : State), n < 16 → s.stopWaits = [] → s.mst n = Mst.idle →
    (let tripped (u : State) (src : Nat) : Prop := u.dst n = Dst.tripped ∧ u.on Reg.DRV_STAT_BRAKING n = false ∧ bitOf (u.drvs n).trips src = true ∧ (u.drvs n).tref = 0 ∧
       u = { s with regs := u.regs, drv := u.drv }
     (∀ a b, s.drvWithin n (s.drvCurrent n (sinc3 8 a)) (s.drvCurrent n (sinc3 8 b)) = false → s.dst n ≠ Dst.off → s.rd Reg.DRV_CNT_OC_TRIPS n + 1 < 2 ^ 16 →
       ∃ t u : State, exec (.drvOc n a b) s = .next t ∧ t = u.raiseLive Src.drvOc (6 + n) ∧ tripped u Src.drvOc ∧
         u.rd Reg.DRV_CNT_OC_TRIPS n = s.rd Reg.DRV_CNT_OC_TRIPS n + 1 ∧
         State.RegsBut s u [Reg.DRV_STAT_STATE.key n 0, Reg.DRV_STAT_BRAKING.key n 0, Reg.DRV_CNT_OC_TRIPS.key n 0]) ∧
     (∀ a b, s.drvWithin n (s.drvCurrent n (sinc3 8 a)) (s.drvCurrent n (sinc3 8 b)) = true → exec (.drvOc n a b) s = .next (s.setCause Src.drvOc (6 + n) false)) ∧
     (s.dst n ≠ Dst.off → ∃ t u : State, exec (.drvGate n) s = .next t ∧ t = u.raiseLive Src.drvGate (6 + n) ∧ tripped u Src.drvGate ∧
       State.RegsBut s u [Reg.DRV_STAT_STATE.key n 0, Reg.DRV_STAT_BRAKING.key n 0]) ∧
     exec (.dfltRelease n) s = .next { s with causes := tput false s.causes (causeKey Src.drvGate (6 + n) 0) false } ∧
     (∀ t0, (s.drvs n).stallAt = some t0 → s.dst n = Dst.run → 0 < s.lv Reg.DRV_STALL_STALL_MS n → t0 + 1000000 * s.lv Reg.DRV_STALL_STALL_MS n ≤ s.now →
       ∃ t u : State, exec (.drvStall n) s = .next t ∧ t = u.raise Src.drvStall (6 + n) ∧ u.dst n = Dst.stopping ∧
         u = { s with regs := u.regs, drv := u.drv, mot := u.mot } ∧ State.RegsBut s u [Reg.DRV_STAT_STATE.key n 0]) ∧
     (∀ inp, s.lv Reg.DRV_CFG_SRC n = 4 → s.pinReading n inp = none → (s.drvs n).pinOk = true →
       exec (.drvPinLost n inp) s = .next ((s.setDrv n { s.drvs n with pinOk := false, want := 0 }).raiseLive Src.drvPinLost (6 + n))) ∧
     (∀ inp, s.pinReading n inp ≠ none → exec (.drvPinLost n inp) s = .next s))) ∧
  (∀ (g : Nat) (s : State), g < 4 →
    (let b := s.buss g
     let mv := (s.busDrives g).foldl (fun m n => max m (s.rd Reg.DRV_VBUS_VBUS n)) 0
     let calm (mv : Nat) : Prop := mv ≤ s.lv Reg.DRV_BUS_LVL_OV_LEVEL g ∧ mv ≤ s.lv Reg.DRV_BUS_LVL_OV_TRIP g ∧ s.lv Reg.DRV_BUS_LVL2_UV_LEVEL g ≤ mv
     (∀ sense, b.forced = false → b.ovr = false → calm mv → ∃ t, exec (.busGroupChange g false sense) s = .next t ∧
       t.buss g = { b with mv := mv, fault := false, sense := sense, uvAt := none, chkAt := (t.buss g).chkAt } ∧
       t.rd Reg.DRV_BUS_STAT_VBUS_MAX g = max mv (s.rd Reg.DRV_BUS_STAT_VBUS_MAX g) % 2 ^ 16 ∧ t.on Reg.DRV_BUS_STAT_CHOP_FAULT g = false ∧
       t = { s with regs := t.regs, bus := t.bus, causes := t.causes } ∧ State.RegsBut s t [Reg.DRV_BUS_STAT_VBUS_MAX.key g 0, Reg.DRV_BUS_STAT_CHOP_FAULT.key g 0]) ∧
     (∀ sense, s.lv Reg.DRV_BUS_LVL_OV_TRIP g < mv → ∃ t, exec (.busGroupChange g false sense) s = .next t ∧ (t.buss g).ovr = true ∧ (t.buss g).mv = mv) ∧
     (∀ t0, b.chkAt = some t0 → s.chopWrong g = true → t0 + 1000 * max 1 (s.lv Reg.DRV_BUS_CHOP_CHOP_CHK g) ≤ s.now →
       b.forced = false → b.ovr = false → b.fault = false → b.uvAt = none → calm b.mv →
       ∃ t, exec (.chopSenseFail g) s = .next t ∧ t.on Reg.DRV_BUS_STAT_SENSE_FAIL g = true ∧ t = { s with regs := t.regs, causes := t.causes } ∧
         State.RegsBut s t [Reg.DRV_BUS_STAT_SENSE_FAIL.key g 0]) ∧
     (∀ t0, b.forced = true → b.forcedEnd = some t0 → t0 ≤ s.now → b.ovr = false → ∃ t, exec (.busReactionEnd g) s = .next t ∧ t.buss g = { b with forced := false, forcedEnd := none } ∧
       t.on Reg.DRV_BUS_STAT_FORCED g = false ∧ t = { s with regs := t.regs, bus := t.bus } ∧ State.RegsBut s t [Reg.DRV_BUS_STAT_FORCED.key g 0]) ∧
     (∀ t0, b.forced = false → b.ovr = true → b.overEnd = some t0 → t0 ≤ s.now → ∃ t, exec (.busReactionEnd g) s = .next t ∧ t.buss g = { b with ovr := false, overEnd := none } ∧
       t.hasCause Src.drvBusOv (6 + g) = false ∧ t.regs = s.regs ∧ (∀ n, (t.drvs n).tref = (s.drvs n).tref) ∧ t = { s with bus := t.bus, causes := t.causes, drv := t.drv })))

/-- A well-formed MOTION_RUN, MOTION_MOVE or MOTION_HOME of ring n starts and waits at its axis for the axis's next sample, behind what waits there, with its operands; so does a MOTION_START action (R226, R230, R235, R238). At the sample of an idle drive axis without limits whose channel is not in RUN, a lone profile command is taken: the profile starts at its segment from the rotor's position and rest (R226, R230); one that R230 refuses completes with its status, and the axis stays idle. -/
def Obligations.MotionCommandsRun : Prop :=
  (∀ (n : Nat) (d : Desc) (s : State), dCrx d = 0 →
    (let m := dget d 16 0 5
     let waits (t : State) (c : MotCmd) : Prop := t = { s with mot := t.mot, sq := t.sq } ∧ s.Started t n ∧
       t.mots m = { s.mots m with reqs := (s.mots m).reqs ++ [(.desc (s.jobOf n d), c)] } ∧ ∀ k, k ≠ m → t.mots k = s.mots k
     (s.Ready n 0x60 d → dget d 16 5 3 = 0 → dZero d 17 18 = true → dget d 18 12 4 = 0 → dZero d 20 64 = true →
       ∃ t, exec (.motionRun n) s = .next t ∧ waits t (.profile (dget d 18 0 12))) ∧
     (s.Ready n 0x61 d → dget d 32 0 32 ≠ 0 → dget d 36 0 32 ≠ 0 → dget d 16 6 2 = 0 → dZero d 17 24 = true → dget d 24 40 24 = 0 → dZero d 40 64 = true →
       ∃ t, exec (.motionMove n) s = .next t ∧ waits t (.move (if dget d 16 5 1 = 1 then ((s.mots m).count + dget d 24 0 40) % pos40 else dget d 24 0 40)
         (min (dget d 32 0 32) vTop) (dget d 36 0 32))) ∧
     (∀ level, s.Ready n 0x63 d → dget d 20 0 32 ≠ 0 → dget d 24 0 32 ≠ 0 → dget d 16 7 1 = 0 → dget d 17 7 1 = 0 → dZero d 18 20 = true → dget d 32 40 24 = 0 → dZero d 48 64 = true →
       ∃ t h, exec (.motionHome n level) s = .next t ∧ waits t (.home h) ∧ h.dir = (dget d 16 5 1 == 1) ∧ h.sense = (dget d 16 6 1 == 1) ∧ h.level = level ∧
         h.vFast = min vTop (dget d 20 0 32) ∧ h.vSlow = min vTop (dget d 24 0 32) ∧ h.chatter = dget d 28 0 32 ∧ h.homePos = dget d 32 0 40 ∧ h.maxTravel = dget d 40 0 32 ∧
         h.p1 = none ∧ h.p2 = none ∧ h.deadline = s.now + 1000000 * (if dget d 44 0 32 = 0 then 10000 else dget d 44 0 32)))) ∧
  (∀ (a : Decided) (s : State), s.OnTime 0x28 a → ∃ t, exec .motionStart s = .next t ∧ t = { s with issued := s.issued.tail, mot := t.mot } ∧
    t.mots a.e.target = { s.mots a.e.target with reqs := (s.mots a.e.target).reqs ++ [(.tide a, .profile (a.e.arg % 4096))] } ∧
    ∀ k, k ≠ a.e.target → t.mots k = s.mots k) ∧
  ∀ (m k : Nat) (j : Job) (s : State), m < 16 → s.now % 6250 = 0 → (s.mots m).lastK ≤ s.now / 6250 → s.rd Reg.PWR_STAT_MODE ≠ 2 → s.mst m = Mst.idle → s.dst m ≠ Dst.run →
    s.lon Reg.MOT_CFG_LIM_EN m = false → (s.mots m).stop = none → (s.mots m).job = none → (s.mots m).reqs = [(.desc j, .profile k)] → s.tideWaits = [] → s.Room j.eq →
    (s.motRefusal m = none → k < 4096 → (tget Seg.init s.segs k).dur ≠ 0 → s.Sound 2 (segWord k) → ∃ t, exec (.motionSample m) s = .next t ∧ t.mst m = Mst.profile ∧
      t.rd Reg.MOT_STAT_SEG m = k ∧ (t.mots m).job = some j ∧ (t.mots m).reqs = [] ∧ (t.mots m).p0 = s.rd Reg.AXIS_SCHED m * 65536 ∧ (t.mots m).v0 = 0 ∧ (t.mots m).i = 0 ∧
      t = { s with regs := t.regs, mot := t.mot, drv := t.drv, out := t.out }) ∧
    (∀ r, s.motRefusal m = some r → ∃ t, exec (.motionSample m) s = .next t ∧ t.mst m = Mst.idle ∧ (t.mots m).reqs = [] ∧
      s.Told t j.eq (completionRec j r 0) ∧ t = { s with regs := t.regs, mot := t.mot, sq := t.sq, eq := t.eq })

/-- A MOTION_STOP reaches every axis it names, which takes it at its next sample; a running drive channel stops with its axis. The descriptor waits for axes that are not at rest, ten seconds at most, and one whose named axes are already idle completes at once (R226, R232). A stepper axis that cruises takes a stop at its sample: STOPPING from its p and v of that sample, with its reason (R232, R233). A load of segments, each well formed and none that a running profile uses, stores each at its index; one with a bad entry changes no segment (R227, R229). -/
def Obligations.MotionStopsAndSegments : Prop :=
  (∀ (n : Nat) (d : Desc) (s : State), s.Ready n 0x62 d → dCrx d = 0 → dZero d 20 64 = true → s.Room (s.rd Reg.SQ_CFG_EQ n) →
    (let mask := dget d 16 0 32
     ((∀ m, m < 32 → bitOf mask m = true → 16 ≤ m ∧ s.mst m = Mst.idle) → ∃ t, exec (.motionStop n) s = .next t ∧ s.Done t n d St.ok 0 ∧
       t = { s with mot := t.mot, sq := t.sq, eq := t.eq }) ∧
     (∀ m, 16 ≤ m → m < 32 → mask = 2 ^ m → s.mst m ≠ Mst.idle → s.rd Reg.STP_STAT_STATE (m - 16) ≠ 0 →
       ∃ t, exec (.motionStop n) s = .next t ∧ t.mots m = { s.mots m with stop := some ((s.mots m).stop.getD 3) } ∧
         t.stopWaits = s.stopWaits ++ [⟨s.jobOf n d, mask, s.now + 10000000000⟩] ∧ s.Started t n ∧
         t = { s with mot := t.mot, sq := t.sq, stopWaits := t.stopWaits }) ∧
     (∀ m, m < 16 → mask = 2 ^ m → s.mst m ≠ Mst.idle → s.dst m = Dst.run →
       ∃ t, exec (.motionStop n) s = .next t ∧ t.mots m = { s.mots m with stop := some ((s.mots m).stop.getD 3) } ∧ t.dst m = Dst.stopping ∧
         t.stopWaits = s.stopWaits ++ [⟨s.jobOf n d, mask, s.now + 10000000000⟩] ∧ s.Started t n ∧
         t = { s with regs := t.regs, mot := t.mot, drv := t.drv, sq := t.sq, stopWaits := t.stopWaits } ∧ State.RegsBut s t [Reg.DRV_STAT_STATE.key m 0]))) ∧
  (∀ (n : Nat) (w : StopWait) (s : State), (s.stopWaits.find? fun w => w.job.ring == n && decide (w.deadline ≤ s.now)) = some w → s.Room w.job.eq →
    ∃ t, exec (.motionStopTimeout n) s = .next t ∧ t.stopWaits = (s.stopWaits.filter fun y => y.job != w.job) ∧ s.Told t w.job.eq (completionRec w.job St.timeout 0) ∧
      t = { s with stopWaits := t.stopWaits, sq := t.sq, eq := t.eq }) ∧
  (∀ (a : Decided) (s : State), s.OnTime 0x29 a → 16 ≤ a.e.target →
    ∃ t, exec .tideMotionStop s = .next t ∧ t.mots a.e.target = { s.mots a.e.target with stop := some ((s.mots a.e.target).stop.getD 3) } ∧
      t = { s with issued := s.issued.tail, mot := t.mot }) ∧
  (∀ (m r : Nat) (s : State), 16 ≤ m → m < 32 → s.now % 6250 = 0 → (s.mots m).lastK ≤ s.now / 6250 → s.rd Reg.PWR_STAT_MODE ≠ 2 → s.mst m = Mst.cruise →
    s.lon Reg.MOT_CFG_LIM_EN m = false → 0 < (s.mots m).v0 → (s.mots m).v0 ≤ vTop → (s.mots m).held = false → (s.mots m).home = none → (s.mots m).stop = some r →
    (s.mots m).reqs = [] → s.tideWaits = [] →
    ∃ t, exec (.motionSample m) s = .next t ∧ t.mst m = Mst.stopping ∧ (t.mots m).reason = r ∧ (t.mots m).v0 = (s.mots m).v0 ∧ (t.mots m).p0 = (t.mots m).p ∧ (t.mots m).i = 0) ∧
  ∀ (n : Nat) (d : Desc) (bs : List Byte) (s : State), s.Ready n 0x4A d → dCrx d = 0 → s.Calm → (s.pf (s.ownSq n)).flr = false → (s.pf (s.ownSq n)).bme = true →
    dget d 16 12 4 = 0 → dget d 18 11 5 = 0 → dZero d 20 24 = true → dZero d 32 64 = true →
    dget d 24 0 4 = 0 → dget d 16 0 12 + dget d 18 0 11 ≤ 4096 → 0 < dget d 18 0 11 → dget d 18 0 11 ≤ 1024 →
    (let first := dget d 16 0 12
     let cnt := dget d 18 0 11
     let es := entries 16 cnt bs
     ((∀ v ∈ es, (segOf v).isSome = true) → (∀ k, k < cnt → s.segPinned (first + k) = false) → ∃ t, exec (.motionSegLoad n (.ok bs)) s = .next t ∧
       (t.sqs n).accepted = (s.sqs n).accepted.tail ∧ ∀ k, k < cnt → tget Seg.init t.segs (first + k) = (segOf (es.getD k 0)).getD Seg.init) ∧
     ((∃ v ∈ es, segOf v = none) → ∃ t, exec (.motionSegLoad n (.ok bs)) s = .next t ∧ t.segs = s.segs ∧ (t.sqs n).accepted = (s.sqs n).accepted.tail))

/-- Between edges of the 6.25 µs grid no sample is taken, nor in Moored (R226, R311). At one, a reversible drive axis that cruises, within no limits and with its channel in RUN, moves on at its velocity, and shows position and velocity (R226, R228); an idle one whose channel is not in RUN follows its rotor. The switch edge that homing seeks latches its position (R235), and the opposite edge of the approach, after the chatter travel, latches the second (R235). Homing past its time stops the axis and completes with TIMEOUT and its position (R235); an arrival not in position within INPOS_MS completes with TIMEOUT and leaves the axis idle (R230). -/
def Obligations.MotionRunsOnItsGrid : Prop :=
  (∀ (m : Nat) (s : State), s.now % 6250 ≠ 0 ∨ s.rd Reg.PWR_STAT_MODE = 2 → exec (.motionSample m) s = .next s) ∧
  (∀ (m : Nat) (s : State), m < 16 → s.now % 6250 = 0 → (s.mots m).lastK ≤ s.now / 6250 → s.rd Reg.PWR_STAT_MODE ≠ 2 → (s.mots m).stop = none → (s.mots m).reqs = [] →
    s.tideWaits = [] →
    (s.dst m = Dst.run → s.mst m = Mst.cruise → s.lon Reg.MOT_CFG_LIM_EN m = false → s.lon Reg.MOT_CFG_REVERSIBLE m = true → 0 ≤ (s.mots m).v0 → (s.mots m).v0 ≤ vTop →
      (s.mots m).home = none → (s.mots m).held = false →
      ∃ t, exec (.motionSample m) s = .next t ∧ t = { s with regs := t.regs, mot := t.mot } ∧
        (let x := s.mots m
         let p := addPos x.p0 (Config.rnd (256 * x.v0 * (x.i + 1 : Nat)) rate)
         t.mots m = { x with lastK := s.now / 6250 + 1, i := x.i + 1, p := p, v := x.v0 } ∧ t.rd Reg.MOT_POS m = p / 2 ^ 16 % 2 ^ 40 ∧ t.mst m = Mst.cruise ∧
         t.rd Reg.MOT_VEL_VEL m = unsigned 32 x.v0)) ∧
    (s.dst m ≠ Dst.run → s.mst m = Mst.idle → s.lon Reg.MOT_CFG_LIM_EN m = false → ∃ t, exec (.motionSample m) s = .next t ∧ t = { s with regs := t.regs, mot := t.mot } ∧
      (t.mots m).p = s.rd Reg.AXIS_SCHED m * 65536 ∧ (t.mots m).v = 0 ∧ t.rd Reg.MOT_POS m = s.rd Reg.AXIS_SCHED m % 2 ^ 40 ∧ t.mst m = Mst.idle)) ∧
  ∀ (m : Nat) (h : Home) (s : State), m < 32 →
    ((s.mots m).home = some h → (s.mots m).reqs = [] → s.mst m = Mst.homeSeek → h.p1 = none →
      exec (.homeEdge m (!h.sense)) s = .next (s.setMot m { s.mots m with home := some { h with level := !h.sense, p1 := some (s.rd Reg.AXIS_SCHED m) } })) ∧
    ((s.mots m).home = some h → (s.mots m).reqs = [] → m < 16 → s.mst m = Mst.homeApproach → h.p2 = none → h.chatter * 65536 < h.travel →
      exec (.homeEdge m h.sense) s = .next (s.setMot m { s.mots m with home := some { h with level := h.sense, p2 := some (s.rd Reg.AXIS_SCHED m) } })) ∧
    (∀ j, (s.mots m).home = some h → 16 ≤ m → 5 ≤ s.mst m → (s.mots m).job = some j → h.deadline ≤ s.now → s.Room j.eq →
      ∃ t, exec (.homeTimeout m) s = .next t ∧ (t.mots m).stop = some ((s.mots m).stop.getD 3) ∧ (t.mots m).job = none ∧
        s.Told t j.eq (completionRec j St.timeout (2 ^ 8 * (s.mots m).count)) ∧ t = { s with mot := t.mot, sq := t.sq, eq := t.eq }) ∧
    ∀ j t0, (s.mots m).inposBy = some t0 → t0 ≤ s.now → (s.mots m).job = some j → s.Room j.eq → s.stopWaits = [] →
      ∃ t, exec (.inposTimeout m) s = .next t ∧ t.mst m = Mst.idle ∧ (t.mots m).job = none ∧ (t.mots m).inposBy = none ∧
        s.Told t j.eq (completionRec j St.timeout (2 ^ 8 * (s.mots m).count)) ∧ t = { s with regs := t.regs, mot := t.mot, sq := t.sq, eq := t.eq }

/-- A trip after blanking ends a coil's ON phase: its trip bit is set and an OFF phase begins, fast where FAST is not 0 (R243); TOFF later an ON phase begins anew, or none at magnitude 0; the fast part of the OFF phase ends before that (R243). A running channel whose count stood still for HOLD_MS holds (R242). Sixteen ON phases tripped at the end of blanking trip the channel and raise STP_SHORT; an ON phase that does not end in OPEN_MS, and a rotor beyond STALL_ERR, stop its axis at its next sample and raise STP_OPEN and STP_STALL (R245). A MICROSTEP_LOAD for a set that no running channel uses replaces its 1,024 entries, one for a used set is refused (R241). -/
def Obligations.SteppersChopAndStop : Prop :=
  (∀ (k : Nat) (b : Bool) (s : State), k < 16 →
    (let c := (s.stps k).coil b
     let trip := if b then Reg.STP_STAT_B_TRIP else Reg.STP_STAT_A_TRIP
     (c.phase = 1 → c.start + s.blankNs k < s.now → ∃ t, exec (.chopperOnEnd k b) s = .next t ∧ t.on trip k = true ∧
       (let o := { c with phase := (if s.lv Reg.STP_CHOP_FAST k ≠ 0 then 2 else 3), start := s.now, allFast := false, shorts := 0, lastRef := entryMag (s.coilEntry k b) }
        (t.stps k).coil b = if o.legs = c.legs then o else { o with was := c.legs, swAt := s.now }) ∧
       (t.stps k).coil (!b) = (s.stps k).coil (!b) ∧ t = { s with regs := t.regs, stp := t.stp } ∧ State.RegsBut s t [trip.key k 0]) ∧
     (2 ≤ c.phase → c.start + 1000 * s.lv Reg.STP_CHOP_TOFF k ≤ s.now → ∃ t, exec (.chopperOffEnd k b) s = .next t ∧ t.on trip k = false ∧
       ((t.stps k).coil b).phase = (if entryMag (s.coilEntry k b) = 0 then 0 else 1) ∧ ((t.stps k).coil b).start = s.now ∧
       (entryMag (s.coilEntry k b) ≠ 0 → ((t.stps k).coil b).neg = entryNeg (s.coilEntry k b)) ∧
       (t.stps k).coil (!b) = (s.stps k).coil (!b) ∧ t = { s with regs := t.regs, stp := t.stp } ∧ State.RegsBut s t [trip.key k 0]) ∧
     (c.phase = 2 → c.allFast = false → s.now < c.start + 1000 * s.lv Reg.STP_CHOP_TOFF k →
       16 * c.start + 1000 * s.lv Reg.STP_CHOP_TOFF k * s.lv Reg.STP_CHOP_FAST k ≤ 16 * s.now → exec (.chopperOffEnd k b) s = .next (s.setCoil k b { c with phase := 3 })) ∧
     (16 ≤ c.shorts → s.stopWaits = [] → s.mst (16 + k) = Mst.idle → s.rd Reg.STP_STAT_STATE k ≠ 0 → ∃ t u : State, exec (.stpShort k b) s = .next t ∧
       t = u.raise Src.stpShort (22 + k) ∧ u.rd Reg.STP_STAT_STATE k = 3 ∧ bitOf (u.stps k).trips Src.stpShort = true ∧ ((u.stps k).coil b).phase = 0 ∧
       u = { s with regs := u.regs, stp := u.stp } ∧ State.RegsBut s u [Reg.STP_STAT_STATE.key k 0, Reg.STP_CNT_SHORTS.key k 0]) ∧
     (c.phase = 1 → 512 ≤ entryMag (s.coilEntry k b) → c.start + 1000000 * max 1 (s.lv Reg.STP_GATE_OPEN_MS k) ≤ s.now →
       ∃ t u : State, exec (.stpOpen k b) s = .next t ∧ t = u.raise Src.stpOpen (22 + k) ∧
         u.mots (16 + k) = { s.mots (16 + k) with stop := some ((s.mots (16 + k)).stop.getD 4) } ∧ u = { s with mot := u.mot }))) ∧
  (∀ (k : Nat) (s : State), k < 16 →
    (0 < s.lv Reg.STP_CUR_HOLD_MS k → s.rd Reg.STP_STAT_STATE k = 1 → (s.stps k).qAt + 1000000 * s.lv Reg.STP_CUR_HOLD_MS k ≤ s.now →
      exec (.stepperHold k) s = .next (s.wr Reg.STP_STAT_STATE 2 k)) ∧
    (s.lon Reg.STP_ENC_ENC_EN k = true → s.rd Reg.STP_STAT_STATE k = 1 →
      256 * s.lv Reg.STP_STALL_STALL_ERR k < (256 * posDiff (s.stps k).q (s.stps k).q0 -
        posDiff (s.rd Reg.ENC_CNT (s.lv Reg.STP_ENC_ENC_PORT k)) (s.stps k).c0 * s.lv Reg.STP_ENC_ENC_SCALE k).natAbs →
      ∃ t u : State, exec (.stpStall k) s = .next t ∧ t = u.raise Src.stpStall (22 + k) ∧
        u.mots (16 + k) = { s.mots (16 + k) with stop := some ((s.mots (16 + k)).stop.getD 4) } ∧ u = { s with mot := u.mot })) ∧
  ∀ (n : Nat) (d : Desc) (bs : List Byte) (s : State), n < 64 → s.Ready n 0x4C d → dCrx d = 0 → dget d 24 0 3 = 0 → dget d 16 2 6 = 0 → dZero d 17 24 = true → dZero d 32 64 = true →
    s.Room (s.rd Reg.SQ_CFG_EQ n) → s.Calm →
    (let t0 := dget d 16 0 2
     let used := (List.range 16).any fun k => s.lon Reg.STP_CFG_EN k && s.rd Reg.STP_STAT_STATE k != 0 && s.lv Reg.STP_CFG_TABLE k == t0
     (used = true → ∃ t, exec (.microstepLoad n (.ok bs)) s = .next t ∧ s.Done t n d St.refusedState 0 ∧ t = { s with sq := t.sq, eq := t.eq }) ∧
     (used = false → (s.pf (s.ownSq n)).flr = false → (s.pf (s.ownSq n)).bme = true → (∀ v ∈ entries 2 1024 bs, v < 4096) → ∃ t, exec (.microstepLoad n (.ok bs)) s = .next t ∧ (t.sqs n).accepted = (s.sqs n).accepted.tail ∧
       ∀ i, i < 1024 → t.ustepEntry t0 i = (entries 2 1024 bs).getD i 0))

/-- Port p in service: an input's level is accepted once FILT + 1 samples agree; levels that do not change count nothing, and one changed level, 40 ns after the last count, counts up or down by one, in 40 bits (R247). An accepted rising edge of an index that is not gated latches count and direction, and is the reference where none is valid (R252, R253). A word poll that is due after the clock's high time asks again POLL later where the data line is high (R248). A frame read whole whose CRC matches moves the count by the signed difference to the last word; one whose CRC does not match counts WORD_ERR and moves nothing (R248, R249). Off the sample grid no speed is taken; at an edge a port without signal shows 0, and in period mode SPEED is the period's, saturated (R255, R257). A signal fault drops SIG_OK and the speed and raises ENC_SIGNAL; its end ends the cause (R257). -/
def Obligations.EncodersCountAndRead : Prop :=
  ∀ (p : Nat) (s : State), p < 24 →
    (let x := s.encs p
     let filt := s.lv Reg.ENC_CFG_FILT p
     (∀ sa sb, settled filt x.a sa = x.a → settled filt x.b sb = x.b → ∃ t, exec (.encoderCount p sa sb) s = .next t ∧ t.encs p = x ∧ t = { s with enc := t.enc }) ∧
     (s.lv Reg.ENC_CFG_MODE p = 1 → s.encLive p = true →
       (∀ sa sb (d : Int), settled filt x.a sa = (!x.a) → settled filt x.b sb = x.b → (∀ t ∈ x.times.head?, t + 40 ≤ s.now) →
         d = (if (!x.a != x.b) != s.lon Reg.ENC_CFG_SWAP p then 1 else -1) → ∃ t, exec (.encoderCount p sa sb) s = .next t ∧
         t.rd Reg.ENC_CNT p = unsigned 40 (s.rd Reg.ENC_CNT p + d) ∧ (t.encs p).a = (!x.a) ∧ (t.encs p).b = x.b ∧ (t.encs p).dir = d ∧ t = { s with regs := t.regs, enc := t.enc }) ∧
       (∀ sa sb (d : Int), settled filt x.a sa = x.a → settled filt x.b sb = (!x.b) → (∀ t ∈ x.times.head?, t + 40 ≤ s.now) →
         d = (if (x.a == !x.b) != s.lon Reg.ENC_CFG_SWAP p then 1 else -1) → ∃ t, exec (.encoderCount p sa sb) s = .next t ∧
         t.rd Reg.ENC_CNT p = unsigned 40 (s.rd Reg.ENC_CNT p + d) ∧ (t.encs p).b = (!x.b) ∧ t = { s with regs := t.regs, enc := t.enc }) ∧
       (∀ sz, settled filt x.zIn sz = true → x.zIn = false → s.lv Reg.ENC_IDX_IDX_NOM p = 0 → (s.lon Reg.ENC_CFG_Z_GATE p = false ∨ (x.a = true ∧ x.b = true)) →
         ∃ t, exec (.indexEvent p sz) s = .next t ∧
         (t.encs p).idx = some (s.rd Reg.ENC_CNT p, x.dir) ∧ t.on Reg.ENC_STAT_IDX_REF_VALID p = true ∧
         t.rd Reg.ENC_IDX_REF p = (if s.on Reg.ENC_STAT_IDX_REF_VALID p then s.rd Reg.ENC_IDX_REF p else s.rd Reg.ENC_CNT p % 2 ^ 40) ∧
         t = { s with regs := t.regs, enc := t.enc, drv := t.drv })) ∧
     (s.lv Reg.ENC_CFG_MODE p = 2 →
       (x.pollAt ≤ s.now → x.req = none → x.highAt + 1000 * s.lv Reg.ENC_SSI_MONO p ≤ s.now →
         exec (.ssiRequest p true) s = .next (s.setEnc p { x with pollAt := s.now + 50 * s.lv Reg.ENC_POLL_POLL p, req := some s.now })) ∧
       (∀ bits t0, x.req = some t0 → s.on Reg.ENC_STAT_SIG_OK p = true → bits.length = s.ssiEdges p → t0 + (2 * s.ssiEdges p - 1) * s.ssiHalf p ≤ s.now →
         (let w := (s.ssiRead p bits).1
          let n := s.lv Reg.ENC_CFG_BITS p
          (∀ o, s.fenced (38 + p) = false → s.lon Reg.ENC_CFG_GRAY p = false → x.word = some o → (s.ssiRead p bits).2 = s.ssiWant p w → s.lv Reg.ENC_POLL_JUMP_MAX p = 0 →
            ∃ t, exec (.ssiFrameDone p bits) s = .next t ∧
            t.rd Reg.ENC_CNT p = unsigned 40 (s.rd Reg.ENC_CNT p + signed n (((w : Int) - o) % 2 ^ n).toNat) ∧ (t.encs p).word = some w ∧ (t.encs p).req = none ∧
            t.on Reg.ENC_STAT_WORD_OK p = true ∧ t = { s with regs := t.regs, enc := t.enc, drv := t.drv, causes := t.causes }) ∧
          ((s.ssiRead p bits).2 ≠ s.ssiWant p w → x.bad + 1 < s.lv Reg.ENC_SPD_ERR_MAX p →
            s.rd Reg.ENC_ERR2_WORD_ERR p + 1 < 2 ^ 16 → ∃ t, exec (.ssiFrameDone p bits) s = .next t ∧ t.rd Reg.ENC_ERR2_WORD_ERR p = s.rd Reg.ENC_ERR2_WORD_ERR p + 1 ∧
            t.encs p = { x with req := none, highAt := s.now, bad := x.bad + 1 } ∧ t = { s with regs := t.regs, enc := t.enc } ∧ State.RegsBut s t [Reg.ENC_ERR2_WORD_ERR.key p 0])))) ∧
     (s.now % 6250 ≠ 0 → exec (.encoderSpeed p) s = .next s) ∧
     (s.now % 6250 = 0 → s.lv Reg.ENC_CFG_MODE p = 1 → x.win = false → s.now / 6250 % 2 ^ s.lv Reg.ENC_SPD_WIN_SHIFT p ≠ 0 →
       (s.encLive p = false → ∃ t, exec (.encoderSpeed p) s = .next t ∧ t.rdI Reg.ENC_SPEED_SPEED p = 0 ∧ t = { s with regs := t.regs, enc := t.enc }) ∧
       (∀ v : Int, s.encLive p = true → s.on Reg.ENC_STAT_REVERSING p = false → s.periodSpeed p = some v → ∃ t, exec (.encoderSpeed p) s = .next t ∧
         t.rdI Reg.ENC_SPEED_SPEED p = max (-2147483392) (min 2147483392 v) ∧ t = { s with regs := t.regs, enc := t.enc })) ∧
     (x.fault = false → s.lv Reg.ENC_CFG_MODE p ≠ 0 → ∃ t u : State, exec (.encSignal p) s = .next t ∧ t = u.raiseLive Src.encSignal (38 + p) ∧ u.on Reg.ENC_STAT_SIG_OK p = false ∧
       u.rd Reg.ENC_SPEED_SPEED p = 0 ∧ (u.encs p).fault = true ∧ u = { s with regs := u.regs, enc := u.enc } ∧
       State.RegsBut s u [Reg.ENC_STAT_SIG_OK.key p 0, Reg.ENC_SPEED_SPEED.key p 0]) ∧
     ∃ t, exec (.encSignalRestored p) s = .next t ∧ (t.encs p).fault = false ∧ t.hasCause Src.encSignal (38 + p) = false ∧
       t.on Reg.ENC_STAT_SIG_OK p = decide (s.lv Reg.ENC_CFG_MODE p ≠ 0) ∧ t = { s with regs := t.regs, enc := t.enc, causes := t.causes } ∧
       State.RegsBut s t [Reg.ENC_STAT_SIG_OK.key p 0])

/-- An emulation output that is on, gated and owes counts moves one quadrature edge no sooner than MIN_GAP after the last: COUNT_E and what is owed move by one, and one of its two levels changes (R258). One whose backlog passed 32,767 stops and raises EMU_OVERRUN; RESYNC takes what is owed into COUNT_E without edges and lets it go on (R259). EMU_GATE writes the gate, where no host write at the same edge did; where it falls on an output that is on, what is owed is taken in the same way (R260). -/
def Obligations.EmulationPaysWhatItOwes : Prop :=
  ∀ (e : Nat) (s : State), e < 8 →
    (let x := s.emus e
     (s.on Reg.EMU_CFG_EN e = true → s.on Reg.EMU_CFG_GATE e = true → x.stopped = false → x.ovr = false → s.gated = false → x.owed ≠ 0 →
       (∀ t0, x.lastEdge = some t0 → t0 + 2 * max 10 (s.rd Reg.EMU_RATE_MIN_GAP e) ≤ s.now) →
       (let d : Int := if 0 < x.owed then 1 else -1
        ∃ t, exec (.emuEdge e) s = .next t ∧ t.rd Reg.EMU_COUNT_E e = unsigned 32 (s.rd Reg.EMU_COUNT_E e + d) ∧ (t.emus e).owed = x.owed - d ∧ (t.emus e).lastEdge = some s.now ∧
          ((t.emus e).a ≠ x.a ↔ (t.emus e).b = x.b) ∧ t = { s with regs := t.regs, emu := t.emu } ∧ State.RegsBut s t [Reg.EMU_COUNT_E.key e 0, Reg.EMU_STAT_BACKLOG.key e 0])) ∧
     (∀ t0, x.lastEdge = some t0 → s.now < t0 + 2 * max 10 (s.rd Reg.EMU_RATE_MIN_GAP e) → exec (.emuEdge e) s = .next s) ∧
     (x.ovr = true → exec (.emuOverrun e) s = .next (((s.setEmu e { x with stopped := true, ovr := false }).wr Reg.EMU_STAT_OVERRUN 1 e).raise Src.emuOverrun Src.noUnit)) ∧
     (∀ src, s.Granted src (Reg.EMU_STAT_RESYNC.addr e 0) → x.ovr = false → ∃ t, exec (.resync src e) s = .next t ∧ t.rd Reg.EMU_COUNT_E e = unsigned 32 (s.rd Reg.EMU_COUNT_E e + x.owed) ∧
       t.emus e = { x with owed := 0, stopped := false } ∧ t = { s with regs := t.regs, emu := t.emu } ∧
       State.RegsBut s t [Reg.EMU_COUNT_E.key e 0, Reg.EMU_STAT_BACKLOG.key e 0]) ∧
     ∀ a, s.OnTime 0x38 a → a.e.target = e → s.on Reg.EMU_CFG_EN e = true → s.swWrote Reg.EMU_CFG_GATE e = false → ∃ t, exec .emuGate s = .next t ∧ t.rd Reg.EMU_CFG_GATE e = a.e.arg % 2 ∧
       t.emus e = { x with z := (t.emus e).z, owed := if s.on Reg.EMU_CFG_GATE e = true ∧ a.e.arg % 2 = 0 then 0 else x.owed } ∧
       t.rd Reg.EMU_COUNT_E e = (if s.on Reg.EMU_CFG_GATE e = true ∧ a.e.arg % 2 = 0 then unsigned 32 (s.rd Reg.EMU_COUNT_E e + x.owed) else s.rd Reg.EMU_COUNT_E e) ∧
       t = { s with issued := s.issued.tail, regs := t.regs, emu := t.emu })

/-- Off the edges of the base period, twice at one edge, and in Moored nothing happens. At an edge with no capstan enabled and in service every sample ends and publishes, or is discarded and missed, then held writes apply, then references and heaters move, then loops are released (R262, R263, R274). A sample that finished under its capstan's tally writes its signals and state words and counts, and publishes nothing yet; one under another tally writes nothing (R263, R281). A LAW_PARAM of an enabled loop that runs no sample writes its parameter, sign-extended; of one that does, it is held (R274). A write with a retired tally is counted and, the first time, makes the dead capstan stale, reported and raised (R281). With well-formed fields, a function that may read host memory, and no injection armed: blocks that no enabled loop's program contains are written at their index, those of one are refused, and a block of an undefined TYPE ends the load with BAD_DESC; in both cases no block changes (R265, R275). Parameters of a loop that runs no sample are written from their first index on (R276). A feed-forward table that no enabled loop names is replaced whole (R270, R277). -/
def Obligations.LoopsRunAndLawTablesAreLoaded : Prop :=
  ((∀ (beats : Nat) (rd : Readings) (s : State),
    ((s.now % 6250 ≠ 0 ∨ s.capAt = some s.now ∨ s.rd Reg.PWR_STAT_MODE = 2) → exec (.capstanPeriod beats rd) s = .next s) ∧
    (s.now % 6250 = 0 → s.capAt ≠ some s.now → s.rd Reg.PWR_STAT_MODE ≠ 2 → (∀ c, c < 16 → s.isLaid (62 + c) = true ∨ s.lon Reg.CAP_CFG_EN c = false) → ∃ t u : State, exec (.capstanPeriod beats rd) s = .next t ∧
      (let ends := (List.range 128).foldl (fun s l => s.endSample l) { s with capAt := some s.now }
       let held := (List.range 128).foldl (fun s l => s.flushHeld l) ends
       u = (List.range 4).foldl (fun s h => s.htrPeriod h) ((List.range 32).foldl (fun s h => s.hvReference h) held)) ∧
      ((∀ l, l < 128 → u.lon Reg.LOOP_CFG_EN l = false) → t = u))) ∧
  (∀ (l : Nat) (q : Pend) (s : State), l < 128 → (s.loops l).pend = some q →
    (q.done = true → ∀ j v, j < 4 → q.outs = [(j, v)] → (s.endSample l).rd Reg.LOOP_OUT_OUT l j = unsigned 32 v ∧ ((s.endSample l).loops l).pend = none) ∧
    (q.done = false → s.rd Reg.LOOP_CNT_MISSES l + 1 < 2 ^ 16 → (s.endSample l).on Reg.LOOP_STAT_DEADLINE l = true ∧ (s.endSample l).rd Reg.LOOP_CNT_MISSES l = s.rd Reg.LOOP_CNT_MISSES l + 1 ∧
      (∀ j, j < 4 → (s.endSample l).rd Reg.LOOP_OUT_OUT l j = s.rd Reg.LOOP_OUT_OUT l j) ∧ ((s.endSample l).loops l).pend = none) ∧
    (q.done = false → s.tagOk l q.tally = true → ∃ t, exec (.loopSampleComplete l) s = .next t ∧ t = { s with regs := t.regs, lword := t.lword, loop := t.loop } ∧
      (∀ i, 0 < i → i < 32 → t.rd Reg.LOOP_SIG l i = unsigned 32 (tget 0 q.sig i)) ∧ (∀ i, i < 64 → tget 0 t.lword (l * 64 + i) = tget 0 q.words i) ∧
      (∀ j, j < 4 → t.rd Reg.LOOP_OUT_OUT l j = s.rd Reg.LOOP_OUT_OUT l j) ∧ t.rd Reg.LOOP_CNT_SAMPLES l = (s.rd Reg.LOOP_CNT_SAMPLES l + 1) % 2 ^ 16 ∧
      t.loops l = { s.loops l with pend := some { q with done := true }, fresh := false }) ∧
    (q.done = false → s.tagOk l q.tally = false → exec (.loopSampleComplete l) s = .next s)) ∧
  (∀ (a : Decided) (s : State), s.OnTime 0x30 a → s.lon Reg.LOOP_CFG_EN a.e.target = true → s.on Reg.LOOP_STAT_ORPHAN a.e.target = false →
    (let l := a.e.target
     let v := unsigned 32 (signed 24 (a.e.arg / 256))
     ((s.loops l).pend = none → exec .lawParam s = .next { s with issued := s.issued.tail, lparam := tput 0 s.lparam (l * 256 + a.e.arg % 256) v }) ∧
     (∀ q, (s.loops l).pend = some q → q.done = false →
       exec .lawParam s = .next (({ s with issued := s.issued.tail } : State).setLoop l { s.loops l with held := (s.loops l).held ++ [.param (a.e.arg % 256) v] })))) ∧
  ∀ (c : Nat) (s : State), c < 16 → s.rd Reg.CAP_CNT_STALE_WRITES c + 1 < 2 ^ 16 → s.Room (s.rd Reg.RING_EVT_ROUTE_UNIT) →
    (s.rd Reg.CAP_STAT_STATE c = Cst.stale → exec (.stale c) s = .next (s.wr Reg.CAP_CNT_STALE_WRITES (s.rd Reg.CAP_CNT_STALE_WRITES c + 1) c)) ∧
    (s.rd Reg.CAP_STAT_STATE c = Cst.dead → ∃ t u : State, exec (.stale c) s = .next t ∧ t = u.raise Src.capStale (62 + c) ∧ u.rd Reg.CAP_STAT_STATE c = Cst.stale ∧
      u.rd Reg.CAP_CNT_STALE_WRITES c = s.rd Reg.CAP_CNT_STALE_WRITES c + 1 ∧
      s.Told u (s.rd Reg.RING_EVT_ROUTE_UNIT) (mkRec 4 St.staleTally (c + 16 * 3 + 0x0D00) 0 (s.rd Reg.CAP_TALLY_TALLY c)) ∧ u = { s with regs := u.regs, eq := u.eq })) ∧
  (∀ (n : Nat) (d : Desc) (bs : List Byte) (s : State), n < 64 → dCrx d = 0 → dZero d 32 64 = true → s.Calm → (s.pf (s.ownSq n)).flr = false → (s.pf (s.ownSq n)).bme = true →
    (let taken (t : State) : Prop := (t.sqs n).accepted = (s.sqs n).accepted.tail
     (s.Ready n 0x50 d → dget d 16 12 4 = 0 → dget d 18 11 5 = 0 → dZero d 20 24 = true → 0 < dget d 18 0 11 → dget d 18 0 11 ≤ 1024 → dget d 16 0 12 + dget d 18 0 11 ≤ 4096 →
       dget d 24 0 64 % 8 = 0 →
       (let first := dget d 16 0 12
        let cnt := dget d 18 0 11
        let bl := leWords 8 cnt bs
        ((∀ b ∈ bl, blockOk b = true) → s.inProgram first cnt = false → ∃ t, exec (.lawLoad n (.ok bs)) s = .next t ∧ taken t ∧ ∀ k, k < cnt → t.blk (first + k) = bl.getD k 0) ∧
        ((∃ b ∈ bl, blockOk b = false) ∨ s.inProgram first cnt = true → ∃ t, exec (.lawLoad n (.ok bs)) s = .next t ∧ taken t ∧ t.block = s.block))) ∧
     (s.Ready n 0x51 d → dget d 18 9 7 = 0 → dZero d 20 24 = true → dget d 17 0 8 + dget d 18 0 9 ≤ 256 → dget d 24 0 64 % 4 = 0 → 0 < dget d 18 0 9 → dget d 16 7 1 = 0 →
       (s.loops (dget d 16 0 7)).pend = none → ∃ t, exec (.lawParamSet n (.ok bs)) s = .next t ∧ taken t ∧
         (∀ k, k < dget d 18 0 9 → tget 0 t.lparam (dget d 16 0 7 * 256 + dget d 17 0 8 + k) = (leWords 4 (dget d 18 0 9) bs).getD k 0) ∧ t.lword = s.lword ∧ t.block = s.block) ∧
     (s.Ready n 0x52 d → dget d 16 5 3 = 0 → dZero d 17 24 = true → dget d 24 0 64 % 4 = 0 →
       (s.tableUsed (dget d 16 0 5) = false → ∃ t, exec (.ffTableLoad n (.ok bs)) s = .next t ∧ taken t ∧
         ∀ k, k < 1024 → tget 0 t.ff (dget d 16 0 5 * 1024 + k) = (leWords 4 1024 bs).getD k 0) ∧
       (s.tableUsed (dget d 16 0 5) = true → ∃ t, exec (.ffTableLoad n (.ok bs)) s = .next t ∧ taken t ∧ t.ff = s.ff))))

/-- On channel h: an HV_STEP in OFF, RUN or BLANK sets target and ramp, beyond a ceiling the ceiling, counted and raised (R287). A PWM period that starts as the last one ends drives for OUT0 of the loop, within the duty ceiling, of its length in RUN, and not at all in OFF, BLANK and TRIPPED (R286, R289). A feedback beyond V_TRIP trips the channel and raises HV_OVER; one within ends the cause (R288). An arc in RUN blanks the output for ARC_BLANK periods and counts; with more than ARC_MAX in the window the channel is boomed (R289). After the blanking it runs again, softly; REARM takes DOWN to RUN at REST (R290). -/
def Obligations.HighVoltageFollowsItsTarget : Prop :=
  ∀ (h : Nat) (s : State), h < 32 →
    (let x := s.hvs h
     let shows (t : State) : Prop := t = { s with regs := t.regs, hv := t.hv }
     (∀ a, s.OnTime 0x20 a → a.e.target = h → s.hst h ≠ Hst.down → s.hst h ≠ Hst.tripped →
       (let level := signed 16 (a.e.arg % 2 ^ 16)
        let c := clampI level (-(s.rd Reg.HV_CEIL_V_V_CEIL_NEG h : Int)) (s.rd Reg.HV_CEIL_V_V_CEIL_POS h)
        (c = level → ∃ t, exec .hvStep s = .next t ∧ t.hvs h = { x with target := level, ramp := a.e.arg / 2 ^ 16 } ∧ t = { s with issued := s.issued.tail, regs := t.regs, hv := t.hv } ∧
          State.RegsBut s t [Reg.HV_STAT_REF.key h 0, Reg.HV_STAT_AT_TARGET.key h 0, Reg.HV_LEVEL_TARGET.key h 0]) ∧
        (c ≠ level → s.rd Reg.HV_CNT_CEIL_HITS h + 1 < 2 ^ 16 → ∃ t u : State, exec .hvStep s = .next t ∧ t = u.raise Src.hvCeil (78 + h) ∧ (u.hvs h).target = c ∧
          u.rd Reg.HV_CNT_CEIL_HITS h = s.rd Reg.HV_CNT_CEIL_HITS h + 1 ∧ u = { s with issued := s.issued.tail, regs := u.regs, hv := u.hv }))) ∧
     (s.hst h = Hst.run → s.hvHeld = false → x.soft = 0 → x.endAt ≤ s.now → ∃ t, exec (.hvPwmPeriod h) s = .next t ∧ shows t ∧
       (t.hvs h).duty = (clampI (s.loopOut0 (s.lv Reg.HV_CFG_LOOP h)) 0 (s.rd Reg.HV_CEIL_D_DUTY_CEIL h)).toNat * s.lv Reg.HV_PWM_PERIOD h / 4096) ∧
     (s.hst h ≠ Hst.run → s.hst h ≠ Hst.down → x.endAt ≤ s.now → ∃ t, exec (.hvPwmPeriod h) s = .next t ∧ shows t ∧ (t.hvs h).duty = 0 ∧ (t.hvs h).ref = x.ref ∧
       (t.hvs h).blank = (if s.hst h = Hst.blank then x.blank - 1 else x.blank)) ∧
     (∀ code : Nat, (let mv : Int := ((code : Int) - s.lv Reg.HV_FB_FB_ZERO h) * s.lv Reg.HV_FB_FB_MV h
        (mv.natAbs ≤ s.rd Reg.HV_CEIL_D_V_TRIP h * 1000 → ∃ t, exec (.hvOver h code) s = .next t ∧ t.hasCause Src.hvOver (78 + h) = false ∧ t = { s with regs := t.regs, causes := t.causes } ∧
          State.RegsBut s t [Reg.HV_LEVEL_FB_V.key h 0]) ∧
        (s.rd Reg.HV_CEIL_D_V_TRIP h * 1000 < mv.natAbs → s.hst h = Hst.run → ∃ t u : State, exec (.hvOver h code) s = .next t ∧ t = u.raiseLive Src.hvOver (78 + h) ∧ u.hst h = Hst.tripped ∧
          (u.hvs h).duty = 0 ∧ bitOf (u.hvs h).trips Src.hvOver = true ∧ shows u))) ∧
     (s.hst h = Hst.run → s.rd Reg.HV_CNT_ARCS h + 1 < 2 ^ 16 →
       (let arcs := s.now :: x.arcs.filter fun t => decide (s.now < t + 1000000 * max 1 (s.lv Reg.HV_ARC_ARC_WIN h))
        let blanks (u : State) : Prop := u.hst h = Hst.blank ∧ u.hvs h = { x with duty := 0, arcs := arcs, blank := max 1 (s.lv Reg.HV_ARC_ARC_BLANK h), soft := 0 } ∧
          u.rd Reg.HV_CNT_ARCS h = s.rd Reg.HV_CNT_ARCS h + 1 ∧ shows u
        (arcs.length ≤ s.lv Reg.HV_ARC_ARC_MAX h → ∃ t, exec (.hvArc h) s = .next t ∧ blanks t) ∧
        (s.lv Reg.HV_ARC_ARC_MAX h < arcs.length → ∃ t u : State, exec (.hvArc h) s = .next t ∧ t = (u.boom (78 + h)).raise Src.hvArc (78 + h) ∧ blanks u))) ∧
     (s.hst h = Hst.blank → x.blank = 0 → ∃ t, exec (.arcBlankEnd h) s = .next t ∧ t.hst h = Hst.run ∧ t.hvs h = { x with soft := (if s.lv Reg.HV_ARC_ARC_SOFT h = 0 then 0 else 1) } ∧ shows t) ∧
     ∀ src, s.Granted src (Reg.HV_CTL_REARM.addr h 0) → s.hst h = Hst.down → s.abLatched = false → x.offAfter = false → ∃ t, exec (.hvRearm src h) s = .next t ∧ t.hst h = Hst.run ∧
       t.hvs h = { x with target := s.lvI Reg.HV_RAMP_REST h, soft := 0, quiet := false } ∧ shows t)

/-- On heater k: an HTR_STEP in OFF or RUN sets the set-point, and holds it off where asked (R294). A half-cycle without mains lock fires nothing, counts and raises HTR_NOSYNC; with it, in bursts of half-cycles, the demand of the loop, throttled and within DUTY_CEIL, adds to the accumulator, and the half-cycle is on when that reaches 4,096 (R294, R295). A gate pulse ends at its time (R295); REARM takes DOWN to RUN with ACC_INIT (R296). The first crossing starts the count of crossings in the window; LOCK_N of them lock the phase, which ends MAINS_LOST (R292, R293). Two cycles without one lose the lock, keep the position, forget the period and raise MAINS_LOST (R292, R293). -/
def Obligations.HeatersFireOnTheMains : Prop :=
  (∀ (k : Nat) (s : State), k < 4 →
    (let x := s.htrs k
     (∀ a, s.OnTime 0x21 a → a.e.target = k → s.tst k ≠ Tst.down → s.tst k ≠ Tst.tripped → ∃ t, exec .htrStep s = .next t ∧
       t.htrs k = { x with sp := signed 16 (a.e.arg % 65536), hold := bitOf a.e.arg 16 } ∧ (bitOf a.e.arg 16 = true → t.htrOn k = false) ∧
       t = { s with issued := s.issued.tail, htr := t.htr }) ∧
     (s.tst k = Tst.run → s.on Reg.MAINS_STAT_LOCKED = false → s.rd Reg.HTR_CNT_NOSYNC_HALVES k + 1 < 2 ^ 16 → ∃ t u : State, exec (.heaterHalfCycle k) s = .next t ∧
       t = u.raiseLive Src.htrNosync (110 + k) ∧ u.htrOn k = false ∧ u.htrs k = { x with fire := false, unitOn := false, onAt := none, offAt := none, pulseEnd := none } ∧ u.rd Reg.HTR_CNT_NOSYNC_HALVES k = s.rd Reg.HTR_CNT_NOSYNC_HALVES k + 1 ∧
       u = { s with regs := u.regs, htr := u.htr }) ∧
     (s.tst k = Tst.run → s.on Reg.MAINS_STAT_LOCKED = true → x.half ≠ some (s.mainsPos / 32768) → s.lon Reg.HTR_CFG_MODE k = false → s.lon Reg.HTR_CFG_BURST_UNIT k = false →
       (let d := min ((clampI (s.loopOut0 (s.lv Reg.HTR_CFG_LOOP k)) 0 4095).toNat * (s.takeThr k).rd Reg.THM_THR_THR k / 256) (s.rd Reg.HTR_CEIL_DUTY_CEIL k)
        let on := decide (4096 ≤ x.acc + d)
        ∃ t, exec (.heaterHalfCycle k) s = .next t ∧ t.rd Reg.HTR_STAT_DEMAND k = d % 2 ^ 12 ∧ (t.htrs k).unitOn = on ∧ (t.htrs k).acc = (if on then x.acc + d - 4096 else x.acc + d) ∧
          (t.htrs k).half = some (s.mainsPos / 32768) ∧ t = { s with regs := t.regs, htr := t.htr, causes := t.causes })) ∧
     (∀ t0, x.pulseEnd = some t0 → t0 ≤ s.now → x.offAt = none → ∃ t, exec (.heaterGateEnd k) s = .next t ∧ t.htrOn k = false ∧ t.htrs k = { x with fire := false, pulseEnd := none } ∧
       t = { s with htr := t.htr }) ∧
     ∀ src, s.Granted src (Reg.HTR_CTL_REARM.addr k 0) → s.tst k = Tst.down → s.abLatched = false → ∃ t, exec (.htrRearm src k) s = .next t ∧ t.tst k = Tst.run ∧
       t.htrs k = { x with acc := s.lv Reg.HTR_ACC_ACC_INIT k, half := none } ∧ t = { s with regs := t.regs, htr := t.htr } ∧ State.RegsBut s t [Reg.HTR_STAT_STATE.key k 0])) ∧
  ∀ s : State, (let m := s.mains
    let tc := s.now - 1000 * s.rd Reg.MAINS_CFG_ZC_DELAY
    (m.last = none → exec .zcrossEdge s = .next { s with mains := { m with last := some tc, good := 0 } }) ∧
    (∀ t0, m.last = some t0 → s.on Reg.MAINS_STAT_LOCKED = false → m.period ≠ 0 → m.period ≤ 2 * (tc - t0) → 2 * (tc - t0) < 3 * m.period →
      ((tc - t0 : Int) - m.period).natAbs * 256 ≤ max 1 (s.rd Reg.MAINS_CFG_WIN) * m.period → t0 ≤ tc →
      ∃ t, exec .zcrossEdge s = .next t ∧ t.mains.last = some tc ∧ t.mains.good = m.good + 1 ∧ t = { s with regs := t.regs, mains := t.mains, causes := t.causes } ∧
        (t.on Reg.MAINS_STAT_LOCKED = true ↔ s.lockN ≤ m.good + 1) ∧ (s.lockN ≤ m.good + 1 → t.hasCause Src.mainsLost Src.noUnit = false)) ∧
    (∀ t0, m.last = some t0 → s.on Reg.MAINS_STAT_LOCKED = true → t0 + 2 * m.period + max 1 (s.rd Reg.MAINS_CFG_WIN) * m.period / 256 < s.now →
      ∃ t u : State, exec .mainsLost s = .next t ∧ t = u.raiseLive Src.mainsLost Src.noUnit ∧ u.on Reg.MAINS_STAT_LOCKED = false ∧ u.mainsPos = s.mainsPos ∧ u.mains.period = 0 ∧
        u.mains.last = none ∧ u = { s with regs := u.regs, mains := u.mains } ∧ State.RegsBut s u [Reg.MAINS_STAT_LOCKED.key 0 0]))

/-- Sensors are read once per millisecond: between, and a second time in one, nothing happens (R299). A reading shows, unbroken, with the factor of the temperature it takes effect with; a missing one reads 0x8000, broken, with the least factor (R300, R301). Where nothing exposes or moves and no port is direct, a die trip holds every output, LENs low, leaves no drive, high-voltage channel or heater running, and is raised and reported (R302); with all die sensors below 110 °C the hold ends with a record (R302). A fuser comparator out of its window for 10 µs holds its heaters off and is raised; a reading outside the narrowed window starts its second over, and after a second inside it is released with a record (R303). A droop lowers the heartbeat, counts and is raised; each recovery step, after its time, gives back one sixteenth and ends the cause (R304). -/
def Obligations.TemperaturesHoldAndThrottle : Prop :=
  (∀ (die : List Int) (adc : List Nat) (s : State),
    ((s.now % 1000000 ≠ 0 ∨ s.now / 1000000 < s.thermMs) → exec (.sensorRead die adc) s = .next s) ∧
    (s.now % 1000000 = 0 → s.thermMs ≤ s.now / 1000000 → ∃ t, exec (.sensorRead die adc) s = .next t ∧ t.thermMs = s.now / 1000000 + 1)) ∧
  (∀ (i : Nat) (s : State), i < 48 →
    (∀ T : Int, -2 ^ 15 ≤ T → T < 2 ^ 15 → (let u := s.sensorTake i (some T)
      let te := nextEff T (s.rd Reg.THM_CFG_THR_HYST) (tget none s.tEff i)
      u.rdI Reg.THM_SENS_STAT_TEMP i = T ∧ u.on Reg.THM_SENS_STAT_BROKEN i = false ∧ tget none u.tEff i = some te ∧ u.rd Reg.THM_SENS_STAT_FACTOR i = s.factor i te % 2 ^ 9 ∧
        u.hasCause Src.thermBroken Src.noUnit i = false ∧ u = { s with regs := u.regs, tEff := u.tEff, causes := u.causes })) ∧
    (s.on Reg.THM_SENS_STAT_BROKEN i = true → s.on Reg.THM_SENS_CFG_EN i = true → (let u := s.sensorTake i none
      u.rd Reg.THM_SENS_STAT_TEMP i = 0x8000 ∧ u.on Reg.THM_SENS_STAT_BROKEN i = true ∧ u.rd Reg.THM_SENS_STAT_FACTOR i = s.thrMin % 2 ^ 9 ∧ u = { s with regs := u.regs, causes := u.causes }))) ∧
  (∀ (i : Nat) (s : State), i < 8 → s.hasCause Src.dieTrip Src.noUnit i = false → s.on Reg.THM_HW_STAT_DIE_HOLD = false → s.stopWaits = [] → (∀ m, m < 32 → s.mst m = Mst.idle) →
    (∀ n, n < 6 → (s.stns n).expo = none ∧ s.lv Reg.BL_CFG_PORT n ≠ 2) → ∃ t u : State, exec (.dieTrip i) s = .next t ∧
      t = (u.raiseLive Src.dieTrip Src.noUnit i).powerRec 5 St.ok (1 + 2 ^ 9) ∧ (∀ n, n < 6 → u.on Reg.BL_STAT_LEN n = false) ∧ u.on Reg.THM_HW_STAT_DIE_HOLD = true ∧
      (∀ n, n < 16 → u.dst n = Dst.off ∨ u.dst n = Dst.tripped) ∧ (∀ h, h < 32 → u.hst h = Hst.off ∨ u.hst h = Hst.tripped) ∧
      (∀ k, k < 4 → u.tst k = Tst.off ∨ u.tst k = Tst.tripped) ∧ u = { s with regs := u.regs, drv := u.drv, stp := u.stp, hv := u.hv, htr := u.htr }) ∧
  (∀ s : State, s.on Reg.THM_HW_STAT_DIE_HOLD = true → (∀ i, i < 8 → s.on Reg.THM_SENS_STAT_BROKEN i = false ∧ s.rdI Reg.THM_SENS_STAT_TEMP i < 1760) →
    (∀ n, n < 6 → s.on Reg.BL_STAT_LEN n = false) → bitOf (s.rd Reg.FLT_LATCH) Src.dieTrip = true → s.Room (s.rd Reg.RING_EVT_ROUTE_POWER) → ∃ t, exec .dieHoldRelease s = .next t ∧ t.on Reg.THM_HW_STAT_DIE_HOLD = false ∧
      (∀ i, i < 8 → t.hasCause Src.dieTrip Src.noUnit i = false) ∧ s.Told t (s.rd Reg.RING_EVT_ROUTE_POWER) (mkRec 8 St.ok 5 0 1) ∧
      t = { s with regs := t.regs, causes := t.causes, eq := t.eq, stn := t.stn } ∧
      State.RegsBut s t (Reg.THM_HW_STAT_DIE_HOLD.key 0 0 :: (List.range 6).map fun n => Reg.BL_STAT_LEN.key n 0)) ∧
  (∀ (j code us : Nat) (s : State), j < 8 →
    (s.rd Reg.THM_FUS_CMP_HTR_MASK j ≠ 0 → ¬(s.rd Reg.THM_FUS_CMP_LO j < code ∧ code < s.rd Reg.THM_FUS_CMP_HI j) → bitOf (s.rd Reg.THM_HW_STAT_FUS_HOLD) j = false → 10 ≤ us →
      ∃ t u : State, exec (.htrHwtrip j code us) s = .next t ∧ t = (u.raiseLive Src.htrHwtrip Src.noUnit j).powerRec 5 St.ok (2 ^ (1 + j) + 2 ^ 9) ∧
        bitOf (u.rd Reg.THM_HW_STAT_FUS_HOLD) j = true ∧ (∀ k, k < 4 → bitOf (s.rd Reg.THM_FUS_CMP_HTR_MASK j) k = true → u.htrOn k = false) ∧
        u = { s with regs := u.regs, fusAt := tput 0 s.fusAt j s.now } ∧ State.RegsBut s u [Reg.THM_HW_STAT_FUS_HOLD.key 0 0, Reg.THM_HW_STAT_FUS_TRIPPED.key 0 0]) ∧
    (s.fusInside j code = false → exec (.fuserCmpRelease j code) s = .next { s with fusAt := tput 0 s.fusAt j s.now }) ∧
    (bitOf (s.rd Reg.THM_HW_STAT_FUS_HOLD) j = true → s.fusInside j code = true → tget 0 s.fusAt j + 1000000000 ≤ s.now → s.Room (s.rd Reg.RING_EVT_ROUTE_POWER) → ∃ t, exec (.fuserCmpRelease j code) s = .next t ∧ bitOf (t.rd Reg.THM_HW_STAT_FUS_HOLD) j = false ∧
      t.hasCause Src.htrHwtrip Src.noUnit j = false ∧ s.Told t (s.rd Reg.RING_EVT_ROUTE_POWER) (mkRec 8 St.ok 5 0 (2 ^ (1 + j))) ∧
      t = { s with regs := t.regs, causes := t.causes, eq := t.eq } ∧ State.RegsBut s t [Reg.THM_HW_STAT_FUS_HOLD.key 0 0])) ∧
  ∀ (mv : Nat) (s : State), (mv < min 725 (max 650 (s.rd Reg.THM_DROOP_DROOP_MV)) → s.rd Reg.THM_DROOP_CNT_EVENTS + 1 < 2 ^ 32 → ∃ t u : State, exec (.coreDroop mv) s = .next t ∧
      t = u.raiseLive Src.coreDroop Src.noUnit ∧ u.on Reg.GEN_CLK_STAT_DROOP = true ∧ u.hbDroop = min 16 (max 4 (s.rd Reg.THM_DROOP_DROOP_SIXT)) ∧
      u.rd Reg.GEN_CLK_STAT_HB_SIXTEENTHS = min s.hbTherm u.hbDroop % 2 ^ Reg.GEN_CLK_STAT_HB_SIXTEENTHS.width ∧ u.rd Reg.THM_DROOP_CNT_EVENTS = s.rd Reg.THM_DROOP_CNT_EVENTS + 1) ∧
    (s.on Reg.GEN_CLK_STAT_DROOP = true → s.droopAt + 1000 * (if s.hasCause Src.coreDroop Src.noUnit then max 1 (s.rd Reg.THM_DROOP_DROOP_HOLD) else 1) ≤ s.now → ∃ t, exec .droopRecover s = .next t ∧ t.hbDroop = min 16 (s.hbDroop + 1) ∧ t.hasCause Src.coreDroop Src.noUnit = false ∧
      (t.on Reg.GEN_CLK_STAT_DROOP = true ↔ t.hbDroop < 16) ∧ t.rd Reg.GEN_CLK_STAT_HB_SIXTEENTHS = min s.hbTherm t.hbDroop % 2 ^ Reg.GEN_CLK_STAT_HB_SIXTEENTHS.width ∧
      t = { s with regs := t.regs, hbDroop := t.hbDroop, droopAt := s.now, causes := t.causes })

/-- GO in IDLE, its block's stage free, starts stage 0 of the way up and switches its rails on (R305, R307). The last rail of a stage to reach GOOD_MV is monitored from then on and starts the dwell, after which SEQBELL is released; on the way down the last below OFF_MV releases it at once (R305, R306). Once it has been high for 4 µs, where it is used, the next stage begins, or after stage 63 the sequencer runs, or after stage 0 of the way down it waits off or halts, with a record (R306, R307). A rail not good in T_UP is flagged, recorded and raised, and is an Ebb; one still up at T_DOWN is flagged, recorded and raised, and the sequence goes on; a monitored rail outside its window for its filter time is flagged, recorded, raised and an Ebb (R305, R307). A glitch of SEQBELL, released here, is counted (R306). -/
def Obligations.RailsComeUpAndDown : Prop :=
  ∀ s : State, s.Room (s.rd Reg.RING_EVT_ROUTE_POWER) →
    (let q := s.sequ
     let P := s.rd Reg.RING_EVT_ROUTE_POWER
     (∀ src, s.Granted src 0x7C208 → tget none s.post 0x7C000 = none → s.sst = Sst.idle → ∃ t, exec (.seqGo src) s = .next t ∧ t.sst = Sst.up ∧ t.rd Reg.SEQ_STAT_STAGE = 0 ∧
       (∀ n, n < 16 → s.on Reg.RAIL_CFG_EN n = true → s.rd Reg.RAIL_CFG_STAGE_ON n = 0 → t.on Reg.RAIL_STAT_ON n = true ∧ bitOf t.sequ.wait n = true) ∧
       (∀ n, n < 16 → s.on Reg.RAIL_CFG_EN n = false → t.on Reg.RAIL_STAT_ON n = s.on Reg.RAIL_STAT_ON n ∧ bitOf t.sequ.wait n = false) ∧ t = { s with regs := t.regs, sequ := t.sequ }) ∧
     (∀ n code, n < 16 → q.wait = 2 ^ n → (let mv := (Config.rnd (code * s.rd Reg.RAIL_SCALE_SCALE n : Nat) 256).toNat
       (s.sst = Sst.up → s.rd Reg.RAIL_LVL1_GOOD_MV n ≤ mv → ∃ t, exec (.railGood n code) s = .next t ∧ t.rd Reg.RAIL_STAT_MV n = mv % 2 ^ Reg.RAIL_STAT_MV.width ∧ t = { s with regs := t.regs, sequ := t.sequ } ∧
         t.sequ = { q with wait := 0, mon := setBit q.mon n true, dwellAt := some (s.now + 100000 * s.rd Reg.SEQ_CFG_DWELL) } ∧
         State.RegsBut s t [Reg.RAIL_STAT_MV.key n 0, Reg.RAIL_STAT_GOOD.key n 0]) ∧
       (s.sst = Sst.down → s.pwr.step = 0 → mv < s.rd Reg.RAIL_LVL1_OFF_MV n → ∃ t, exec (.railGood n code) s = .next t ∧ t.sequ = { q with wait := 0, released := some s.now } ∧
         t = { s with regs := t.regs, sequ := t.sequ } ∧ State.RegsBut s t [Reg.RAIL_STAT_MV.key n 0, Reg.RAIL_STAT_GOOD.key n 0]))) ∧
     (∀ t0, q.dwellAt = some t0 → t0 ≤ s.now → s.sst = Sst.up → exec .stageDwellEnd s = .next { s with sequ := { q with dwellAt := none, released := some s.now } }) ∧
     (∀ t0 high, q.released = some t0 → t0 + 4000 ≤ s.now → (s.on Reg.SEQ_CFG_SEQBELL_EN = true → 4000 ≤ high ∧ t0 + high ≤ s.now) →
       (s.sst = Sst.up → s.rd Reg.SEQ_STAT_STAGE < 63 → ∃ t, exec (.seqbellStageAdvance high) s = .next t ∧ t.rd Reg.SEQ_STAT_STAGE = s.rd Reg.SEQ_STAT_STAGE + 1 ∧ t.sst = Sst.up) ∧
       (s.sst = Sst.up → s.rd Reg.SEQ_STAT_STAGE = 63 → ∃ t, exec (.seqbellStageAdvance high) s = .next t ∧ t.sst = Sst.running ∧ s.Told t P (mkRec 8 St.ok 4 0 1)) ∧
       (s.sst = Sst.down → 0 < s.rd Reg.SEQ_STAT_STAGE → s.rd Reg.SEQ_STAT_STAGE < 64 → ∃ t, exec (.seqbellStageAdvance high) s = .next t ∧ t.rd Reg.SEQ_STAT_STAGE = s.rd Reg.SEQ_STAT_STAGE - 1 ∧ t.sst = Sst.down) ∧
       (s.sst = Sst.down → s.rd Reg.SEQ_STAT_STAGE = 0 → ∃ t, exec (.seqbellStageAdvance high) s = .next t ∧ t.sequ.offAt = some s.now ∧ s.Told t P (mkRec 8 St.ok 4 0 0) ∧
         t.sst = (if s.rd Reg.SEQ_STAT_CAUSE = EbbBy.input ∧ s.on Reg.SEQ_CFG_AUTO_RESTART = true then Sst.offWait else Sst.halted))) ∧
     (∀ n, n < 16 → bitOf q.wait n = true → q.stageAt + 1000000 * max 1 (s.rd Reg.RAIL_TIME_T_UP n) ≤ s.now → s.sst = Sst.up → ∃ t u : State, exec (.railUpTimeout n) s = .next t ∧
       t = (u.raise Src.seqRail Src.noUnit n).ebb EbbBy.upFail ∧ u.on Reg.RAIL_STAT_UP_FAIL n = true ∧ s.Told u P (mkRec 8 St.timeout 3 0 (n + 2 ^ 6 * s.rd Reg.RAIL_STAT_MV n)) ∧ u = { s with regs := u.regs, eq := u.eq }) ∧
     (∀ n, n < 16 → bitOf q.wait n = true → q.stageAt + 1000000 * max 1 (s.rd Reg.RAIL_TIME_T_DOWN n) ≤ s.now → s.sst = Sst.down → ∃ t u : State, exec (.railDownTimeout n) s = .next t ∧
       t = (u.raise Src.seqDownTmo Src.noUnit n).railDone n false ∧ u.on Reg.RAIL_STAT_DOWN_TMO n = true ∧ s.Told u P (mkRec 8 St.timeout 3 0 (n + 2 ^ 4 + 2 ^ 6 * s.rd Reg.RAIL_STAT_MV n)) ∧ u = { s with regs := u.regs, eq := u.eq }) ∧
     (∀ n code us, n < 16 → bitOf q.mon n = true → s.rd Reg.RAIL_TIME_FLT_US n / 10 * 10 ≤ us → (let mv := (Config.rnd (code * s.rd Reg.RAIL_SCALE_SCALE n : Nat) 256).toNat
       (mv < s.rd Reg.RAIL_LVL2_LO_MV n ∨ s.rd Reg.RAIL_LVL2_HI_MV n < mv) → ∃ t u : State, exec (.railRunFault n code us) s = .next t ∧
         t = (u.raise Src.seqRail Src.noUnit n).ebb EbbBy.rail ∧ u.on Reg.RAIL_STAT_RUN_FAULT n = true ∧
         s.Told u P (mkRec 8 St.timeout 3 0 (n + 2 ^ 5 + 2 ^ 6 * (mv % 2 ^ Reg.RAIL_STAT_MV.width))) ∧ u = { s with regs := u.regs, eq := u.eq })) ∧
     (s.on Reg.SEQ_CFG_SEQBELL_EN = true → q.released.isSome = true → s.rd Reg.SEQ_CNT_BELL_GLITCH + 1 < 2 ^ 16 → exec .seqbellGlitch s = .next (s.wr Reg.SEQ_CNT_BELL_GLITCH (s.rd Reg.SEQ_CNT_BELL_GLITCH + 1))))

/-- With room for the power record and no engine-wide abandonment running: DOWN with its block's stage free, an input below PFAIL_MV for PFAIL_US, and EBB_N pulled by another participant for 2 µs, while RUNNING, shut the sequencer down: SHUTDOWN with the cause, EBB_N held, no rail monitored, the record told with what VINSNS read, a power-mode change dropped or, on the way into Moored, to end after its step, and an engine-wide abandonment asked for (R307, R308). DOWN in IDLE does nothing. T_SHUT later the rails go down from stage 63 (R307). EBB_N is released by another participant: it stays low only while the device pulls it (R308). The input above PFAIL_MV + 50 mV is good; T_OFF_MIN later OFF_WAIT starts the way up, and a pull for an input failure in IDLE or HALTED ends (R307, R308). -/
def Obligations.EbbsShutTheEngineDown : Prop :=
  ∀ s : State, s.Room (s.rd Reg.RING_EVT_ROUTE_POWER) → s.eng = none →
    (let q := s.sequ
     let shut (t : State) (c : Nat) : Prop := t.sst = Sst.shutdown ∧ t.rd Reg.SEQ_STAT_CAUSE = c ∧ t.on Reg.SEQ_STAT_EBB = true ∧ t.sequ.ownEbb = true ∧ t.sequ.shutAt = some s.now ∧
       t.sequ.mon = 0 ∧ bitOf t.abCauses 0 = true ∧ (t.pwr.target = none ∨ s.pwr.target = some 2 ∧ s.pwr.step ≠ 0 ∧ t.pwr.ebb = true) ∧
       s.Told t (s.rd Reg.RING_EVT_ROUTE_POWER) (mkRec 8 St.ok 1 0 (c + 2 ^ 3 * (t.sequ.vins % 2 ^ 16)))
     (∀ src, s.Granted src 0x7C208 → tget none s.post 0x7C000 = none → (s.sst = Sst.running → ∃ t, exec (.seqDown src) s = .next t ∧ shut t EbbBy.host) ∧ (s.sst = Sst.idle → exec (.seqDown src) s = .next s)) ∧
     (∀ mv us, mv < min 1000 (max 300 (s.rd Reg.SEQ_PFAIL_PFAIL_MV)) → max 1 (s.rd Reg.SEQ_PFAIL_PFAIL_US) ≤ us → s.sst = Sst.running → ∃ t, exec (.inputFailure mv us) s = .next t ∧ shut t EbbBy.input ∧ t.sequ.vins = mv ∧ t.on Reg.SEQ_STAT_INPUT_GOOD = false) ∧
     (∀ ns, 2000 ≤ ns → s.sst = Sst.running → ∃ t, exec (.externalEbb ns) s = .next t ∧ shut t EbbBy.external ∧ t.sequ.extEbb = true) ∧
     (∃ t, exec .ebbNRelease s = .next t ∧ t.sequ = { q with extEbb := false } ∧ t.on Reg.SEQ_STAT_EBB = (q.ownEbb || q.idleEbb) ∧ t = { s with regs := t.regs, sequ := t.sequ } ∧
       State.RegsBut s t [Reg.SEQ_STAT_EBB.key 0 0]) ∧
     (∀ mv, min 1000 (max 300 (s.rd Reg.SEQ_PFAIL_PFAIL_MV)) + 50 < mv → ∃ t, exec (.inputGood mv) s = .next t ∧ t.on Reg.SEQ_STAT_INPUT_GOOD = true ∧ t.sequ.vins = mv ∧
       t.sequ.goodAt = (if s.on Reg.SEQ_STAT_INPUT_GOOD then q.goodAt else s.now) ∧ t = { s with regs := t.regs, sequ := t.sequ } ∧ State.RegsBut s t [Reg.SEQ_STAT_INPUT_GOOD.key 0 0]) ∧
     (∀ t0, q.shutAt = some t0 → s.sst = Sst.shutdown → t0 + 1000000 * s.tShut ≤ s.now → ∃ t, exec .tShutExpire s = .next t ∧ t.sst = Sst.down ∧ t.rd Reg.SEQ_STAT_STAGE = 63 ∧
       t.sequ.shutAt = none ∧ (∀ n, n < 16 → s.on Reg.RAIL_CFG_EN n = true → s.rd Reg.RAIL_CFG_STAGE_OFF n = 63 → t.on Reg.RAIL_STAT_ON n = false) ∧ (s.pwr.ebb = false → t.pwr = s.pwr) ∧
       t = { s with regs := t.regs, sequ := t.sequ, pwr := t.pwr }) ∧
     (s.on Reg.SEQ_STAT_INPUT_GOOD = true →
       (∀ t0, s.sst = Sst.offWait → q.offAt = some t0 → t0 + 1000000 * s.rd Reg.SEQ_CFG_T_OFF_MIN ≤ s.now → ∃ t, exec .tOffMinExpire s = .next t ∧ t.sst = Sst.up ∧ t.rd Reg.SEQ_STAT_STAGE = 0 ∧ t.sequ.ownEbb = false) ∧
       (s.sst = Sst.idle ∨ s.sst = Sst.halted → q.idleEbb = true → q.goodAt + 1000000 * s.rd Reg.SEQ_CFG_T_OFF_MIN ≤ s.now → ∃ t, exec .tOffMinExpire s = .next t ∧ t.sequ = { q with idleEbb := false } ∧
         t = { s with regs := t.regs, sequ := t.sequ } ∧ State.RegsBut s t [Reg.SEQ_STAT_EBB.key 0 0])))

/-- A request for mode m through a granted write, its block's stage free: kept while a change runs (R310); held in Underway while a crossing is boarding, boarded or cast off (R9); nothing to do in that mode; in Moored the exit towards it begins (R312); otherwise the change to it begins (R310). An enabled wake source, WAKE_N low for 1 ms, in Moored begins the exit towards the mode of WAKE_TO, and is noted during Moored entry; a disabled one does nothing (R312). Slack is declared, with its record, once every enabled scan PLL is parked; Underway once every one is locked (R310, R313). -/
def Obligations.PowerModesAreRequested : Prop :=
  ∀ s : State,
    (let q := s.pwr
     let exits (t : State) (k m : Nat) : Prop := t.on Reg.PWR_STAT_CHANGING = true ∧ t.rd Reg.PWR_STAT_LAST_WAKE = k ∧
       t.pwr = { q with target := some m, start := s.now, step := 4, stage := 0, coast := false, wakeBy := k, wake := none, kept := none, ebb := false } ∧
       t = { s with regs := t.regs, pwr := t.pwr } ∧ State.RegsBut s t [Reg.PWR_REQ_MODE.key 0 0, Reg.PWR_STAT_CHANGING.key 0 0, Reg.PWR_STAT_LAST_WAKE.key 0 0]
     (∀ (src : Port) (m : Nat), s.Granted src 0x90000 → tget none s.post 0x90000 = none → m < 3 →
       (s.on Reg.PWR_STAT_CHANGING = true → exec (.pwrReq src m) s = .next { s.wr Reg.PWR_REQ_MODE m with pwr := { q with kept := some m } }) ∧
       (s.on Reg.PWR_STAT_CHANGING = false →
         (s.on Reg.PWR_STAT_HELD = false → s.rd Reg.PWR_STAT_MODE = m → exec (.pwrReq src m) s = .next (s.wr Reg.PWR_REQ_MODE m)) ∧
         (s.on Reg.PWR_STAT_HELD = false → s.rd Reg.PWR_STAT_MODE = 0 → m ≠ 0 → s.liveCrx.isEmpty = false → ∃ t, exec (.pwrReq src m) s = .next t ∧ t.on Reg.PWR_STAT_HELD = true ∧
           t.pwr = { q with kept := some m } ∧ t = { s with regs := t.regs, pwr := t.pwr } ∧ State.RegsBut s t [Reg.PWR_REQ_MODE.key 0 0, Reg.PWR_STAT_HELD.key 0 0]) ∧
         (s.rd Reg.PWR_STAT_MODE = 2 → m < 2 → ∃ t, exec (.pwrReq src m) s = .next t ∧ exits t 4 m) ∧
         (s.on Reg.PWR_STAT_HELD = false → s.rd Reg.PWR_STAT_MODE ≠ m → s.rd Reg.PWR_STAT_MODE ≠ 2 → s.liveCrx.isEmpty = true → ∃ t, exec (.pwrReq src m) s = .next t ∧
           t = (s.wr Reg.PWR_REQ_MODE m).pwrBegin m ∧ t.on Reg.PWR_STAT_CHANGING = true ∧
           t.pwr = { q with kept := none, target := some m, start := s.now, step := (if m = 2 then 1 else 0), coast := false, ebb := false }))) ∧
     (∀ k us : Nat,
       (let en := (k == 1 && s.on Reg.PWR_WAKE_DOORBELL_EN && (List.range 64).any fun n => s.on Reg.SQ_CTL_EN n) || (k == 2 && s.on Reg.PWR_WAKE_PIN_EN && decide (1000 ≤ us)) ||
          (k == 3 && s.on Reg.PWR_WAKE_FENLINK_EN)
        let m := if s.on Reg.PWR_WAKE_WAKE_TO then 1 else 0
        (en = false → k ≠ 4 → exec (.wake k us) s = .next s) ∧
        (en = true → s.on Reg.PWR_STAT_CHANGING = false → s.rd Reg.PWR_STAT_MODE = 2 → ∃ t, exec (.wake k us) s = .next t ∧ exits t k m) ∧
        (en = true → s.on Reg.PWR_STAT_CHANGING = true → q.target = some 2 → q.wake = none → q.ebb = false → exec (.wake k us) s = .next { s with pwr := { q with wake := some (k, m) } }))) ∧
     (s.on Reg.PWR_STAT_CHANGING = true → q.kept = none → q.step = 0 →
       (q.target = some 1 → (∀ n ∈ s.enPlls, s.on Reg.SPLL_STAT_PARKED n = true) → s.Room (s.rd Reg.RING_EVT_ROUTE_POWER) → ∃ t, exec .slackDeclared s = .next t ∧
         t.rd Reg.PWR_STAT_MODE = 1 ∧ t.on Reg.PWR_STAT_CHANGING = false ∧ t.pwr = { q with target := none, step := 0, coast := false, wakeBy := 0 } ∧
         s.Told t (s.rd Reg.RING_EVT_ROUTE_POWER) (mkRec 8 St.ok 2 0 (1 + 2 ^ 2 * s.rd Reg.PWR_STAT_MODE + 2 ^ 4 * q.wakeBy + 2 ^ 8 * ((s.now - q.start) / 1000 % 2 ^ 24) +
           (if q.coast then 2 ^ 32 else 0))) ∧ t = { s with regs := t.regs, pwr := t.pwr, eq := t.eq } ∧
         State.RegsBut s t [Reg.PWR_STAT_MODE.key 0 0, Reg.PWR_STAT_CHANGING.key 0 0, Reg.PWR_TIME_LAST_CHANGE_US.key 0 0]) ∧
       (q.target = some 0 → (∀ n ∈ s.enPlls, s.on Reg.SPLL_STAT_LOCKED n = true) → ∃ t, exec .slackDeclared s = .next t ∧ t.rd Reg.PWR_STAT_MODE = 0 ∧ t.on Reg.PWR_STAT_CHANGING = false ∧
         t.pwr = { q with target := none, step := 0, coast := false, wakeBy := 0 })))

/-- Moored entry waits for its axes; 10 s after it began it coasts (R311). With the axes stopped the drives, steppers, high-voltage channels and heaters go off, and it drains the Hold's transfers; then the rails of the highest stage left go off, and with none left, the link being down and no wake waiting, Moored is declared with its record (R311, R313). The exit raises the rails of the lowest stage left; with none left, 3.25 ms later, and nothing waiting, the Hold is zero, the watchdog counts anew and Slack is declared (R311). DRAIN_US after it was asked to end, a transfer with a read in flight issues no further request, and one with nothing in flight ends with DOMAIN_DOWN and what it moved (R351). -/
def Obligations.MooredIsEnteredAndLeft : Prop :=
  ∀ s : State,
    (let q := s.pwr
     (q.target = some 2 → q.kept = none →
       (q.step = 1 → q.start + 10000000000 ≤ s.now → exec .mooredStopTimeout s = .next { s with pwr := { q with coast := true } }) ∧
       (q.step = 1 → s.allStopped = false → exec .mooredEntry s = .next s) ∧
       (q.step = 1 → s.allStopped = true → q.ebb = false → s.draining Xfer.onHold = true → ∃ t, exec .mooredEntry s = .next t ∧ t.pwr = { q with step := 2 } ∧
         (∀ n, n < 16 → t.dst n = Dst.off ∨ t.dst n = Dst.tripped) ∧ (∀ k, k < 16 → t.rd Reg.STP_STAT_STATE k = 0 ∨ t.rd Reg.STP_STAT_STATE k = 3) ∧
         (∀ h, h < 32 → t.hst h = Hst.off) ∧ (∀ k, k < 4 → t.tst k = Tst.off)) ∧
       (q.step = 3 → s.sequ.wait = 0 → q.ebb = false →
         (∀ k, k < q.stage → s.moorRails k ≠ 0 → (∀ j, j < q.stage → k < j → s.moorRails j = 0) → ∃ t, exec .mooredEntry s = .next t ∧
           t.pwr = { q with stage := k, off := q.off ||| s.moorRails k } ∧ (∀ n, n < 16 → t.on Reg.RAIL_STAT_ON n = (s.on Reg.RAIL_STAT_ON n && !bitOf (s.moorRails k) n)) ∧
           t.sequ.stageAt = s.now ∧ t = { s with regs := t.regs, sequ := t.sequ, pwr := t.pwr }) ∧
         ((∀ j, j < q.stage → s.moorRails j = 0) → s.rd Reg.HOSTIF_LINK_RATE = 0 → q.wake = none → s.Room (s.rd Reg.RING_EVT_ROUTE_POWER) → ∃ t, exec .mooredEntry s = .next t ∧
           t.rd Reg.PWR_STAT_MODE = 2 ∧ t.on Reg.PWR_STAT_CHANGING = false ∧
           t.pwr = { q with target := none, step := 0, coast := false, wakeBy := 0, link := (0, s.rd Reg.HOSTIF_LINK_WIDTH) } ∧
           s.Told t (s.rd Reg.RING_EVT_ROUTE_POWER) (mkRec 8 St.ok 2 0 (2 + 2 ^ 2 * s.rd Reg.PWR_STAT_MODE + 2 ^ 4 * q.wakeBy + 2 ^ 8 * ((s.now - q.start) / 1000 % 2 ^ 24) +
             (if q.coast then 2 ^ 32 else 0))) ∧ t = { s with regs := t.regs, pwr := t.pwr, eq := t.eq }))) ∧
     (q.step = 4 → s.sequ.wait = 0 → s.sequ.dwellAt = none →
       (∀ k, k < 64 → s.exitRails k ≠ 0 → (∀ j, j < k → s.exitRails j = 0) → ∃ t, exec .mooredExit s = .next t ∧ t.sequ = { s.sequ with wait := s.exitRails k, stageAt := s.now } ∧
         t.pwr.stage = k ∧ (∀ n, n < 16 → bitOf t.pwr.off n = (bitOf q.off n && !bitOf (s.exitRails k) n)) ∧
         (∀ n, n < 16 → t.on Reg.RAIL_STAT_ON n = (s.on Reg.RAIL_STAT_ON n || bitOf (s.exitRails k) n)) ∧ t = { s with regs := t.regs, sequ := t.sequ, pwr := t.pwr }) ∧
       ((∀ k, k < 64 → s.exitRails k = 0) → exec .mooredExit s = .next { s with pwr := { q with step := 5, readyAt := s.now + 3250000 } })) ∧
     (q.step = 5 → (s.now < q.readyAt → exec .mooredExit s = .next s) ∧
       (q.readyAt ≤ s.now → q.target = some 1 → q.kept = none → s.xfer = [] → s.tide = [] → ∃ t, exec .mooredExit s = .next t ∧ t.rd Reg.PWR_STAT_MODE = 1 ∧
         t.on Reg.PWR_STAT_CHANGING = false ∧ t.hold = [] ∧ t.boot = { s.boot with wdAt := s.now } ∧ t.pwr = { q with target := none, step := 0, coast := false, wakeBy := 0 })) ∧
     ∀ l x t0, 14 ≤ l → l < 32 → s.on Reg.LT_STAT_BUSY l = true → x.drainAt = some t0 → t0 + s.drainNs ≤ s.now →
       (∀ xs, s.xfers l = x :: xs → x.reading ≠ none → exec (.drainTimeout l) s = .next (s.putXfer l { x with fail := some St.domainDown })) ∧
       (s.xfers l = [x] → x.reading = none → x.flush = false → x.desc = false → x.irq = false → s.Room x.job.eq → ∃ t, exec (.drainTimeout l) s = .next t ∧ t.xfers l = [] ∧
         t.on Reg.LT_STAT_BUSY l = false ∧ t.rd Reg.LT_RCRC_CRC l = x.crc % 2 ^ 32 ∧ (t.sqs x.job.ring).running = (s.sqs x.job.ring).running - 1 ∧
         s.Told t x.job.eq (completionRec x.job St.domainDown (x.crc + 2 ^ 32 * (if x.moves then x.done else 0))) ∧
         t = { s with regs := t.regs, xfer := t.xfer, sq := t.sq, eq := t.eq }))

/-- Port p runs, awaits no reply, and its node list reads good. A Fenlink-2 port whose cycle falls due, past the time a wake gives it, sends SYNC with the cycle number and device time, then OUTPUT to the nodes chosen for it, and awaits the admitted nodes whose slot and phase answer in this cycle (R315, R317, R321). A Fenlink-1 port whose last frame has had its answer time sends POLL to the next admitted node with its tally and outputs and awaits it alone; with none left its round ends; as a round begins ROUND_US shows how long it is since the last began (R315, R318). A NODE_LIST_LOAD of well-formed fields with the bytes it read, its function able to read host memory, while no crossing is boarded or cast off. An entry that R322 refuses makes it BAD_DESC and changes no node. Where the whole list passes the checks of slots, each entry named takes its 16 bytes (R322, R327); an admitted node whose entry changes is no longer admitted, its tally retired. Where slots clash it is refused and changes no node. -/
def Obligations.FenlinkCyclesPollsAndLists : Prop :=
  (∀ (p : Nat) (s : State), p < 4 → s.flRunning p = true → (s.fports p).due = [] → (∀ a, a < 256 → s.Sound 2 (nodeWord p a)) →
    (let x := s.fports p
     let ns := (s.flList p).filter fun n => n.2.en
     let us := s.lv Reg.FL_CFG_CYCLE_US p
     let c := s.now / (1000 * us)
     let outs := (s.flOutputs p ns).1 ++ (s.flOutputs p ns).2
     let frame (at_ addr typ tally : Nat) (pay : List Byte) : Out := .fenlink p (at_ % pos40) (s.flLevel p) (flLine (s.lv Reg.FL_CFG_GEN p) (flBody addr typ tally pay))
     let began : Option Nat := if x.last = 0 then some s.now else x.roundAt
     let round (t : State) : Prop := (∀ t0, x.last = 0 → x.roundAt = some t0 → t.rd Reg.FL_CYCLE_ROUND_US p = min 65535 ((s.now - t0) / 10000)) ∧
       t = { s with regs := t.regs, out := t.out, fport := t.fport, fnode := t.fnode } ∧ State.RegsBut s t [Reg.FL_CYCLE_ROUND_US.key p 0]
     (s.lv Reg.FL_CFG_GEN p = 1 → us ≠ 0 → s.now % (1000 * us) = 0 → x.cycAt ≠ some s.now → x.resumeAt ≤ s.now → ∃ t : State, exec (.fenlinkCycle p) s = .next t ∧
       (let sync := frame s.now 0 Fl.sync 0 (leBytes 2 c ++ leBytes 5 s.stamp)
        (sync :: s.out) <:+ t.out ∧ (outs ≠ [] →
         (frame (s.now + 7760) 0 Fl.output 0 (outs.flatMap fun a => leBytes 1 a ++ leBytes 1 (s.rd Reg.FL_NODE_OUT p a) ++ leBytes 2 (s.rd Reg.FL_NODE_TALLY_TALLY p a)) :: sync :: s.out) <:+ t.out)) ∧
       t.rd Reg.FL_CYCLE_CYCLE p = c % 2 ^ 16 ∧ (t.fports p).cycAt = some s.now ∧
       (t.fports p).due = (ns.filter fun n => s.flServed p n.1 && decide (n.2.slot + 1 < s.flSlots p) && c % 2 ^ n.2.every == n.2.phase).map (·.1) ∧
       (∀ a ∈ outs, (t.fnodes p a).sent = some (s.rd Reg.FL_NODE_OUT p a)) ∧ t = { s with regs := t.regs, out := t.out, fport := t.fport, fnode := t.fnode } ∧
       State.RegsBut s t [Reg.FL_CYCLE_CYCLE.key p 0]) ∧
     (s.lv Reg.FL_CFG_GEN p = 0 → (x.roll = none ∨ x.pollAt + 80000 + 1000 * s.lv Reg.FL_CFG_REPLY_US p ≤ s.now) →
       (∀ a n, (ns.find? fun n => decide (x.last < n.1) && s.flServed p n.1) = some (a, n) → ∃ t, exec (.fenlinkPoll p) s = .next t ∧
         t.out = frame s.now a Fl.poll (s.rd Reg.FL_NODE_TALLY_TALLY p a) (leBytes 1 (s.rd Reg.FL_NODE_OUT p a)) :: s.out ∧
         t.fports p = { x with roll := none, due := [a], last := a, pollAt := s.now, roundAt := began } ∧
         t.fnodes p a = { n with sent := some (s.rd Reg.FL_NODE_OUT p a) } ∧ round t) ∧
       ((∀ n ∈ ns, n.1 ≤ x.last ∨ s.flServed p n.1 = false) → ∃ t : State, exec (.fenlinkPoll p) s = .next t ∧ s.out <:+ t.out ∧ (t.fports p).last = 0 ∧
         (t.fports p).due = [] ∧ (t.fports p).pollAt = s.now ∧ (t.fports p).roundAt = began ∧ round t)))) ∧
  (∀ (n : Nat) (d : Desc) (bs : List Byte) (s : State), n < 64 → s.Ready n 0x56 d → dget d 16 2 6 = 0 → dZero d 19 24 = true → dZero d 32 64 = true → dCrx d = 0 → dget d 17 0 8 ≠ 0 →
    dget d 17 0 8 + dget d 18 0 8 ≤ 256 → 0 < dget d 18 0 8 → dget d 24 0 3 = 0 → s.Calm → (s.pf (s.ownSq n)).flr = false → (s.pf (s.ownSq n)).bme = true → (∀ c ∈ s.crossings, c.state ≠ 2 ∧ c.state ≠ 3) →
    (let p := dget d 16 0 2
     let first := dget d 17 0 8
     let cnt := dget d 18 0 8
     let es := entries 16 cnt bs
     let entry (a : Nat) : FNode := if first ≤ a ∧ a < first + cnt then (nodeOf (s.fnodes p a) (es.getD (a - first) 0)).getD (s.fnodes p a) else s.fnodes p a
     let clash := listClash (s.lv Reg.FL_CFG_GEN p) (s.flSlots p) (((List.range 256).map entry).filter fun x => x.en)
     let done (t : State) : Prop := (t.sqs n).accepted = (s.sqs n).accepted.tail ∧ (t.sqs n).running = (s.sqs n).running
     ((∃ v ∈ es, nodeOf FNode.init v = none) → ∃ t, exec (.nodeListLoad n (.ok bs)) s = .next t ∧ done t ∧ t.fnode = s.fnode) ∧
     ((∀ v ∈ es, nodeOf FNode.init v ≠ none) →
       (clash = true → ∃ t, exec (.nodeListLoad n (.ok bs)) s = .next t ∧ done t ∧ t.fnode = s.fnode) ∧
       (clash = false → (∀ a, a < 256 → s.Sound 2 (nodeWord p a)) → ∃ t, exec (.nodeListLoad n (.ok bs)) s = .next t ∧ done t ∧ ∀ k, k < cnt → (t.fnodes p (first + k)).entry = (entry (first + k)).entry ∧
         ((entry (first + k)).entry ≠ (s.fnodes p (first + k)).entry → t.rd Reg.FL_NODE_TALLY_TALLY p (first + k) = 0)))))

/-- A frame on a running port. A damaged one is counted; with 16 others in the last second FL_BUS is raised (R316, R326). A REPLY with the node's retired tally is flagged, counted, recorded and raised as stale (R324). Another one that the port does not await is discarded and counted; one awaited in its slot with another tally than the present one does nothing more (R316, R322). One with the present tally shows its levels, ends the count of missed replies and is awaited no longer; its overflow flag is counted and recorded, and an edge of a point that reports events is recorded with its device time (R316, R319, R326). An awaited reply that is overdue is counted as missed, and is awaited no longer; the third in a row booms its node and raises FL_NODE_BOOM; one not awaited does nothing (R324). A HELLO, in its slot, of the node that ADMIT went to, with its UNIT_ID and the tally offered, admits it with that tally, and the port offers the next one, never 0; with another UNIT_ID it is refused with a MISMATCH record, once for each; one that answers CALL is a stranger: counted, recorded, raised (R322, R323). -/
def Obligations.RepliesMissesAndHellos : Prop :=
  (∀ (p : Nat) (fr : List Byte) (s : State), p < 4 → s.flRunning p = true →
    (let x := s.fports p
     let F := s.rd Reg.RING_EVT_ROUTE_FENLINK
     let recent := x.errs.filter fun t => decide (s.now < t + 1000000000)
     let counted (u : State) : Prop := u.rd Reg.FL_CNT1_CRC_ERR p = s.rd Reg.FL_CNT1_CRC_ERR p + 1 ∧ u.fports p = { x with errs := (s.now :: recent).take 17 } ∧
       u = { s with regs := u.regs, fport := u.fport } ∧ State.RegsBut s u [Reg.FL_CNT1_CRC_ERR.key p 0]
     (s.rd Reg.FL_CNT1_CRC_ERR p + 1 < 2 ^ 16 → flParse fr = none →
       (recent.length < 16 → ∃ t, exec (.reply p fr) s = .next t ∧ counted t) ∧
       (16 ≤ recent.length → ∃ t u : State, exec (.reply p fr) s = .next t ∧ t = u.raise Src.flBus (flUnit p) ∧ counted u)) ∧
     ∀ (a tally : Nat) (pay : List Byte), flParse fr = some (a, Fl.reply, tally, pay) → 0 < a → pay.length = 3 + 4 * byteAt pay 2 → byteAt pay 2 ≤ 6 → s.lv Reg.FL_CFG_GEN p = 1 →
      (let n := s.fnodes p a
       let tal := s.rd Reg.FL_NODE_TALLY_TALLY p a
       (tally ≠ 0 → tally = n.retired → tally ≠ tal → s.Room F → s.rd Reg.FL_CNT2_STALE p + 1 < 2 ^ 16 → ∃ t u : State, exec (.reply p fr) s = .next t ∧
         t = u.raise Src.flStale (0xF0 + p) a ∧ u.on Reg.FL_NODE_STALE_SEEN p a = true ∧ u.rd Reg.FL_CNT2_STALE p = s.rd Reg.FL_CNT2_STALE p + 1 ∧
         s.Told u F (mkRec 7 St.staleTally (p + 4 * a + 2 ^ 10 * 5) 0 tally) ∧ u = { s with regs := u.regs, eq := u.eq }) ∧
       (x.due.contains a = false → tally ≠ n.retired → s.rd Reg.FL_CNT1_CRC_ERR p + 1 < 2 ^ 16 → recent.length < 16 → ∃ t, exec (.reply p fr) s = .next t ∧ counted t) ∧
       (x.due.contains a = true → s.flInSlot p n.slot = true → tally ≠ n.retired → tally ≠ tal → exec (.reply p fr) s = .next s) ∧
       (x.due.contains a = true → s.flInSlot p n.slot = true → tally = tal → x.mode = 0 → s.flWait = [] → s.crossings = [] → s.marks = [] → (∀ k, k < 32 → s.lon Reg.IO_SHEET_EN k = false) →
         (let flags := byteAt pay 1
          let taken (t : State) : Prop := t.rd Reg.FL_NODE_IN p a = byteAt pay 0 ∧ t.rd Reg.FL_NODE_MISSES p a = 0 ∧ (t.fports p).due = x.due.filter (· != a) ∧
            t.fnodes p a = { n with replied := true }
          (byteAt pay 2 = 0 → bitOf flags 1 = false → ∃ t, exec (.reply p fr) s = .next t ∧ taken t ∧ t = { s with regs := t.regs, fport := t.fport, fnode := t.fnode } ∧
            State.RegsBut s t [Reg.FL_NODE_IN.key p a, Reg.FL_NODE_MISSES.key p a]) ∧
          (byteAt pay 2 = 0 → bitOf flags 1 = true → s.Room F → s.rd Reg.FL_CNT3_EDGE_OVF p + 1 < 2 ^ 16 → ∃ t, exec (.reply p fr) s = .next t ∧ taken t ∧
            t.rd Reg.FL_CNT3_EDGE_OVF p = s.rd Reg.FL_CNT3_EDGE_OVF p + 1 ∧ s.Told t F (mkRec 7 St.ok (p + 4 * a + 2 ^ 10 * 7) 0 flags)) ∧
          (∀ pt lvl u, flRecords pay = [(pt, lvl, u)] → bitOf n.ev pt = true → bitOf n.dir pt = false → bitOf flags 1 = false → s.Room F → ∃ t, exec (.reply p fr) s = .next t ∧
            taken t ∧ s.Told t F (mkRec 7 St.ok (p + 4 * a + 2 ^ 10 * 6) 0 (pt + (if lvl then 8 else 0) + 2 ^ 4 * s.flTime u n.delay)))))))) ∧
  (∀ (p a : Nat) (s : State), p < 4 → 0 < a → a < 256 →
    (let x := s.fports p
     let n := s.fnodes p a
     let F := s.rd Reg.RING_EVT_ROUTE_FENLINK
     let ovr : Prop := if s.lv Reg.FL_CFG_GEN p = 1 ∧ x.mode = 0 then x.cycAt.getD 0 + 40000 + 16000 * n.slot ≤ s.now else x.pollAt + 80000 + 1000 * s.lv Reg.FL_CFG_REPLY_US p ≤ s.now
     (x.due.contains a = false → exec (.replyMissed p a) s = .next s) ∧
     (x.due.contains a = true → ovr → s.rd Reg.FL_CNT1_MISSED p + 1 < 2 ^ 16 →
       (let gone (u : State) : Prop := u.fports p = { x with due := x.due.filter (· != a) } ∧ u.rd Reg.FL_CNT1_MISSED p = s.rd Reg.FL_CNT1_MISSED p + 1 ∧ u = { s with regs := u.regs, fport := u.fport }
        (s.rd Reg.FL_NODE_MISSES p a < 2 → ∃ t, exec (.replyMissed p a) s = .next t ∧ gone t ∧ t.rd Reg.FL_NODE_MISSES p a = s.rd Reg.FL_NODE_MISSES p a + 1) ∧
        (2 ≤ s.rd Reg.FL_NODE_MISSES p a → ∃ t u : State, exec (.replyMissed p a) s = .next t ∧ gone u ∧
          t = ((u.boomNode p a).raise Src.flNodeBoom (0xF0 + p) a).flClose p a (s.now + 1)))) ∧
     (s.flRunning p = true → s.Room F →
       (∀ fr typ pay, flParse fr = some (a, Fl.hello, typ, pay) → pay.length = 6 → s.flInSlot p (s.flSlots p - 1) = true → (let id := bytesAt pay 0 4
         let tally := bytesAt pay 4 2
         let offer := s.rd Reg.FL_TALLY_NEXT p
         (x.roll = some (a, true) → id = n.id → tally = offer → offer < 2 ^ 16 → s.rd Reg.FL_STAT_ADMITTED p + 1 < 2 ^ 8 → ∃ t, exec (.hello p fr) s = .next t ∧ t.on Reg.FL_NODE_ADMITTED p a = true ∧
           t.rd Reg.FL_NODE_TALLY_TALLY p a = offer ∧ t.rd Reg.FL_NODE_MISSES p a = 0 ∧ t.rd Reg.FL_TALLY_NEXT p = (if offer = 65535 then 1 else offer + 1) ∧
           t.rd Reg.FL_STAT_ADMITTED p = s.rd Reg.FL_STAT_ADMITTED p + 1 ∧ t.rd Reg.FL_NODE_ID_UNIT_ID p a = id ∧ t.fnodes p a = { n with admitAt := none, sent := none } ∧
           t.fports p = { x with roll := none } ∧ s.Told t F (mkRec 7 St.ok (p + 4 * a + 2 ^ 10) 0 offer) ∧ t = { s with regs := t.regs, eq := t.eq, fport := t.fport, fnode := t.fnode }) ∧
         (x.roll = some (a, true) → id ≠ n.id → n.wrong.contains id = false → ∃ t, exec (.hello p fr) s = .next t ∧ t.fnodes p a = { n with wrong := n.wrong ++ [id] } ∧
           t.fports p = { x with roll := none } ∧ s.Told t F (mkRec 7 St.mismatch (p + 4 * a + 2 ^ 10 * 2) 0 id) ∧ t = { s with regs := t.regs, eq := t.eq, fport := t.fport, fnode := t.fnode } ∧
           State.RegsBut s t [Reg.FL_NODE_ID_UNIT_ID.key p a]) ∧
         (x.roll = some (a, false) → s.rd Reg.FL_CNT2_STRANGERS p + 1 < 2 ^ 16 → ∃ t u : State, exec (.hello p fr) s = .next t ∧ t = u.raise Src.flStranger (0xF0 + p) a ∧
           u.rd Reg.FL_CNT2_STRANGERS p = s.rd Reg.FL_CNT2_STRANGERS p + 1 ∧ s.Told u F (mkRec 7 St.ok (p + 4 * a + 2 ^ 10 * 3) 0 id) ∧ u = { s with regs := u.regs, eq := u.eq, fport := u.fport }))))))

/-- A LIGHTER_COPY at the front of ring n. One that R346's checks refuse completes with BAD_DESC; one whose destination meets a share that a live crossing names is refused; a copy of nothing without APPEND completes at once with its seed as the CRC (R346, R347). Any other starts: behind a busy lighter it waits, and QUEUED counts it; on a free lighter, with the Hold not gated, its function not in reset, a master and with a tag free, a copy from host memory makes the lighter busy and issues the first read, of up to Max Read Request Size (R27, R346, R350). The running transfer x of lighter l, ascending, from host memory, with a read in flight. Its bytes go into the Hold behind those before, are counted, and the CRC register runs over them; with more to come the next read is issued, and with the last block written it waits for the acknowledgement (R346–R348). Acknowledged, its descriptor completes OK with the CRC and the bytes moved, and the lighter is free (R347–R349). A read that fails before anything was written is counted and ends it with ECC or TIMEOUT and nothing moved (R346). -/
def Obligations.CopiesStartMoveAndEnd : Prop :=
  (∀ (n : Nat) (d : Desc) (s : State), n < 64 → s.Ready n 0xA0 d →
    (let x := xferOf (s.jobOf n d)
     let l := dget d 16 0 5
     (xferOk d x = false → s.Room (s.rd Reg.SQ_CFG_EQ n) → ∃ t, exec (.lighterCopy n) s = .next t ∧ s.Done t n d St.badDesc 0 ∧ t = { s with sq := t.sq, eq := t.eq }) ∧
     (xferOk d x = true →
       (s.shareHit x = true → s.Room (s.rd Reg.SQ_CFG_EQ n) → ∃ t, exec (.lighterCopy n) s = .next t ∧ s.Done t n d St.refusedState 0 ∧ t = { s with sq := t.sq, eq := t.eq }) ∧
       (s.shareHit x = false →
         (x.len = 0 → x.append = false → x.irq = false → s.Room (s.rd Reg.SQ_CFG_EQ n) → ∃ t, exec (.lighterCopy n) s = .next t ∧ s.Done t n d St.ok (dget d 44 0 32) ∧
           t.rd Reg.LT_RCRC_CRC l = dget d 44 0 32 ∧ t = { s with regs := t.regs, sq := t.sq, eq := t.eq } ∧ State.RegsBut s t [Reg.LT_RCRC_CRC.key l 0]) ∧
         (0 < x.len → s.on Reg.LT_STAT_BUSY l = true → ∃ t, exec (.lighterCopy n) s = .next t ∧ s.Started t n ∧ t.xfers l = s.xfers l ++ [x] ∧
           t.rd Reg.LT_STAT_QUEUED l = min 255 (s.xfers l).length ∧ t = { s with regs := t.regs, sq := t.sq, xfer := t.xfer } ∧ State.RegsBut s t [Reg.LT_STAT_QUEUED.key l 0]) ∧
         (0 < x.len → s.on Reg.LT_STAT_BUSY l = false → s.xfers l = [] → x.srcSp = 0 → (s.pf (s.ownSq n)).bme = true → (s.pf (s.ownSq n)).flr = false → (x.dstSp = 1 → s.holdGated = false) → s.readsOut < s.tagLimit (s.ownSq n) →
           (let k := min (max 1 (s.maxRead (s.ownSq n))) x.len
            ∃ t, exec (.lighterCopy n) s = .next t ∧ s.Started t n ∧ t.on Reg.LT_STAT_BUSY l = true ∧ t.rd Reg.LT_STAT_QUEUED l = 0 ∧ t.on Reg.LT_STAT_DESCENDING l = x.desc ∧
             t.xfers l = [{ x with reading := some k, issuedAt := s.now, blk := s.maxRead (s.ownSq n) }] ∧
             t.out = Out.hostRead (x.src + (if x.desc then x.len - k else 0)) k :: s.out ∧
             t = { s with regs := t.regs, sq := t.sq, xfer := t.xfer, out := t.out })))))) ∧
  (∀ (l : Nat) (x : Xfer) (s : State), 14 ≤ l → l < 32 → s.on Reg.LT_STAT_BUSY l = true → x.desc = false → x.append = false → x.irq = false → x.fail = none →
    (let ends (t : State) (status moved : Nat) : Prop := t.xfers l = [] ∧ t.on Reg.LT_STAT_BUSY l = false ∧ t.rd Reg.LT_RCRC_CRC l = x.crc % 2 ^ 32 ∧
       (t.sqs x.job.ring).running = (s.sqs x.job.ring).running - 1 ∧
       (t.eqs x.job.eq).share = (s.eqs x.job.eq).share ++ (if dQuiet x.job.d = true ∧ status = St.ok then [] else [s.stamped (completionRec x.job status (x.crc + 2 ^ 32 * moved))]) ∧
       t = { s with regs := t.regs, xfer := t.xfer, sq := t.sq, eq := t.eq }
     (∀ (bs : List Byte) (xs : List Xfer), s.xfers l = x :: xs → x.reading = some bs.length → 0 < bs.length → bs.length % 32 = 0 → x.flush = false → x.srcSp = 0 → x.dstSp = 1 → s.Calm →
       s.rd Reg.LT_BYTES l + bs.length < 2 ^ 64 →
       (let moved (t : State) : Prop := (∀ i, i < bs.length / 32 → tget 0 t.hold ((x.dst + x.done) / 32 + i) = (entries 32 (bs.length / 32) bs).getD i 0) ∧
          (∀ w, w < (x.dst + x.done) / 32 ∨ (x.dst + x.done) / 32 + bs.length / 32 ≤ w → tget 0 t.hold w = tget 0 s.hold w) ∧ t.rd Reg.LT_BYTES l = s.rd Reg.LT_BYTES l + bs.length ∧
          t = { s with regs := t.regs, hold := t.hold, flips := t.flips, poison := t.poison, xfer := t.xfer, out := t.out } ∧ State.RegsBut s t [Reg.LT_BYTES.key l 0]
        let y : Xfer := { x with done := x.done + bs.length, reading := none, crc := crc32cRun x.crc bs }
        (x.done + bs.length = x.len → ∃ t, exec (.lighterReadComplete l bs) s = .next t ∧ moved t ∧ t.xfers l = { y with flush := true } :: xs ∧ t.out = s.out) ∧
        (x.done + bs.length < x.len → (s.pf x.job.pf).bme = true → (s.putXfer l { x with reading := none }).readsOut < s.tagLimit x.job.pf → ∃ t, exec (.lighterReadComplete l bs) s = .next t ∧ moved t ∧
          (let k := min (max 1 x.blk) (x.len - (x.done + bs.length))
           t.xfers l = { y with reading := some k, issuedAt := s.now } :: xs ∧ t.out = Out.hostRead (x.src + (x.done + bs.length)) k :: s.out)))) ∧
     (s.xfers l = [x] → s.Room x.job.eq →
       (x.flush = true → ∃ t, exec (.lighterTransferComplete l) s = .next t ∧ ends t St.ok (if x.moves then x.done else 0)) ∧
       (∀ how, x.reading ≠ none → x.flush = false → x.done = 0 → x.appended = false → s.rd Reg.LT_ERR_READ_FAIL l + 1 < 2 ^ 16 → ∃ t, exec (.lighterReadFail l how) s = .next t ∧
         ends t (match how with | .poisoned => St.ecc | .timeout => St.timeout | .ur => St.timeout | .ca => St.timeout) 0 ∧
         t.rd Reg.LT_ERR_READ_FAIL l = s.rd Reg.LT_ERR_READ_FAIL l + 1))))

/-- Where the access is granted, CHART_ENABLE of a chart whose EN is 0 sets EN, starts SEQ at 0 and writes it where Bus Master Enable lets it; on one enabled it does nothing (R52, R391). When no chart is due CHART_WRITE does nothing. At a whole millisecond not yet charted, with EN 1, Bus Master Enable 1 and outside Moored, the next chart is written into the buffer of its number's parity and SEQ after it at CHART_BASE, and crossings that have ended release their slots (R52, R53, R55). Disabled, it writes nothing, and the slots are released. -/
def Obligations.TheChartIsWritten : Prop :=
  ∀ s : State,
    (let bme := (s.pf (s.ownBlk 2)).bme
     (∀ src, s.Granted src 0x5808 →
       (s.on Reg.CHART_CTL_EN = true → exec (.chartEnable src) s = .next s) ∧
       (s.on Reg.CHART_CTL_EN = false → ∃ t, exec (.chartEnable src) s = .next t ∧ t.on Reg.CHART_CTL_EN = true ∧ t.rd Reg.CHART_STAT_SEQ_LO = 0 ∧ t.chartSeq = 0 ∧ t.chartWant = false ∧
         t.out = (if bme then Out.chartSeq s.chartBase 0 :: s.out else s.out) ∧ t = { s with regs := t.regs, chartSeq := t.chartSeq, chartWant := t.chartWant, out := t.out } ∧
         State.RegsBut s t [Reg.CHART_CTL_EN.key 0 0, Reg.CHART_STAT_SEQ_LO.key 0 0])) ∧
     (s.chartWant = false → s.now % 1000000 ≠ 0 ∨ s.chartMs = s.now / 1000000 + 1 → exec .chartWrite s = .next s) ∧
     (s.now % 1000000 = 0 → s.chartMs ≠ s.now / 1000000 + 1 →
       (let u : State := { s with chartMs := s.now / 1000000 + 1, chartWant := false }
        let q := s.chartSeq + 1
        (s.on Reg.CHART_CTL_EN = true → bme = true → s.rd Reg.PWR_STAT_MODE ≠ 2 → ∃ t, exec .chartWrite s = .next t ∧ 
          t.out = Out.chartSeq s.chartBase q :: Out.chart (s.chartBase + 0x1000 * (1 + q % 2)) (u.chartOf q).layout :: s.out ∧
          t.chartSeq = q ∧ t.rd Reg.CHART_STAT_SEQ_LO = q % 2 ^ 32 ∧ t.crossings = s.crossings.filter (fun c => decide (c.state ≤ 3)) ∧
          t = { u with regs := t.regs, chartSeq := t.chartSeq, out := t.out, crossings := t.crossings } ∧ State.RegsBut s t [Reg.CHART_STAT_SEQ_LO.key 0 0]) ∧
        (s.on Reg.CHART_CTL_EN = false → exec .chartWrite s = .next { u with crossings := s.crossings.filter fun c => decide (c.state ≤ 3) }))))

/-- A link trains to no rate, width or payload size but those of R27. One that trains to the rate, width and payload size it has changes nothing. Trained to another, it is shown in HOSTIF_LINK with the budget of R35, one record goes to the link's event ring with the old and new values, and vector 50 is signalled (R33, R35). A link that goes down shows rate, width and budget 0 in the same way, and is a hot reset (R33, R58). FLR_REQUEST asks the running transfers that use host memory for PF0 to end, and nothing else changes (R56, R351). No crossing boards. The reset edge waits while such a transfer runs; then PF0's configuration, its submission rings with their registers and waiting descriptors, and its event rings' registers are at reset, its records wait in holdover, and PF1's rings stay (R56). A reset of PF1 does the same for PF1, at once where nothing is to be drained (R57). A hot reset resets both functions (R58). -/
def Obligations.TheLinkTrainsAndFunctionsAreReset : Prop :=
  (∀ (rate width mps : Nat) (s : State),
    (let r := s.rd Reg.HOSTIF_LINK_RATE
     let w := s.rd Reg.HOSTIF_LINK_WIDTH
     let m := s.rd Reg.HOSTIF_LINK_MPS
     let L := s.rd Reg.RING_EVT_ROUTE_LINK
     let shows (u : State) (rate width mps : Nat) : Prop := u.rd Reg.HOSTIF_LINK_RATE = rate ∧ u.rd Reg.HOSTIF_LINK_WIDTH = width ∧ u.rd Reg.HOSTIF_LINK_MPS = mps ∧
       u.rd Reg.HOSTIF_BUDGET_CAP_CAP = linkCap rate width mps ∧
       s.Told u L (mkRec 5 St.ok 0 0 (r + 2 ^ 3 * rate + 2 ^ 6 * w + 2 ^ 9 * width + 2 ^ 12 * m + 2 ^ 14 * mps + 2 ^ 16 * s.rd Reg.HOSTIF_BUDGET_CAP_CAP + 2 ^ 32 * linkCap rate width mps)) ∧
       u = { s with regs := u.regs, eq := u.eq, pf0 := u.pf0, out := u.out } ∧
       State.RegsBut s u [Reg.HOSTIF_LINK_RATE.key 0 0, Reg.HOSTIF_LINK_WIDTH.key 0 0, Reg.HOSTIF_LINK_MPS.key 0 0, Reg.HOSTIF_BUDGET_CAP_CAP.key 0 0]
     (6 ≤ rate ∨ 3 ≤ mps ∨ 0 < rate ∧ width ∉ [1, 2, 4] → exec (.linkChange rate width mps) s = .next s) ∧
     (0 < rate → rate < 6 → mps < 3 → width = 1 ∨ width = 2 ∨ width = 4 →
       (r = rate → w = width → m = mps → exec (.linkChange rate width mps) s = .next s) ∧
       (¬(r = rate ∧ w = width ∧ m = mps) → s.Room L → ∃ t, exec (.linkChange rate width mps) s = .next t ∧ shows t rate width mps)) ∧
     (mps < 3 → r ≠ 0 → s.Room L → ∃ t u : State, exec (.linkChange 0 width mps) s = .next t ∧ t = u.hotReset ∧ shows u 0 0 0))) ∧
  (∀ s : State,
    (let clear : PfSt := ⟨false, false, 0, false, s.now, false⟩
     let reset (t : State) (p : Nat) : Prop := t.pf p = clear ∧
       (∀ n, n < 64 → s.ownSq n = p → t.on Reg.SQ_CTL_EN n = false ∧ t.rd Reg.SQ_HEAD_HEAD n = 0 ∧ (t.sqs n).accepted = [] ∧ (t.sqs n).part = []) ∧
       (∀ n, n < 16 → s.ownEq n = p → t.on Reg.EQ_CTL_EN n = false ∧ (t.eqs n).held = true ∧ (t.eqs n).unsig = 0)
     let keeps (t : State) (p : Nat) : Prop := t.pf p = s.pf p ∧ (∀ n, n < 64 → s.ownSq n = p → t.rd Reg.SQ_CTL_EN n = s.rd Reg.SQ_CTL_EN n ∧ (t.sqs n).accepted = (s.sqs n).accepted) ∧
       (∀ n, n < 16 → s.ownEq n = p → t.rd Reg.EQ_CTL_EN n = s.rd Reg.EQ_CTL_EN n ∧ t.eqs n = s.eqs n)
     (∃ t, exec .flrRequest s = .next t ∧ t.pf0 = { s.pf0 with flr := true } ∧ t = { s with pf0 := t.pf0, xfer := t.xfer } ∧
       ∀ l x, 14 ≤ l → l < 32 → s.xfer? l = some x → Xfer.hostOf 0 x = true → x.drainAt = none → t.xfer? l = some { x with drainAt := some s.now }) ∧
     ((∀ c ∈ s.crossings, c.state ≠ 1) →
       (s.pf0.flr = true → s.pf1.flr = false →
         (s.flrReady 0 = false → exec .flrResetEdge s = .next s) ∧
         (s.flrReady 0 = true → ∃ t, exec .flrResetEdge s = .next t ∧ reset t 0 ∧ keeps t 1 ∧ bitOf (t.rd Reg.GEN_RESET_CAUSE_CAUSE) (if s.pf0.hot then 2 else 3) = true)) ∧
       (s.pf0.flr = false → s.pf1.flr = false → s.draining (Xfer.hostOf 1) = false → ∃ t, exec .flrPf1 s = .next t ∧ reset t 1 ∧ keeps t 0 ∧
         bitOf (t.rd Reg.GEN_RESET_CAUSE_CAUSE) (if s.pf1.hot then 2 else 4) = true) ∧
       (s.flrReady 0 = true → s.flrReady 1 = true → ∃ t, exec .hotReset s = .next t ∧ reset t 0 ∧ reset t 1 ∧ bitOf (t.rd Reg.GEN_RESET_CAUSE_CAUSE) 2 = true))))

/-- IMAGE_STAGE of well-formed fields, with no switch pending, of a function that may read host memory: the bytes read stand in the idle bank; an image that verifies is staged with its version, any other is not and completes with its result code, a failed read with ECC or TIMEOUT (R355, R359). IMAGE_SWITCH waits where an image is staged, else is refused (R360). The handover waits while a crossing boards; then the banks exchange roles, the ferryman is reset, and it has 5 ms to arm the watchdog; past that the banks are exchanged back and the watchdog lapses, with TIMEOUT (R360, R361). A switch not taken in time completes with TIMEOUT (R360). FLASH_WRITE of a staged image copies the idle bank into a slot where the other verifies, else is refused (R361). -/
def Obligations.ImagesAreStagedAndSwitched : Prop :=
  (∀ (n : Nat) (d : Desc) (s : State), n < 64 → s.boot.running = true → s.Room (s.rd Reg.SQ_CFG_EQ n) →
    (s.Ready n 0xC0 d → dget d 24 0 6 = 0 → dget d 32 0 32 ≤ 528704 → dCrx d = 0 → dZero d 16 24 = true → dZero d 36 64 = true → s.boot.switch = none → s.Calm →
      (s.pf (s.ownSq n)).flr = false → (s.pf (s.ownSq n)).bme = true →
      (∀ bs, (let img := bs.take (dget d 32 0 32)
        let r := s.verify img true
        ∃ t, exec (.imageStage n (.ok bs)) s = .next t ∧ t.idleBank = img ∧ t.on Reg.GEN_BOOT_STAT_STAGED = decide (r = 0) ∧
          t.rd Reg.GEN_IMAGE_STAGED_VERSION = (if r = 0 then imgNat 0 img 8 4 % 2 ^ 32 else 0) ∧
          s.Done t n d (if r = 0 then St.ok else if r = 5 ∨ r = 6 ∨ r = 7 ∨ r = 0x0B then St.locked else St.badDesc) r)) ∧
      ∀ how, ∃ t, exec (.imageStage n (.fail how)) s = .next t ∧ t.on Reg.GEN_BOOT_STAT_STAGED = false ∧ s.Done t n d (if how = .poisoned then St.ecc else St.timeout) 0) ∧
    (s.Ready n 0xC1 d → dZero d 20 64 = true → s.boot.switch = none →
      (s.on Reg.GEN_BOOT_STAT_STAGED = true → ∃ t, exec (.imageSwitch n) s = .next t ∧ s.Started t n ∧
        t.boot = { s.boot with switch := some (s.jobOf n d, s.now + 1000000 * (if dget d 16 0 32 = 0 then 10000 else dget d 16 0 32)) } ∧ t = { s with sq := t.sq, boot := t.boot }) ∧
      (s.on Reg.GEN_BOOT_STAT_STAGED = false → ∃ t, exec (.imageSwitch n) s = .next t ∧ s.Done t n d St.refusedState 0 ∧ t = { s with sq := t.sq, eq := t.eq })) ∧
    (s.Ready n 0xC2 d → dget d 16 1 7 = 0 → dZero d 17 64 = true → ∀ inTime,
      (let other := if dget d 16 0 1 = 0 then s.flash1 else s.flash0
       let refused (t : State) : Prop := s.Done t n d St.refusedState 0 ∧ t = { s with sq := t.sq, eq := t.eq }
       (s.on Reg.GEN_BOOT_STAT_STAGED = true → ∃ t, exec (.flashWrite n inTime) s = .next t ∧ (if s.verify other false = 0 then
         s.Done t n d (if inTime then St.ok else St.timeout) 0 ∧ (if dget d 16 0 1 = 0 then t.flash1 else t.flash0) = other ∧
         (inTime = true → (if dget d 16 0 1 = 0 then t.flash0 else t.flash1) = s.idleBank) ∧ t = { s with sq := t.sq, eq := t.eq, flash0 := t.flash0, flash1 := t.flash1, free := t.free }
        else refused t)) ∧
       (s.on Reg.GEN_BOOT_STAT_STAGED = false → ∃ t, exec (.flashWrite n inTime) s = .next t ∧ refused t)))) ∧
  ∀ s : State,
    (∀ j t0, s.boot.switch = some (j, t0) →
      ((∃ c ∈ s.liveCrx, c.state = 1) → exec .imageHandover s = .next s) ∧
      (s.boot.running = true → (∀ c ∈ s.liveCrx, c.state ≠ 1) → s.layups = [] → (∀ n, n < 6 → (s.bls n).wear = none) → s.rd Reg.GEN_BOOT_STAT_BANK < 2 → ∃ t, exec .imageHandover s = .next t ∧
        t.rd Reg.GEN_BOOT_STAT_BANK = 1 - s.rd Reg.GEN_BOOT_STAT_BANK ∧ t.rd Reg.GEN_IMAGE_VERSION = imgNat 0 s.idleBank 8 4 % 2 ^ 32 ∧ t.on Reg.GEN_BOOT_STAT_STAGED = false ∧
        t.boot = { s.boot with switch := none, running := false, armBy := some (s.now + 5000000), armJob := some j } ∧ t = { s with regs := t.regs, boot := t.boot, lbDue := t.lbDue }) ∧
      (t0 ≤ s.now → s.Room j.eq → ∃ t, exec .imageSwitchTimeout s = .next t ∧ t.boot = { s.boot with switch := none } ∧ (t.sqs j.ring).running = (s.sqs j.ring).running - 1 ∧
        s.Told t j.eq (completionRec j St.timeout 0) ∧ t = { s with sq := t.sq, eq := t.eq, boot := t.boot })) ∧
    (∀ j t0, s.boot.armBy = some t0 → s.boot.armJob = some j → t0 ≤ s.now → ∃ t u : State, exec .handoverArmTimeout s = .next t ∧ t = u.ferryLapse.complete j St.timeout ∧
      u.rd Reg.GEN_BOOT_STAT_BANK = 1 - s.rd Reg.GEN_BOOT_STAT_BANK ∧ u.boot = { s.boot with armBy := none, armJob := none } ∧ u = { s with regs := u.regs, boot := u.boot })

/-- A well-formed UNIT_LAYUP of a unit of the sender's function: of a unit laid up already it completes OK; otherwise without FORCE it waits, bounded by its TIMEOUT (R362, R363); with FORCE, an encoder port that feeds no running drive is laid up at once (R364). One of another function's unit lays nothing up (R30). Lay-up k waits while a live crossing uses its unit (R363); then a drive that runs is laid up, stops, and is on its way to rest (R364). At rest, the lay-up is reported and its descriptor completes OK (R364, R366). Past its bound it is given up with TIMEOUT (R363). A well-formed UNIT_READMIT of a unit of the sender's function, at the front of ring n: refused for a unit that is not laid up; refused with the lowest live source charged to it where there is one; otherwise a drive channel or an encoder port is neither laid up nor boomed, and a heater that is enabled and off runs again (R362, R365). -/
def Obligations.UnitsLeaveAndReturnToService : Prop :=
  ((∀ (n : Nat) (d : Desc) (s : State), n < 64 → s.boot.running = true → s.Ready n 0xC4 d → unitOk d = true → dget d 18 1 7 = 0 → dZero d 19 20 = true → dZero d 24 64 = true →
    (let u := dget d 16 0 8
     let a := dget d 17 0 8
     (s.unitOwned (s.jobOf n d) u = false → ∃ t u : State, exec (.unitLayup n) s = .next t ∧
       t = (u.raise Src.pfAccess Src.noUnit 0 (s.takeFree (2 ^ 20)).1).complete (s.jobOf n d) St.badDesc ∧ u = { s with sq := u.sq, free := u.free } ∧ (u.sqs n).accepted = (s.sqs n).accepted.tail ∧
       t.laid = s.laid ∧ t.nodeLaid = s.nodeLaid ∧ t.layups = s.layups) ∧
     (s.unitOwned (s.jobOf n d) u = true →
       (s.outOf u a = true → s.Room (s.rd Reg.SQ_CFG_EQ n) → ∃ t, exec (.unitLayup n) s = .next t ∧ s.Done t n d St.ok 0 ∧ t = { s with sq := t.sq, eq := t.eq }) ∧
       (s.outOf u a = false → dget d 18 0 1 = 0 → s.brokenOf u a = false → ∃ t, exec (.unitLayup n) s = .next t ∧ s.Started t n ∧
         t.layups = s.layups ++ [⟨s.jobOf n d, u, a, false, s.now + 1000000 * (if dget d 20 0 32 = 0 then 10000 else dget d 20 0 32), false⟩] ∧ t = { s with sq := t.sq, layups := t.layups }) ∧
       (s.outOf u a = false → dget d 18 0 1 = 1 → 38 ≤ u → u < 62 → s.layupRefused u = false → ∃ t, exec (.unitLayup n) s = .next t ∧ t.isLaid u = true ∧ (t.sqs n).accepted = (s.sqs n).accepted.tail ∧
         (t.sqs n).running = (s.sqs n).running)))) ∧
  ∀ (k : Nat) (l : Layup) (s : State), s.layups[k]? = some l →
    (let rest := s.layups.filter fun x => x.job != l.job
     (l.applied = false → s.unitUsed l.unit l.node = true → exec (.layupApply k) s = .next s) ∧
     (l.applied = false → s.boot.running = true → s.unitUsed l.unit l.node = false → 6 ≤ l.unit → l.unit < 22 → s.isBoomed l.unit = false → s.dst (l.unit - 6) = Dst.run →
       ∃ t, exec (.layupApply k) s = .next t ∧ t.layups = rest ++ [{ l with applied := true }] ∧ t.isLaid l.unit = true ∧ t.dst (l.unit - 6) = Dst.stopping ∧
         t.drvs (l.unit - 6) = { s.drvs (l.unit - 6) with offAfter := true, haltAt := some s.now } ∧
         t.mots (l.unit - 6) = { s.mots (l.unit - 6) with stop := some ((s.mots (l.unit - 6)).stop.getD 4) } ∧
         t = { s with regs := t.regs, laid := t.laid, drv := t.drv, mot := t.mot, layups := t.layups } ∧
         State.RegsBut s t [Reg.DRV_STAT_STATE.key (l.unit - 6) 0]) ∧
     (l.applied = true → s.boot.running = true → 6 ≤ l.unit →
       (s.atRest l.unit l.node = false → exec (.laidUp k) s = .next s) ∧
       (s.atRest l.unit l.node = true → s.Room (s.rd Reg.RING_EVT_ROUTE_UNIT) → s.Room l.job.eq → s.rd Reg.RING_EVT_ROUTE_UNIT ≠ l.job.eq → dQuiet l.job.d = false → ∃ t, exec (.laidUp k) s = .next t ∧
         t.layups = rest ∧ s.Told t (s.rd Reg.RING_EVT_ROUTE_UNIT) (mkRec 4 St.ok (l.unit + 0x1300) 0 (l.node + 2 ^ 8 + (if l.force then 2 ^ 12 else 0))) ∧
         s.Told t l.job.eq (completionRec l.job St.ok 0) ∧ t = { s with sq := t.sq, eq := t.eq, layups := t.layups })) ∧
     (l.applied = false → l.deadline ≤ s.now → s.Room l.job.eq → ∃ t, exec (.layupTimeout k) s = .next t ∧ t.layups = rest ∧ s.Told t l.job.eq (completionRec l.job St.timeout 0) ∧
       t = { s with sq := t.sq, eq := t.eq, layups := t.layups }))) ∧
  (∀ (n : Nat) (d : Desc) (s : State), n < 64 → s.boot.running = true → s.Ready n 0xC5 d → unitOk d = true → dZero d 18 64 = true → s.unitOwned (s.jobOf n d) (dget d 16 0 8) = true →
    (let u := dget d 16 0 8
     let a := dget d 17 0 8
     (s.Room (s.rd Reg.SQ_CFG_EQ n) →
       (s.outOf u a = false → ∃ t, exec (.unitReadmit n) s = .next t ∧ s.Done t n d St.refusedState 0 ∧ t = { s with sq := t.sq, eq := t.eq }) ∧
       (s.outOf u a = true → ∀ src, s.liveOf u a = some src → ∃ t, exec (.unitReadmit n) s = .next t ∧ s.Done t n d St.refusedState src ∧ t = { s with sq := t.sq, eq := t.eq })) ∧
     (s.outOf u a = true → s.liveOf u a = none → (6 ≤ u ∧ u < 22) ∨ (38 ≤ u ∧ u < 62) ∨ (110 ≤ u ∧ u < 114) → ∃ t, exec (.unitReadmit n) s = .next t ∧ t.isLaid u = false ∧ t.isBoomed u = false ∧
       (t.sqs n).accepted = (s.sqs n).accepted.tail ∧ (t.sqs n).running = (s.sqs n).running ∧
       (110 ≤ u → u < 114 → s.lon Reg.HTR_CFG_EN (u - 110) = true → s.tst (u - 110) = Tst.off → t.tst (u - 110) = Tst.run))))

/-- A LOGBOOK_WRITE inside the application area, of a function that may read host memory, puts the words read there and completes OK; one below it is BAD_DESC (R370). The running ferryman adds PENDING to the crossing counter in a further word and clears PENDING (R368). A journal entry goes behind the newest with the next SEQ, its last words first and its first word last (R369). A write of GEN_LB_ADDR, its block's stage free, shows the word at that address in GEN_LB_DATA (R370). -/
def Obligations.TheLogBookIsWritten : Prop :=
  (∀ (n : Nat) (d : Desc) (s : State), n < 64 → s.boot.running = true → s.Ready n 0xC8 d → s.Room (s.rd Reg.SQ_CFG_EQ n) → dget d 16 0 32 % 8 = 0 → dget d 20 0 32 % 8 = 0 →
    dget d 20 0 32 ≤ 65536 → dget d 24 0 3 = 0 → dCrx d = 0 → dZero d 32 64 = true →
    (let off := dget d 16 0 32
     let len := dget d 20 0 32
     (off < 0x10000 → ∀ res, ∃ t, exec (.logbookWrite n res) s = .next t ∧ s.Done t n d St.badDesc 0 ∧ t = { s with sq := t.sq, eq := t.eq }) ∧
     (0x10000 ≤ off → off + len ≤ 0x80000 → s.Calm → (s.pf (s.ownSq n)).flr = false → (s.pf (s.ownSq n)).bme = true → ∀ bs, ∃ t, exec (.logbookWrite n (.ok bs)) s = .next t ∧ s.Done t n d St.ok 0 ∧
       (∀ i, i < len / 8 → tget 0 t.logbook (off / 8 + i) = (entries 8 (len / 8) bs).getD i 0) ∧ (∀ w, w < off / 8 ∨ off / 8 + len / 8 ≤ w → tget 0 t.logbook w = tget 0 s.logbook w)))) ∧
  (∀ s : State, s.boot.running = true → (s.lbCount 0 64).1 + s.rd Reg.GEN_LB_STAT_PENDING < 2 ^ 48 → ∃ t, exec .crossingCounterWrite s = .next t ∧ t.rd Reg.GEN_LB_STAT_PENDING = 0 ∧
    (t.lbCount 0 64).1 = (s.lbCount 0 64).1 + s.rd Reg.GEN_LB_STAT_PENDING ∧ t.lbDue = [] ∧ t = { s with regs := t.regs, logbook := t.logbook, lbDue := t.lbDue, out := t.out } ∧
    State.RegsBut s t [Reg.GEN_LB_STAT_PENDING.key 0 0]) ∧
  (∀ (kind data : Nat) (s : State), s.boot.running = true → 0 < kind → kind ≤ 6 → s.lbDue = [] →
    (let i := match s.journalNewest with | none => 0 | some (i, _) => (i + 1) % 2016
     let q := match s.journalNewest with | none => 1 | some (_, q) => (q + 1) % 2 ^ 32
     let w := 128 + 4 * i
     let w0 := q + 2 ^ 32 * ((s.lbCount 64 8).1 % 2 ^ 32)
     let w2 := kind + 2 ^ 8 * (data % 2 ^ 56)
     let w3 := data % 2 ^ 120 / 2 ^ 56
     ∃ t, exec (.journalEntryWrite kind data) s = .next t ∧ tget 0 t.logbook w = w0 ∧ tget 0 t.logbook (w + 1) = s.stamp ∧ tget 0 t.logbook (w + 2) = w2 ∧ tget 0 t.logbook (w + 3) = w3 ∧
       (∀ v, v < w ∨ w + 4 ≤ v → tget 0 t.logbook v = tget 0 s.logbook v) ∧
       t.out = Out.logbook w w0 :: Out.logbook (w + 1) s.stamp :: Out.logbook (w + 2) w2 :: Out.logbook (w + 3) w3 :: s.out ∧ t = { s with logbook := t.logbook, out := t.out })) ∧
  ∀ (src : Port) (w : Nat) (s : State), s.Granted src 0x800 → tget none s.post 0 = none → ∃ t, exec (.lbAddrWrite src w) s = .next t ∧ t.rd Reg.GEN_LB_ADDR_WORD = w % 2 ^ 16 ∧
    t.rd Reg.GEN_LB_DATA = tget 0 s.logbook (w % 65536) % 2 ^ 64 ∧ t = { s with regs := t.regs } ∧ State.RegsBut s t [Reg.GEN_LB_ADDR_WORD.key 0 0, Reg.GEN_LB_DATA.key 0 0]

/-- An aligned access of 4 or 8 bytes whose words hold no field and lie outside the microstep windows (R240), through a port that R30 and R353 let reach it: the read completes with zero and changes nothing but what a read of a posting stage's block notes there (R63); the write, of any value, leaves the state as it is. In neither case is a fault raised (R60). -/
def Obligations.UndefinedOffsetsAnswerZero : Prop :=
  ∀ (src : Port) (off size v : Nat) (s : State), s.boot.rstLow = false → size = 4 ∨ size = 8 → off % size = 0 → off < 0x100000 → s.Granted src off →
    hitsAt off = [] → off < 0x52000 ∨ 0x54000 ≤ off → (size = 8 → hitsAt (off + 4) = []) →
    (∃ t, exec (.registerWrite src 0 false off size v) s = .next t ∧ t = { s with post := t.post, out := .readDone (some 0) :: s.out }) ∧
    exec (.registerWrite src 0 true off size v) s = .next s

/-- On a quadrature port in service whose accepted levels of A and B both change in one sample, ENCODER_COUNT completes: the count does not change, ILLEGAL increments (up to its largest value), and the port raises ENC_ILLEGAL; before the reaction to it nothing else changes but the accepted levels (R250). -/
def Obligations.IllegalTransitionsCountNothing : Prop :=
  ∀ (p : Nat) (s : State), p < 24 → s.lv Reg.ENC_CFG_MODE p = 1 → s.encLive p = true → s.rd Reg.ENC_ERR1_ILLEGAL p < 2 ^ 16 →
    ∃ t u : State, exec (.encoderCount p (List.replicate (s.lv Reg.ENC_CFG_FILT p + 1) (!(s.encs p).a)) (List.replicate (s.lv Reg.ENC_CFG_FILT p + 1) (!(s.encs p).b))) s = .next t ∧ t = u.raise Src.encIllegal (38 + p) ∧
      u.rd Reg.ENC_CNT p = s.rd Reg.ENC_CNT p ∧ u.rd Reg.ENC_ERR1_ILLEGAL p = min (2 ^ 16 - 1) (s.rd Reg.ENC_ERR1_ILLEGAL p + 1) ∧
      u.encs p = { s.encs p with a := !(s.encs p).a, b := !(s.encs p).b } ∧ u = { s with regs := u.regs, enc := u.enc } ∧
      State.RegsBut s u [Reg.ENC_ERR1_ILLEGAL.key p 0]

/-- For positions a and b of 40 bits, with d their difference modulo 2^40: the comparisons that the meanings use say that a is ahead of b exactly when d is 1 or more and less than 2^39, that a has reached b (is at it or ahead) exactly when d is less than 2^39, and so is behind exactly when d is 2^39 or more; and a is at b exactly when d is 0 (R77). -/
def Obligations.PositionsCompareModuloTheirWrap : Prop :=
  ∀ a b : Nat, a < 2 ^ 40 → b < 2 ^ 40 →
    (let d := ((a : Int) - b) % 2 ^ 40
     (posAhead a b = true ↔ 1 ≤ d ∧ d < 2 ^ 39) ∧ (posReached a b = false ↔ 2 ^ 39 ≤ d) ∧ (posReached a b = true ↔ d = 0 ∨ (1 ≤ d ∧ d < 2 ^ 39)) ∧ (a = b ↔ d = 0) ∧
       (posDist a b : Int) = d)
end

