-- ==== Sys2Proof/Laws/Table.lean ====
section
/-! SUPPORT. Laws of sparse tables: a read after a write, other keys unchanged, and the canonical form that every operation keeps. -/

namespace Sys2Proof

set_option Elab.async false
set_option linter.unusedTactic false
set_option linter.unreachableTactic false

variable {α : Type}

@[simp] theorem tget_nil (d : α) (i : Nat) : tget d [] i = d := rfl
@[simp] theorem tget_cons (d : α) (k : Nat) (v : α) (t : Tbl α) (i : Nat) :
    tget d ((k, v) :: t) i = if k = i then v else tget d t i := rfl

theorem tget_tdel_self (d : α) (t : Tbl α) (i : Nat) : tget d (tdel t i) i = d := by
  induction t with
  | nil => rfl
  | cons e t ih =>
    obtain ⟨k, v⟩ := e
    by_cases h : k = i
    · simpa [tdel, h] using ih
    · simpa [tdel, h] using ih

theorem tget_tdel_other (d : α) (t : Tbl α) {i j : Nat} (h : j ≠ i) : tget d (tdel t i) j = tget d t j := by
  induction t with
  | nil => rfl
  | cons e t ih =>
    obtain ⟨k, v⟩ := e
    by_cases hk : k = i
    · subst hk
      simpa [tdel, Ne.symm h] using ih
    · simp only [tdel, List.filter_cons, ne_eq, hk, not_false_eq_true, decide_true, if_true, tget_cons] at ih ⊢
      simp only [ih]

theorem tget_tins_self (d : α) (t : Tbl α) (i : Nat) (v : α) (h : ∀ e ∈ t, e.1 ≠ i) : tget d (tins t i v) i = v := by
  induction t with
  | nil => simp [tins]
  | cons e t ih =>
    obtain ⟨k, w⟩ := e
    have hk : k ≠ i := h (k, w) (by simp)
    have ih := ih fun e he => h e (by simp [he])
    unfold tins
    split
    · simp
    · simp [hk, ih]

theorem tget_tins_other (d : α) (t : Tbl α) {i j : Nat} (v : α) (h : j ≠ i) : tget d (tins t i v) j = tget d t j := by
  induction t with
  | nil => simp [tins, Ne.symm h]
  | cons e t ih =>
    obtain ⟨k, w⟩ := e
    unfold tins
    split
    · simp [Ne.symm h]
    · simp [ih]

theorem mem_tdel {t : Tbl α} {i : Nat} {e : Nat × α} : e ∈ tdel t i ↔ e ∈ t ∧ e.1 ≠ i := by simp [tdel]

theorem mem_tins {t : Tbl α} {i : Nat} {v : α} {e : Nat × α} : e ∈ tins t i v ↔ e = (i, v) ∨ e ∈ t := by
  induction t with
  | nil => simp [tins]
  | cons x t ih =>
    unfold tins
    split
    · simp
    · simp only [List.mem_cons, ih]
      tauto

/-- A read of the key written gives the value written. -/
@[simp] theorem tget_tput_self [DecidableEq α] (d : α) (t : Tbl α) (i : Nat) (v : α) : tget d (tput d t i v) i = v := by
  unfold tput
  split
  · rename_i h
    rw [tget_tdel_self, h]
  · exact tget_tins_self d _ i v fun e he => (mem_tdel.mp he).2

/-- A write leaves every other key alone. -/
@[simp] theorem tget_tput_other [DecidableEq α] (d : α) (t : Tbl α) {i j : Nat} (v : α) (h : j ≠ i) :
    tget d (tput d t i v) j = tget d t j := by
  unfold tput
  split
  · exact tget_tdel_other d t h
  · rw [tget_tins_other d _ v h, tget_tdel_other d t h]

/-- A read after a write, in one equation. -/
theorem tget_tput [DecidableEq α] (d : α) (t : Tbl α) (i j : Nat) (v : α) :
    tget d (tput d t i v) j = if j = i then v else tget d t j := by
  by_cases h : j = i
  · subst h; simp
  · simp [h]

/-- What a write of a key lists: the pair written and what stood at other keys. -/
theorem mem_tput [DecidableEq α] {d : α} {t : Tbl α} {i : Nat} {v : α} {e : Nat × α} (h : e ∈ tput d t i v) :
    e = (i, v) ∨ e ∈ t := by
  unfold tput at h
  split at h
  · exact .inr (mem_tdel.mp h).1
  · exact (mem_tins.mp h).imp_right fun h => (mem_tdel.mp h).1

/-! ### The canonical form -/

theorem trising_iff (t : Tbl α) : trising t = true ↔ t.Pairwise fun a b => a.1 < b.1 := by
  induction t with
  | nil => simp [trising]
  | cons e t ih =>
    cases t with
    | nil => simp [trising]
    | cons f t =>
      obtain ⟨k, v⟩ := e
      obtain ⟨l, w⟩ := f
      simp only [trising, Bool.and_eq_true, decide_eq_true_eq, ih, List.pairwise_cons, List.mem_cons, forall_eq_or_imp]
      constructor
      · rintro ⟨h, h1, h2⟩
        exact ⟨⟨h, fun a ha => h.trans (h1 a ha)⟩, h1, h2⟩
      · rintro ⟨⟨h, -⟩, h1, h2⟩
        exact ⟨h, h1, h2⟩

theorem wf_iff [DecidableEq α] (d : α) (t : Tbl α) :
    Tbl.wf d t = true ↔ (t.Pairwise fun a b => a.1 < b.1) ∧ ∀ e ∈ t, e.2 ≠ d := by
  simp [Tbl.wf, trising_iff]

@[simp] theorem wf_nil [DecidableEq α] (d : α) : Tbl.wf d [] = true := by simp [wf_iff]

theorem pairwise_tins {t : Tbl α} {i : Nat} {v : α} (h : t.Pairwise fun a b => a.1 < b.1) (hi : ∀ e ∈ t, e.1 ≠ i) :
    (tins t i v).Pairwise fun a b => a.1 < b.1 := by
  induction t with
  | nil => simp [tins]
  | cons x t ih =>
    obtain ⟨k, w⟩ := x
    rw [List.pairwise_cons] at h
    unfold tins
    split
    · rename_i hk
      refine List.pairwise_cons.mpr ⟨?_, List.pairwise_cons.mpr h⟩
      intro e he
      rcases List.mem_cons.mp he with rfl | he
      · exact hk
      · exact hk.trans (h.1 e he)
    · rename_i hk
      refine List.pairwise_cons.mpr ⟨?_, ih h.2 fun e he => hi e (by simp [he])⟩
      intro e he
      rcases mem_tins.mp he with rfl | he
      · have := hi (k, w) (by simp)
        simp only at this ⊢
        omega
      · exact h.1 e he

/-- A filter keeps the canonical form. -/
@[simp] theorem wf_filter [DecidableEq α] {d : α} {t : Tbl α} (p : Nat × α → Bool) (h : Tbl.wf d t = true) :
    Tbl.wf d (t.filter p) = true := by
  rw [wf_iff] at h ⊢
  exact ⟨h.1.filter p, fun e he => h.2 e (List.mem_filter.mp he).1⟩

/-- A write keeps the canonical form. -/
@[simp] theorem wf_tput [DecidableEq α] {d : α} {t : Tbl α} (i : Nat) (v : α) (h : Tbl.wf d t = true) :
    Tbl.wf d (tput d t i v) = true := by
  rw [wf_iff] at h ⊢
  have hd : (tdel t i).Pairwise fun a b => a.1 < b.1 := h.1.filter _
  unfold tput
  split
  · exact ⟨hd, fun e he => h.2 e (mem_tdel.mp he).1⟩
  · rename_i hv
    refine ⟨pairwise_tins hd fun e he => (mem_tdel.mp he).2, fun e he => ?_⟩
    rcases mem_tins.mp he with rfl | he
    · exact hv
    · exact h.2 e (mem_tdel.mp he).1

/-- A write keeps the keys rising. -/
@[simp] theorem trising_tput [DecidableEq α] {d : α} {t : Tbl α} {i : Nat} {v : α} (h : trising t = true) : trising (tput d t i v) = true := by
  rw [trising_iff] at h ⊢
  have hd : (tdel t i).Pairwise fun a b => a.1 < b.1 := h.filter _
  unfold tput
  split
  · exact hd
  · exact pairwise_tins hd fun e he => (mem_tdel.mp he).2

/-- A filter keeps the keys rising. -/
@[simp] theorem trising_filter {t : Tbl α} (p : Nat × α → Bool) (h : trising t = true) : trising (t.filter p) = true := by
  rw [trising_iff] at h ⊢
  exact h.filter p

/-- What a read finds: an entry of the table, or the default. -/
theorem tget_mem_or (d : α) (t : Tbl α) (i : Nat) : (i, tget d t i) ∈ t ∨ tget d t i = d := by
  induction t with
  | nil => exact .inr rfl
  | cons e t ih =>
    obtain ⟨k, v⟩ := e
    rw [tget_cons]
    split
    · rename_i h
      subst h
      exact .inl (List.mem_cons_self)
    · exact ih.imp_left fun h => List.mem_cons_of_mem _ h

/-- Writes of consecutive keys keep the canonical form. -/
@[simp] theorem wf_tputs [DecidableEq α] {d : α} {t : Tbl α} (i : Nat) (vs : List α) (h : Tbl.wf d t = true) :
    Tbl.wf d (tputs d t i vs) = true := by
  induction vs generalizing t i with
  | nil => exact h
  | cons v vs ih => exact ih (i + 1) (wf_tput i v h)

/-- A fold of operations that keep the canonical form keeps it. -/
theorem wf_foldl [DecidableEq α] {β : Type} {d : α} (f : Tbl α → β → Tbl α) (hf : ∀ t b, Tbl.wf d t = true → Tbl.wf d (f t b) = true)
    (l : List β) {t : Tbl α} (h : Tbl.wf d t = true) : Tbl.wf d (l.foldl f t) = true := by
  induction l generalizing t with
  | nil => exact h
  | cons b l ih => exact ih (hf t b h)

/-- Tables in canonical form that read alike are equal. -/
theorem wf_ext [DecidableEq α] {d : α} {t u : Tbl α} (ht : Tbl.wf d t = true) (hu : Tbl.wf d u = true)
    (h : ∀ i, tget d t i = tget d u i) : t = u := by
  induction t generalizing u with
  | nil =>
    cases u with
    | nil => rfl
    | cons e u =>
      obtain ⟨k, v⟩ := e
      have h0 := h k
      rw [wf_iff] at hu
      simp only [tget_nil, tget_cons, if_true] at h0
      exact absurd h0.symm (hu.2 (k, v) (by simp))
  | cons e t ih =>
    obtain ⟨k, v⟩ := e
    have low : ∀ {k : Nat} {v : α} {t : Tbl α} {j : Nat}, Tbl.wf d ((k, v) :: t) = true → j ≤ k → tget d t j = d := by
      intro k v t j hw hj
      rw [wf_iff, List.pairwise_cons] at hw
      have hlt := hw.1.1
      clear hw
      induction t with
      | nil => rfl
      | cons f t ih =>
        have hf := hlt f (by simp)
        obtain ⟨l, w⟩ := f
        simp only at hf
        rw [tget_cons, if_neg (by omega)]
        exact ih fun a ha => hlt a (by simp [ha])
    have tail : ∀ {k : Nat} {v : α} {t : Tbl α}, Tbl.wf d ((k, v) :: t) = true → Tbl.wf d t = true := by
      intro k v t hw
      rw [wf_iff, List.pairwise_cons] at hw
      exact (wf_iff d t).mpr ⟨hw.1.2, fun e he => hw.2 e (by simp [he])⟩
    have head : ∀ {k : Nat} {v : α} {t : Tbl α}, Tbl.wf d ((k, v) :: t) = true → v ≠ d := by
      intro k v t hw
      exact ((wf_iff d _).mp hw).2 (k, v) (by simp)
    cases u with
    | nil =>
      have h0 := h k
      simp only [tget_nil, tget_cons, if_true] at h0
      exact absurd h0 (head ht)
    | cons f u =>
      obtain ⟨l, w⟩ := f
      rcases Nat.lt_trichotomy k l with hkl | hkl | hkl
      · have h0 := h k
        rw [tget_cons, if_pos rfl, tget_cons, if_neg (by omega), low hu hkl.le] at h0
        exact absurd h0 (head ht)
      · subst hkl
        have h0 := h k
        simp only [tget_cons, if_true] at h0
        subst h0
        congr 1
        refine ih (tail ht) (tail hu) fun i => ?_
        by_cases hi : i ≤ k
        · rw [low ht hi, low hu hi]
        · have := h i
          rwa [tget_cons, if_neg (by omega), tget_cons, if_neg (by omega)] at this
      · have h0 := h l
        rw [tget_cons, if_neg (by omega), low ht hkl.le, tget_cons, if_pos rfl] at h0
        exact absurd h0.symm (head hu)

/-- Bits of a mask after one is set or cleared. -/
theorem bitOf_eq (m i : Nat) : bitOf m i = m.testBit i := rfl

end Sys2Proof
end

