-- ==== Sys2Proof/Laws/Kept.lean ====
section
/-! SUPPORT. What every operation of the model keeps: the queue of commands, what has been emitted, and the invariant. -/

namespace Sys2Proof.Machine

set_option Elab.async false
set_option linter.unusedTactic false
set_option linter.unreachableTactic false

/-- A state whose queue is `q`, whose trace ends in `o`, and that satisfies the invariant. -/
def Kept (q : List Instr) (o : List Out) (s : State) : Prop := s.pending = q ∧ o <:+ s.out ∧ s.Inv


variable {q : List Instr} {o : List Out} {s t : State}

@[simp] theorem kept_ite {c : Prop} [Decidable c] {a b : State} (ha : Kept q o a) (hb : Kept q o b) : Kept q o (if c then a else b) := by
  split <;> assumption

/-- A fold of steps that keep. -/
@[simp] theorem kept_foldl {β : Type} (f : State → β → State) (l : List β) (hf : ∀ s b, Kept q o s → Kept q o (f s b)) (h : Kept q o s) :
    Kept q o (l.foldl f s) := by
  induction l generalizing s with
  | nil => exact h
  | cons b l ih => exact ih (hf s b h)

/-- A right fold of steps that keep. -/
@[simp] theorem kept_foldr {β : Type} (f : β → State → State) (l : List β) (hf : ∀ s b, Kept q o s → Kept q o (f b s)) (h : Kept q o s) :
    Kept q o (l.foldr f s) := by
  induction l with
  | nil => exact h
  | cons b l ih => exact hf _ b ih

@[simp] theorem kept_abCauses (v_abCauses : Nat) (h : Kept q o t) : Kept q o { t with abCauses := v_abCauses } := h
@[simp] theorem kept_abCauses_eng (v_abCauses : Nat) (v_eng : Option EngAb) (h : Kept q o t) : Kept q o { t with abCauses := v_abCauses, eng := v_eng } := h
@[simp] theorem kept_axDisc (v_axDisc : Tbl Bool) (h : Kept q o t) (h_axDisc : Tbl.wf false t.axDisc = true → Tbl.wf false v_axDisc = true) : Kept q o { t with axDisc := v_axDisc } := by
  obtain ⟨hp, ho, hs, hr, hb⟩ := h
  refine ⟨hp, ho, ?_, ?_, hb⟩
  · simp only [State.storesWf] at *
    simp_all
  · exact hr
@[simp] theorem kept_axDisc_histK (v_axDisc : Tbl Bool) (v_histK : Nat) (h : Kept q o t) (h_axDisc : Tbl.wf false t.axDisc = true → Tbl.wf false v_axDisc = true) : Kept q o { t with axDisc := v_axDisc, histK := v_histK } := by
  obtain ⟨hp, ho, hs, hr, hb⟩ := h
  refine ⟨hp, ho, ?_, ?_, hb⟩
  · simp only [State.storesWf] at *
    simp_all
  · exact hr
@[simp] theorem kept_bl (v_bl : Tbl Bl) (h : Kept q o t) (h_bl : Tbl.wf Bl.init t.bl = true → Tbl.wf Bl.init v_bl = true) : Kept q o { t with bl := v_bl } := by
  obtain ⟨hp, ho, hs, hr, hb⟩ := h
  refine ⟨hp, ho, ?_, ?_, hb⟩
  · simp only [State.storesWf] at *
    simp_all
  · exact hr
@[simp] theorem kept_block (v_block : Tbl Nat) (h : Kept q o t) (h_block : Tbl.wf 0 t.block = true → Tbl.wf 0 v_block = true) : Kept q o { t with block := v_block } := by
  obtain ⟨hp, ho, hs, hr, hb⟩ := h
  refine ⟨hp, ho, ?_, ?_, hb⟩
  · simp only [State.storesWf] at *
    simp_all
  · exact hr
@[simp] theorem kept_boomed (v_boomed : Tbl Bool) (h : Kept q o t) (h_boomed : Tbl.wf false t.boomed = true → Tbl.wf false v_boomed = true) : Kept q o { t with boomed := v_boomed } := by
  obtain ⟨hp, ho, hs, hr, hb⟩ := h
  refine ⟨hp, ho, ?_, ?_, hb⟩
  · simp only [State.storesWf] at *
    simp_all
  · exact hr
@[simp] theorem kept_boot (v_boot : Boot) (h : Kept q o t) : Kept q o { t with boot := v_boot } := h
@[simp] theorem kept_boot_lbDue (v_boot : Boot) (v_lbDue : List Nat) (h : Kept q o t) : Kept q o { t with boot := v_boot, lbDue := v_lbDue } := h
@[simp] theorem kept_boot_lbDue_otp (v_boot : Boot) (v_lbDue : List Nat) (v_otp : Otp) (h : Kept q o t) : Kept q o { t with boot := v_boot, lbDue := v_lbDue, otp := v_otp } := h
@[simp] theorem kept_bus (v_bus : Tbl BusGrp) (h : Kept q o t) (h_bus : Tbl.wf BusGrp.init t.bus = true → Tbl.wf BusGrp.init v_bus = true) : Kept q o { t with bus := v_bus } := by
  obtain ⟨hp, ho, hs, hr, hb⟩ := h
  refine ⟨hp, ho, ?_, ?_, hb⟩
  · simp only [State.storesWf] at *
    simp_all
  · exact hr
@[simp] theorem kept_cap (v_cap : Tbl Cap) (h : Kept q o t) (h_cap : Tbl.wf Cap.init t.cap = true → Tbl.wf Cap.init v_cap = true) : Kept q o { t with cap := v_cap } := by
  obtain ⟨hp, ho, hs, hr, hb⟩ := h
  refine ⟨hp, ho, ?_, ?_, hb⟩
  · simp only [State.storesWf] at *
    simp_all
  · exact hr
@[simp] theorem kept_capAt (v_capAt : Option Nat) (h : Kept q o t) : Kept q o { t with capAt := v_capAt } := h
@[simp] theorem kept_castCount (v_castCount : Nat) (h : Kept q o t) : Kept q o { t with castCount := v_castCount } := h
@[simp] theorem kept_causes (v_causes : Tbl Bool) (h : Kept q o t) (h_causes : Tbl.wf false t.causes = true → Tbl.wf false v_causes = true) : Kept q o { t with causes := v_causes } := by
  obtain ⟨hp, ho, hs, hr, hb⟩ := h
  refine ⟨hp, ho, ?_, ?_, hb⟩
  · simp only [State.storesWf] at *
    simp_all
  · exact hr
@[simp] theorem kept_cfg (v_cfg : Tbl Nat) (h : Kept q o t) (h_cfg : trising t.cfg = true → trising v_cfg = true) : Kept q o { t with cfg := v_cfg } := by
  obtain ⟨hp, ho, hs, hr, hb⟩ := h
  refine ⟨hp, ho, ?_, ?_, hb⟩
  · exact hs
  · simp only [State.keysRise] at *
    simp_all
@[simp] theorem kept_cfg_msixTab (v_cfg : Tbl Nat) (v_msixTab : Tbl Nat) (h : Kept q o t) (h_cfg : trising t.cfg = true → trising v_cfg = true) (h_msixTab : trising t.msixTab = true → trising v_msixTab = true) : Kept q o { t with cfg := v_cfg, msixTab := v_msixTab } := by
  obtain ⟨hp, ho, hs, hr, hb⟩ := h
  refine ⟨hp, ho, ?_, ?_, hb⟩
  · exact hs
  · simp only [State.keysRise] at *
    simp_all
@[simp] theorem kept_chartMs (v_chartMs : Nat) (h : Kept q o t) : Kept q o { t with chartMs := v_chartMs } := h
@[simp] theorem kept_chartSeq (v_chartSeq : Nat) (h : Kept q o t) : Kept q o { t with chartSeq := v_chartSeq } := h
@[simp] theorem kept_chartSeq_chartWant (v_chartSeq : Nat) (v_chartWant : Bool) (h : Kept q o t) : Kept q o { t with chartSeq := v_chartSeq, chartWant := v_chartWant } := h
@[simp] theorem kept_chartWant (v_chartWant : Bool) (h : Kept q o t) : Kept q o { t with chartWant := v_chartWant } := h
@[simp] theorem kept_crossings (v_crossings : List Crossing) (h : Kept q o t) : Kept q o { t with crossings := v_crossings } := h
@[simp] theorem kept_decided (v_decided : List Decided) (h : Kept q o t) : Kept q o { t with decided := v_decided } := h
@[simp] theorem kept_decided_issueLog_issued (v_decided : List Decided) (v_issueLog : List Nat) (v_issued : List Decided) (h : Kept q o t) : Kept q o { t with decided := v_decided, issueLog := v_issueLog, issued := v_issued } := h
@[simp] theorem kept_decided_issued (v_decided : List Decided) (v_issued : List Decided) (h : Kept q o t) : Kept q o { t with decided := v_decided, issued := v_issued } := h
@[simp] theorem kept_droopAt_hbDroop (v_droopAt : Nat) (v_hbDroop : Nat) (h : Kept q o t) : Kept q o { t with droopAt := v_droopAt, hbDroop := v_hbDroop } := h
@[simp] theorem kept_drv (v_drv : Tbl Drv) (h : Kept q o t) (h_drv : Tbl.wf Drv.init t.drv = true → Tbl.wf Drv.init v_drv = true) : Kept q o { t with drv := v_drv } := by
  obtain ⟨hp, ho, hs, hr, hb⟩ := h
  refine ⟨hp, ho, ?_, ?_, hb⟩
  · simp only [State.storesWf] at *
    simp_all
  · exact hr
@[simp] theorem kept_edgeLive_edgeRegs_edgeSw_now (v_edgeLive : Option (Tbl Nat)) (v_edgeRegs : Tbl Nat) (v_edgeSw : List Nat) (v_now : Nat) (h : Kept q o t) (h_edgeLive : trising (t.edgeLive.getD []) = true → trising (v_edgeLive.getD []) = true) (h_edgeRegs : trising t.edgeRegs = true → trising v_edgeRegs = true) : Kept q o { t with edgeLive := v_edgeLive, edgeRegs := v_edgeRegs, edgeSw := v_edgeSw, now := v_now } := by
  obtain ⟨hp, ho, hs, hr, hb⟩ := h
  refine ⟨hp, ho, ?_, ?_, hb⟩
  · exact hs
  · simp only [State.keysRise] at *
    simp_all
@[simp] theorem kept_edgeLive_live (v_edgeLive : Option (Tbl Nat)) (v_live : Tbl Nat) (h : Kept q o t) (h_edgeLive : trising (t.edgeLive.getD []) = true → trising (v_edgeLive.getD []) = true) (h_live : trising t.live = true → trising v_live = true) : Kept q o { t with edgeLive := v_edgeLive, live := v_live } := by
  obtain ⟨hp, ho, hs, hr, hb⟩ := h
  refine ⟨hp, ho, ?_, ?_, hb⟩
  · exact hs
  · simp only [State.keysRise] at *
    simp_all
@[simp] theorem kept_edgeRegs_edgeSw (v_edgeRegs : Tbl Nat) (v_edgeSw : List Nat) (h : Kept q o t) (h_edgeRegs : trising t.edgeRegs = true → trising v_edgeRegs = true) : Kept q o { t with edgeRegs := v_edgeRegs, edgeSw := v_edgeSw } := by
  obtain ⟨hp, ho, hs, hr, hb⟩ := h
  refine ⟨hp, ho, ?_, ?_, hb⟩
  · exact hs
  · simp only [State.keysRise] at *
    simp_all
@[simp] theorem kept_emu (v_emu : Tbl Emu) (h : Kept q o t) (h_emu : Tbl.wf Emu.init t.emu = true → Tbl.wf Emu.init v_emu = true) : Kept q o { t with emu := v_emu } := by
  obtain ⟨hp, ho, hs, hr, hb⟩ := h
  refine ⟨hp, ho, ?_, ?_, hb⟩
  · simp only [State.storesWf] at *
    simp_all
  · exact hr
@[simp] theorem kept_enc (v_enc : Tbl Enc) (h : Kept q o t) (h_enc : Tbl.wf Enc.init t.enc = true → Tbl.wf Enc.init v_enc = true) : Kept q o { t with enc := v_enc } := by
  obtain ⟨hp, ho, hs, hr, hb⟩ := h
  refine ⟨hp, ho, ?_, ?_, hb⟩
  · simp only [State.storesWf] at *
    simp_all
  · exact hr
@[simp] theorem kept_eng (v_eng : Option EngAb) (h : Kept q o t) : Kept q o { t with eng := v_eng } := h
@[simp] theorem kept_ff (v_ff : Tbl Nat) (h : Kept q o t) (h_ff : Tbl.wf 0 t.ff = true → Tbl.wf 0 v_ff = true) : Kept q o { t with ff := v_ff } := by
  obtain ⟨hp, ho, hs, hr, hb⟩ := h
  refine ⟨hp, ho, ?_, ?_, hb⟩
  · simp only [State.storesWf] at *
    simp_all
  · exact hr
@[simp] theorem kept_flWait (v_flWait : List (Nat × Nat × FlEv)) (h : Kept q o t) : Kept q o { t with flWait := v_flWait } := h
@[simp] theorem kept_flash0 (v_flash0 : List Byte) (h : Kept q o t) : Kept q o { t with flash0 := v_flash0 } := h
@[simp] theorem kept_flash1 (v_flash1 : List Byte) (h : Kept q o t) : Kept q o { t with flash1 := v_flash1 } := h
@[simp] theorem kept_flips (v_flips : Tbl (List Nat)) (h : Kept q o t) (h_flips : Tbl.wf [] t.flips = true → Tbl.wf [] v_flips = true) : Kept q o { t with flips := v_flips } := by
  obtain ⟨hp, ho, hs, hr, hb⟩ := h
  refine ⟨hp, ho, ?_, ?_, hb⟩
  · simp only [State.storesWf] at *
    simp_all
  · exact hr
@[simp] theorem kept_flips_hold_poison_scrubAt_scrubDue_scrubPos (v_flips : Tbl (List Nat)) (v_hold : Tbl Nat) (v_poison : Tbl Bool) (v_scrubAt : Tbl Nat) (v_scrubDue : Tbl Nat) (v_scrubPos : Tbl Nat) (h : Kept q o t) (h_flips : Tbl.wf [] t.flips = true → Tbl.wf [] v_flips = true) (h_hold : Tbl.wf 0 t.hold = true → Tbl.wf 0 v_hold = true) (h_poison : Tbl.wf false t.poison = true → Tbl.wf false v_poison = true) (h_scrubAt : Tbl.wf 0 t.scrubAt = true → Tbl.wf 0 v_scrubAt = true) (h_scrubDue : Tbl.wf 0 t.scrubDue = true → Tbl.wf 0 v_scrubDue = true) (h_scrubPos : Tbl.wf 0 t.scrubPos = true → Tbl.wf 0 v_scrubPos = true) : Kept q o { t with flips := v_flips, hold := v_hold, poison := v_poison, scrubAt := v_scrubAt, scrubDue := v_scrubDue, scrubPos := v_scrubPos } := by
  obtain ⟨hp, ho, hs, hr, hb⟩ := h
  refine ⟨hp, ho, ?_, ?_, hb⟩
  · simp only [State.storesWf] at *
    simp_all
  · exact hr
@[simp] theorem kept_flips_poison (v_flips : Tbl (List Nat)) (v_poison : Tbl Bool) (h : Kept q o t) (h_flips : Tbl.wf [] t.flips = true → Tbl.wf [] v_flips = true) (h_poison : Tbl.wf false t.poison = true → Tbl.wf false v_poison = true) : Kept q o { t with flips := v_flips, poison := v_poison } := by
  obtain ⟨hp, ho, hs, hr, hb⟩ := h
  refine ⟨hp, ho, ?_, ?_, hb⟩
  · simp only [State.storesWf] at *
    simp_all
  · exact hr
@[simp] theorem kept_fnode (v_fnode : Tbl FNode) (h : Kept q o t) (h_fnode : Tbl.wf FNode.init t.fnode = true → Tbl.wf FNode.init v_fnode = true) : Kept q o { t with fnode := v_fnode } := by
  obtain ⟨hp, ho, hs, hr, hb⟩ := h
  refine ⟨hp, ho, ?_, ?_, hb⟩
  · simp only [State.storesWf] at *
    simp_all
  · exact hr
@[simp] theorem kept_fport (v_fport : Tbl FPort) (h : Kept q o t) (h_fport : Tbl.wf FPort.init t.fport = true → Tbl.wf FPort.init v_fport = true) : Kept q o { t with fport := v_fport } := by
  obtain ⟨hp, ho, hs, hr, hb⟩ := h
  refine ⟨hp, ho, ?_, ?_, hb⟩
  · simp only [State.storesWf] at *
    simp_all
  · exact hr
@[simp] theorem kept_free (v_free : Nat) (h : Kept q o t) : Kept q o { t with free := v_free } := h
@[simp] theorem kept_fusAt (v_fusAt : Tbl Nat) (h : Kept q o t) (h_fusAt : Tbl.wf 0 t.fusAt = true → Tbl.wf 0 v_fusAt = true) : Kept q o { t with fusAt := v_fusAt } := by
  obtain ⟨hp, ho, hs, hr, hb⟩ := h
  refine ⟨hp, ho, ?_, ?_, hb⟩
  · simp only [State.storesWf] at *
    simp_all
  · exact hr
@[simp] theorem kept_graveHold (v_graveHold : Bool) (h : Kept q o t) : Kept q o { t with graveHold := v_graveHold } := h
@[simp] theorem kept_hbTherm (v_hbTherm : Nat) (h : Kept q o t) : Kept q o { t with hbTherm := v_hbTherm } := h
@[simp] theorem kept_hist (v_hist : Tbl (List (Nat × Nat × Bool))) (h : Kept q o t) (h_hist : Tbl.wf [] t.hist = true → Tbl.wf [] v_hist = true) : Kept q o { t with hist := v_hist } := by
  obtain ⟨hp, ho, hs, hr, hb⟩ := h
  refine ⟨hp, ho, ?_, ?_, hb⟩
  · simp only [State.storesWf] at *
    simp_all
  · exact hr
@[simp] theorem kept_hold (v_hold : Tbl Nat) (h : Kept q o t) (h_hold : Tbl.wf 0 t.hold = true → Tbl.wf 0 v_hold = true) : Kept q o { t with hold := v_hold } := by
  obtain ⟨hp, ho, hs, hr, hb⟩ := h
  refine ⟨hp, ho, ?_, ?_, hb⟩
  · simp only [State.storesWf] at *
    simp_all
  · exact hr
@[simp] theorem kept_htr (v_htr : Tbl Htr) (h : Kept q o t) (h_htr : Tbl.wf Htr.init t.htr = true → Tbl.wf Htr.init v_htr = true) : Kept q o { t with htr := v_htr } := by
  obtain ⟨hp, ho, hs, hr, hb⟩ := h
  refine ⟨hp, ho, ?_, ?_, hb⟩
  · simp only [State.storesWf] at *
    simp_all
  · exact hr
@[simp] theorem kept_hv (v_hv : Tbl Hv) (h : Kept q o t) (h_hv : Tbl.wf Hv.init t.hv = true → Tbl.wf Hv.init v_hv = true) : Kept q o { t with hv := v_hv } := by
  obtain ⟨hp, ho, hs, hr, hb⟩ := h
  refine ⟨hp, ho, ?_, ?_, hb⟩
  · simp only [State.storesWf] at *
    simp_all
  · exact hr
@[simp] theorem kept_io_pulses (v_io : Tbl Nat) (v_pulses : Tbl (Option (Nat × Nat))) (h : Kept q o t) (h_io : Tbl.wf 0 t.io = true → Tbl.wf 0 v_io = true) (h_pulses : Tbl.wf none t.pulses = true → Tbl.wf none v_pulses = true) : Kept q o { t with io := v_io, pulses := v_pulses } := by
  obtain ⟨hp, ho, hs, hr, hb⟩ := h
  refine ⟨hp, ho, ?_, ?_, hb⟩
  · simp only [State.storesWf] at *
    simp_all
  · exact hr
@[simp] theorem kept_issued (v_issued : List Decided) (h : Kept q o t) : Kept q o { t with issued := v_issued } := h
@[simp] theorem kept_jams (v_jams : List (Nat × Nat)) (h : Kept q o t) : Kept q o { t with jams := v_jams } := h
@[simp] theorem kept_laid (v_laid : Tbl Bool) (h : Kept q o t) (h_laid : Tbl.wf false t.laid = true → Tbl.wf false v_laid = true) : Kept q o { t with laid := v_laid } := by
  obtain ⟨hp, ho, hs, hr, hb⟩ := h
  refine ⟨hp, ho, ?_, ?_, hb⟩
  · simp only [State.storesWf] at *
    simp_all
  · exact hr
@[simp] theorem kept_lantern_lanternAt (v_lantern : Bool) (v_lanternAt : Nat) (h : Kept q o t) : Kept q o { t with lantern := v_lantern, lanternAt := v_lanternAt } := h
@[simp] theorem kept_lastRec (v_lastRec : Tbl (Option (Nat × Nat))) (h : Kept q o t) (h_lastRec : Tbl.wf none t.lastRec = true → Tbl.wf none v_lastRec = true) : Kept q o { t with lastRec := v_lastRec } := by
  obtain ⟨hp, ho, hs, hr, hb⟩ := h
  refine ⟨hp, ho, ?_, ?_, hb⟩
  · simp only [State.storesWf] at *
    simp_all
  · exact hr
@[simp] theorem kept_layups (v_layups : List Layup) (h : Kept q o t) : Kept q o { t with layups := v_layups } := h
@[simp] theorem kept_lbDue (v_lbDue : List Nat) (h : Kept q o t) : Kept q o { t with lbDue := v_lbDue } := h
@[simp] theorem kept_live (v_live : Tbl Nat) (h : Kept q o t) (h_live : trising t.live = true → trising v_live = true) : Kept q o { t with live := v_live } := by
  obtain ⟨hp, ho, hs, hr, hb⟩ := h
  refine ⟨hp, ho, ?_, ?_, hb⟩
  · exact hs
  · simp only [State.keysRise] at *
    simp_all
@[simp] theorem kept_live_quay (v_live : Tbl Nat) (v_quay : Tbl Nat) (h : Kept q o t) (h_live : trising t.live = true → trising v_live = true) (h_quay : trising t.quay = true → trising v_quay = true) : Kept q o { t with live := v_live, quay := v_quay } := by
  obtain ⟨hp, ho, hs, hr, hb⟩ := h
  refine ⟨hp, ho, ?_, ?_, hb⟩
  · exact hs
  · simp only [State.keysRise] at *
    simp_all
@[simp] theorem kept_logbook (v_logbook : Tbl Nat) (h : Kept q o t) (h_logbook : Tbl.wf 0 t.logbook = true → Tbl.wf 0 v_logbook = true) : Kept q o { t with logbook := v_logbook } := by
  obtain ⟨hp, ho, hs, hr, hb⟩ := h
  refine ⟨hp, ho, ?_, ?_, hb⟩
  · simp only [State.storesWf] at *
    simp_all
  · exact hr
@[simp] theorem kept_loop (v_loop : Tbl Loop) (h : Kept q o t) (h_loop : Tbl.wf Loop.init t.loop = true → Tbl.wf Loop.init v_loop = true) : Kept q o { t with loop := v_loop } := by
  obtain ⟨hp, ho, hs, hr, hb⟩ := h
  refine ⟨hp, ho, ?_, ?_, hb⟩
  · simp only [State.storesWf] at *
    simp_all
  · exact hr
@[simp] theorem kept_lowLatch (v_lowLatch : Tbl (Option Nat)) (h : Kept q o t) (h_lowLatch : Tbl.wf none t.lowLatch = true → Tbl.wf none v_lowLatch = true) : Kept q o { t with lowLatch := v_lowLatch } := by
  obtain ⟨hp, ho, hs, hr, hb⟩ := h
  refine ⟨hp, ho, ?_, ?_, hb⟩
  · simp only [State.storesWf] at *
    simp_all
  · exact hr
@[simp] theorem kept_lparam (v_lparam : Tbl Nat) (h : Kept q o t) (h_lparam : Tbl.wf 0 t.lparam = true → Tbl.wf 0 v_lparam = true) : Kept q o { t with lparam := v_lparam } := by
  obtain ⟨hp, ho, hs, hr, hb⟩ := h
  refine ⟨hp, ho, ?_, ?_, hb⟩
  · simp only [State.storesWf] at *
    simp_all
  · exact hr
@[simp] theorem kept_lword (v_lword : Tbl Nat) (h : Kept q o t) (h_lword : Tbl.wf 0 t.lword = true → Tbl.wf 0 v_lword = true) : Kept q o { t with lword := v_lword } := by
  obtain ⟨hp, ho, hs, hr, hb⟩ := h
  refine ⟨hp, ho, ?_, ?_, hb⟩
  · simp only [State.storesWf] at *
    simp_all
  · exact hr
@[simp] theorem kept_mains (v_mains : Mains) (h : Kept q o t) : Kept q o { t with mains := v_mains } := h
@[simp] theorem kept_marks (v_marks : List MarkWin) (h : Kept q o t) : Kept q o { t with marks := v_marks } := h
@[simp] theorem kept_mot (v_mot : Tbl Mot) (h : Kept q o t) (h_mot : Tbl.wf Mot.init t.mot = true → Tbl.wf Mot.init v_mot = true) : Kept q o { t with mot := v_mot } := by
  obtain ⟨hp, ho, hs, hr, hb⟩ := h
  refine ⟨hp, ho, ?_, ?_, hb⟩
  · simp only [State.storesWf] at *
    simp_all
  · exact hr
@[simp] theorem kept_msixTab (v_msixTab : Tbl Nat) (h : Kept q o t) (h_msixTab : trising t.msixTab = true → trising v_msixTab = true) : Kept q o { t with msixTab := v_msixTab } := by
  obtain ⟨hp, ho, hs, hr, hb⟩ := h
  refine ⟨hp, ho, ?_, ?_, hb⟩
  · exact hs
  · simp only [State.keysRise] at *
    simp_all
@[simp] theorem kept_nodeLaid (v_nodeLaid : Tbl Bool) (h : Kept q o t) (h_nodeLaid : Tbl.wf false t.nodeLaid = true → Tbl.wf false v_nodeLaid = true) : Kept q o { t with nodeLaid := v_nodeLaid } := by
  obtain ⟨hp, ho, hs, hr, hb⟩ := h
  refine ⟨hp, ho, ?_, ?_, hb⟩
  · simp only [State.storesWf] at *
    simp_all
  · exact hr
@[simp] theorem kept_pf0 (v_pf0 : PfSt) (h : Kept q o t) : Kept q o { t with pf0 := v_pf0 } := h
@[simp] theorem kept_pf1 (v_pf1 : PfSt) (h : Kept q o t) : Kept q o { t with pf1 := v_pf1 } := h
@[simp] theorem kept_post (v_post : Tbl (Option Posted)) (h : Kept q o t) (h_post : Tbl.wf none t.post = true → Tbl.wf none v_post = true) : Kept q o { t with post := v_post } := by
  obtain ⟨hp, ho, hs, hr, hb⟩ := h
  refine ⟨hp, ho, ?_, ?_, hb⟩
  · simp only [State.storesWf] at *
    simp_all
  · exact hr
@[simp] theorem kept_pulses (v_pulses : Tbl (Option (Nat × Nat))) (h : Kept q o t) (h_pulses : Tbl.wf none t.pulses = true → Tbl.wf none v_pulses = true) : Kept q o { t with pulses := v_pulses } := by
  obtain ⟨hp, ho, hs, hr, hb⟩ := h
  refine ⟨hp, ho, ?_, ?_, hb⟩
  · simp only [State.storesWf] at *
    simp_all
  · exact hr
@[simp] theorem kept_pwr (v_pwr : Pwr) (h : Kept q o t) : Kept q o { t with pwr := v_pwr } := h
@[simp] theorem kept_quay (v_quay : Tbl Nat) (h : Kept q o t) (h_quay : trising t.quay = true → trising v_quay = true) : Kept q o { t with quay := v_quay } := by
  obtain ⟨hp, ho, hs, hr, hb⟩ := h
  refine ⟨hp, ho, ?_, ?_, hb⟩
  · exact hs
  · simp only [State.keysRise] at *
    simp_all
@[simp] theorem kept_raisedAt (v_raisedAt : Tbl Nat) (h : Kept q o t) (h_raisedAt : Tbl.wf 0 t.raisedAt = true → Tbl.wf 0 v_raisedAt = true) : Kept q o { t with raisedAt := v_raisedAt } := by
  obtain ⟨hp, ho, hs, hr, hb⟩ := h
  refine ⟨hp, ho, ?_, ?_, hb⟩
  · simp only [State.storesWf] at *
    simp_all
  · exact hr
@[simp] theorem kept_ramps (v_ramps : Tbl Ramp) (h : Kept q o t) (h_ramps : Tbl.wf Ramp.init t.ramps = true → Tbl.wf Ramp.init v_ramps = true) : Kept q o { t with ramps := v_ramps } := by
  obtain ⟨hp, ho, hs, hr, hb⟩ := h
  refine ⟨hp, ho, ?_, ?_, hb⟩
  · simp only [State.storesWf] at *
    simp_all
  · exact hr
@[simp] theorem kept_regs (v_regs : Tbl Nat) (h : Kept q o t) (h_regs : trising t.regs = true → trising v_regs = true) : Kept q o { t with regs := v_regs } := by
  obtain ⟨hp, ho, hs, hr, hb⟩ := h
  refine ⟨hp, ho, ?_, ?_, hb⟩
  · exact hs
  · simp only [State.keysRise] at *
    simp_all
@[simp] theorem kept_rlt (v_rlt : Tbl RLt) (h : Kept q o t) (h_rlt : Tbl.wf RLt.init t.rlt = true → Tbl.wf RLt.init v_rlt = true) : Kept q o { t with rlt := v_rlt } := by
  obtain ⟨hp, ho, hs, hr, hb⟩ := h
  refine ⟨hp, ho, ?_, ?_, hb⟩
  · simp only [State.storesWf] at *
    simp_all
  · exact hr
@[simp] theorem kept_rrSq (v_rrSq : Tbl Nat) (h : Kept q o t) (h_rrSq : Tbl.wf 63 t.rrSq = true → Tbl.wf 63 v_rrSq = true) : Kept q o { t with rrSq := v_rrSq } := by
  obtain ⟨hp, ho, hs, hr, hb⟩ := h
  refine ⟨hp, ho, ?_, ?_, hb⟩
  · simp only [State.storesWf] at *
    simp_all
  · exact hr
@[simp] theorem kept_scrubAt_scrubDue (v_scrubAt : Tbl Nat) (v_scrubDue : Tbl Nat) (h : Kept q o t) (h_scrubAt : Tbl.wf 0 t.scrubAt = true → Tbl.wf 0 v_scrubAt = true) (h_scrubDue : Tbl.wf 0 t.scrubDue = true → Tbl.wf 0 v_scrubDue = true) : Kept q o { t with scrubAt := v_scrubAt, scrubDue := v_scrubDue } := by
  obtain ⟨hp, ho, hs, hr, hb⟩ := h
  refine ⟨hp, ho, ?_, ?_, hb⟩
  · simp only [State.storesWf] at *
    simp_all
  · exact hr
@[simp] theorem kept_scrubAt_scrubDue_scrubPos (v_scrubAt : Tbl Nat) (v_scrubDue : Tbl Nat) (v_scrubPos : Tbl Nat) (h : Kept q o t) (h_scrubAt : Tbl.wf 0 t.scrubAt = true → Tbl.wf 0 v_scrubAt = true) (h_scrubDue : Tbl.wf 0 t.scrubDue = true → Tbl.wf 0 v_scrubDue = true) (h_scrubPos : Tbl.wf 0 t.scrubPos = true → Tbl.wf 0 v_scrubPos = true) : Kept q o { t with scrubAt := v_scrubAt, scrubDue := v_scrubDue, scrubPos := v_scrubPos } := by
  obtain ⟨hp, ho, hs, hr, hb⟩ := h
  refine ⟨hp, ho, ?_, ?_, hb⟩
  · simp only [State.storesWf] at *
    simp_all
  · exact hr
@[simp] theorem kept_scrubDue (v_scrubDue : Tbl Nat) (h : Kept q o t) (h_scrubDue : Tbl.wf 0 t.scrubDue = true → Tbl.wf 0 v_scrubDue = true) : Kept q o { t with scrubDue := v_scrubDue } := by
  obtain ⟨hp, ho, hs, hr, hb⟩ := h
  refine ⟨hp, ho, ?_, ?_, hb⟩
  · simp only [State.storesWf] at *
    simp_all
  · exact hr
@[simp] theorem kept_segs (v_segs : Tbl Seg) (h : Kept q o t) (h_segs : Tbl.wf Seg.init t.segs = true → Tbl.wf Seg.init v_segs = true) : Kept q o { t with segs := v_segs } := by
  obtain ⟨hp, ho, hs, hr, hb⟩ := h
  refine ⟨hp, ho, ?_, ?_, hb⟩
  · simp only [State.storesWf] at *
    simp_all
  · exact hr
@[simp] theorem kept_sequ (v_sequ : Sequ) (h : Kept q o t) : Kept q o { t with sequ := v_sequ } := h
@[simp] theorem kept_spll (v_spll : Tbl Spll) (h : Kept q o t) (h_spll : Tbl.wf Spll.init t.spll = true → Tbl.wf Spll.init v_spll = true) : Kept q o { t with spll := v_spll } := by
  obtain ⟨hp, ho, hs, hr, hb⟩ := h
  refine ⟨hp, ho, ?_, ?_, hb⟩
  · simp only [State.storesWf] at *
    simp_all
  · exact hr
@[simp] theorem kept_sq (v_sq : Tbl SqSt) (h : Kept q o t) (h_sq : Tbl.wf SqSt.init t.sq = true → Tbl.wf SqSt.init v_sq = true) : Kept q o { t with sq := v_sq } := by
  obtain ⟨hp, ho, hs, hr, hb⟩ := h
  refine ⟨hp, ho, ?_, ?_, hb⟩
  · simp only [State.storesWf] at *
    simp_all
  · exact hr
@[simp] theorem kept_stn (v_stn : Tbl Stn) (h : Kept q o t) (h_stn : Tbl.wf Stn.init t.stn = true → Tbl.wf Stn.init v_stn = true) : Kept q o { t with stn := v_stn } := by
  obtain ⟨hp, ho, hs, hr, hb⟩ := h
  refine ⟨hp, ho, ?_, ?_, hb⟩
  · simp only [State.storesWf] at *
    simp_all
  · exact hr
@[simp] theorem kept_stopWaits (v_stopWaits : List StopWait) (h : Kept q o t) : Kept q o { t with stopWaits := v_stopWaits } := h
@[simp] theorem kept_stp (v_stp : Tbl Stp) (h : Kept q o t) (h_stp : Tbl.wf Stp.init t.stp = true → Tbl.wf Stp.init v_stp = true) : Kept q o { t with stp := v_stp } := by
  obtain ⟨hp, ho, hs, hr, hb⟩ := h
  refine ⟨hp, ho, ?_, ?_, hb⟩
  · simp only [State.storesWf] at *
    simp_all
  · exact hr
@[simp] theorem kept_tEff (v_tEff : Tbl (Option Int)) (h : Kept q o t) (h_tEff : Tbl.wf none t.tEff = true → Tbl.wf none v_tEff = true) : Kept q o { t with tEff := v_tEff } := by
  obtain ⟨hp, ho, hs, hr, hb⟩ := h
  refine ⟨hp, ho, ?_, ?_, hb⟩
  · simp only [State.storesWf] at *
    simp_all
  · exact hr
@[simp] theorem kept_thermMs (v_thermMs : Nat) (h : Kept q o t) : Kept q o { t with thermMs := v_thermMs } := h
@[simp] theorem kept_thrAt_thrWant (v_thrAt : Nat) (v_thrWant : Tbl Nat) (h : Kept q o t) (h_thrWant : Tbl.wf 256 t.thrWant = true → Tbl.wf 256 v_thrWant = true) : Kept q o { t with thrAt := v_thrAt, thrWant := v_thrWant } := by
  obtain ⟨hp, ho, hs, hr, hb⟩ := h
  refine ⟨hp, ho, ?_, ?_, hb⟩
  · simp only [State.storesWf] at *
    simp_all
  · exact hr
@[simp] theorem kept_tide (v_tide : Tbl (Option TEntry)) (h : Kept q o t) (h_tide : Tbl.wf none t.tide = true → Tbl.wf none v_tide = true) : Kept q o { t with tide := v_tide } := by
  obtain ⟨hp, ho, hs, hr, hb⟩ := h
  refine ⟨hp, ho, ?_, ?_, hb⟩
  · simp only [State.storesWf] at *
    simp_all
  · exact hr
@[simp] theorem kept_tide_tideArmed_tideOwner (v_tide : Tbl (Option TEntry)) (v_tideArmed : Tbl Bool) (v_tideOwner : Tbl Nat) (h : Kept q o t) (h_tide : Tbl.wf none t.tide = true → Tbl.wf none v_tide = true) (h_tideArmed : Tbl.wf false t.tideArmed = true → Tbl.wf false v_tideArmed = true) (h_tideOwner : Tbl.wf 0xFF t.tideOwner = true → Tbl.wf 0xFF v_tideOwner = true) : Kept q o { t with tide := v_tide, tideArmed := v_tideArmed, tideOwner := v_tideOwner } := by
  obtain ⟨hp, ho, hs, hr, hb⟩ := h
  refine ⟨hp, ho, ?_, ?_, hb⟩
  · simp only [State.storesWf] at *
    simp_all
  · exact hr
@[simp] theorem kept_tideArmed (v_tideArmed : Tbl Bool) (h : Kept q o t) (h_tideArmed : Tbl.wf false t.tideArmed = true → Tbl.wf false v_tideArmed = true) : Kept q o { t with tideArmed := v_tideArmed } := by
  obtain ⟨hp, ho, hs, hr, hb⟩ := h
  refine ⟨hp, ho, ?_, ?_, hb⟩
  · simp only [State.storesWf] at *
    simp_all
  · exact hr
@[simp] theorem kept_tideFresh (v_tideFresh : List (Nat × Nat × Nat)) (h : Kept q o t) : Kept q o { t with tideFresh := v_tideFresh } := h
@[simp] theorem kept_tideWaits (v_tideWaits : List TideWait) (h : Kept q o t) : Kept q o { t with tideWaits := v_tideWaits } := h
@[simp] theorem kept_unitBad (v_unitBad : List (Nat × Nat)) (h : Kept q o t) : Kept q o { t with unitBad := v_unitBad } := h
@[simp] theorem kept_ustep (v_ustep : Tbl (Option Nat)) (h : Kept q o t) (h_ustep : Tbl.wf none t.ustep = true → Tbl.wf none v_ustep = true) : Kept q o { t with ustep := v_ustep } := by
  obtain ⟨hp, ho, hs, hr, hb⟩ := h
  refine ⟨hp, ho, ?_, ?_, hb⟩
  · simp only [State.storesWf] at *
    simp_all
  · exact hr
@[simp] theorem kept_wlDone (v_wlDone : List Nat) (h : Kept q o t) : Kept q o { t with wlDone := v_wlDone } := h
@[simp] theorem kept_xfer (v_xfer : Tbl (List Xfer)) (h : Kept q o t) (h_xfer : Tbl.wf [] t.xfer = true → Tbl.wf [] v_xfer = true) : Kept q o { t with xfer := v_xfer } := by
  obtain ⟨hp, ho, hs, hr, hb⟩ := h
  refine ⟨hp, ho, ?_, ?_, hb⟩
  · simp only [State.storesWf] at *
    simp_all
  · exact hr
@[simp] theorem kept_droopAt (v_droopAt : Nat) (h : Kept q o t) : Kept q o { t with droopAt := v_droopAt } := h
@[simp] theorem kept_edgeLive (v_edgeLive : Option (Tbl Nat)) (h : Kept q o t) (h_edgeLive : trising (t.edgeLive.getD []) = true → trising (v_edgeLive.getD []) = true) : Kept q o { t with edgeLive := v_edgeLive } := by
  obtain ⟨hp, ho, hs, hr, hb⟩ := h
  refine ⟨hp, ho, ?_, ?_, hb⟩
  · exact hs
  · simp only [State.keysRise] at *
    simp_all
@[simp] theorem kept_edgeRegs (v_edgeRegs : Tbl Nat) (h : Kept q o t) (h_edgeRegs : trising t.edgeRegs = true → trising v_edgeRegs = true) : Kept q o { t with edgeRegs := v_edgeRegs } := by
  obtain ⟨hp, ho, hs, hr, hb⟩ := h
  refine ⟨hp, ho, ?_, ?_, hb⟩
  · exact hs
  · simp only [State.keysRise] at *
    simp_all
@[simp] theorem kept_edgeSw (v_edgeSw : List Nat) (h : Kept q o t) : Kept q o { t with edgeSw := v_edgeSw } := h
@[simp] theorem kept_hbDroop (v_hbDroop : Nat) (h : Kept q o t) : Kept q o { t with hbDroop := v_hbDroop } := h
@[simp] theorem kept_histK (v_histK : Nat) (h : Kept q o t) : Kept q o { t with histK := v_histK } := h
@[simp] theorem kept_io (v_io : Tbl Nat) (h : Kept q o t) (h_io : Tbl.wf 0 t.io = true → Tbl.wf 0 v_io = true) : Kept q o { t with io := v_io } := by
  obtain ⟨hp, ho, hs, hr, hb⟩ := h
  refine ⟨hp, ho, ?_, ?_, hb⟩
  · simp only [State.storesWf] at *
    simp_all
  · exact hr
@[simp] theorem kept_issueLog (v_issueLog : List Nat) (h : Kept q o t) : Kept q o { t with issueLog := v_issueLog } := h
@[simp] theorem kept_lantern (v_lantern : Bool) (h : Kept q o t) : Kept q o { t with lantern := v_lantern } := h
@[simp] theorem kept_lanternAt (v_lanternAt : Nat) (h : Kept q o t) : Kept q o { t with lanternAt := v_lanternAt } := h
@[simp] theorem kept_now (v_now : Nat) (h : Kept q o t) : Kept q o { t with now := v_now } := h
@[simp] theorem kept_otp (v_otp : Otp) (h : Kept q o t) : Kept q o { t with otp := v_otp } := h
@[simp] theorem kept_poison (v_poison : Tbl Bool) (h : Kept q o t) (h_poison : Tbl.wf false t.poison = true → Tbl.wf false v_poison = true) : Kept q o { t with poison := v_poison } := by
  obtain ⟨hp, ho, hs, hr, hb⟩ := h
  refine ⟨hp, ho, ?_, ?_, hb⟩
  · simp only [State.storesWf] at *
    simp_all
  · exact hr
@[simp] theorem kept_scrubAt (v_scrubAt : Tbl Nat) (h : Kept q o t) (h_scrubAt : Tbl.wf 0 t.scrubAt = true → Tbl.wf 0 v_scrubAt = true) : Kept q o { t with scrubAt := v_scrubAt } := by
  obtain ⟨hp, ho, hs, hr, hb⟩ := h
  refine ⟨hp, ho, ?_, ?_, hb⟩
  · simp only [State.storesWf] at *
    simp_all
  · exact hr
@[simp] theorem kept_scrubPos (v_scrubPos : Tbl Nat) (h : Kept q o t) (h_scrubPos : Tbl.wf 0 t.scrubPos = true → Tbl.wf 0 v_scrubPos = true) : Kept q o { t with scrubPos := v_scrubPos } := by
  obtain ⟨hp, ho, hs, hr, hb⟩ := h
  refine ⟨hp, ho, ?_, ?_, hb⟩
  · simp only [State.storesWf] at *
    simp_all
  · exact hr
@[simp] theorem kept_thrAt (v_thrAt : Nat) (h : Kept q o t) : Kept q o { t with thrAt := v_thrAt } := h
@[simp] theorem kept_thrWant (v_thrWant : Tbl Nat) (h : Kept q o t) (h_thrWant : Tbl.wf 256 t.thrWant = true → Tbl.wf 256 v_thrWant = true) : Kept q o { t with thrWant := v_thrWant } := by
  obtain ⟨hp, ho, hs, hr, hb⟩ := h
  refine ⟨hp, ho, ?_, ?_, hb⟩
  · simp only [State.storesWf] at *
    simp_all
  · exact hr
@[simp] theorem kept_tideOwner (v_tideOwner : Tbl Nat) (h : Kept q o t) (h_tideOwner : Tbl.wf 0xFF t.tideOwner = true → Tbl.wf 0xFF v_tideOwner = true) : Kept q o { t with tideOwner := v_tideOwner } := by
  obtain ⟨hp, ho, hs, hr, hb⟩ := h
  refine ⟨hp, ho, ?_, ?_, hb⟩
  · simp only [State.storesWf] at *
    simp_all
  · exact hr

/-- A fold that carries a state beside other data keeps it. -/
@[simp] theorem kept_foldl_snd {α β : Type} (f : α × State → β → α × State) (l : List β) (a : α × State)
    (hf : ∀ x b, Kept q o x.2 → Kept q o (f x b).2) (h : Kept q o a.2) : Kept q o (l.foldl f a).2 := by
  induction l generalizing a with
  | nil => exact h
  | cons b l ih => exact ih (f a b) (hf a b h)

theorem kept_of_eq {α : Type} {p : α × State} {a : α} {u : State} (h : Kept q o p.2) (e : p = (a, u)) : Kept q o u := by
  subst e
  exact h

@[simp] theorem kept_ite_snd {α : Type} {c : Prop} [Decidable c] {a b : α × State} (ha : Kept q o a.2) (hb : Kept q o b.2) :
    Kept q o (if c then a else b).2 := by
  split <;> assumption

end Sys2Proof.Machine
end

