-- ==== Sys2Proof/Laws/KeptOps.lean ====
section
/-! SUPPORT. What the operations of Ops.lean keep. -/

namespace Sys2Proof.Machine

set_option Elab.async false
set_option linter.unusedTactic false
set_option linter.unreachableTactic false

variable {q : List Instr} {o : List Out}

@[simp] theorem State.wr_kept {s : State} (f : Fld) (v : ℕ) (i : ℕ) (j : ℕ) (h : Kept q o s) : Kept q o (State.wr s f v i j) := by
  obtain ⟨hp, ho, hs, hr, hb⟩ := h
  refine ⟨hp, ho, hs, ?_, hb⟩
  obtain ⟨h1, h2⟩ := hr
  exact ⟨trising_tput h1, h2⟩

@[simp] theorem State.wb_kept {s : State} (f : Fld) (b : Bool) (i : ℕ) (j : ℕ) (h : Kept q o s) : Kept q o (State.wb s f b i j) := by simp +contextual (maxDischargeDepth := 200) [State.wb, *]

@[simp] theorem State.cnt_kept {s : State} (f : Fld) (i : ℕ) (j : ℕ) (n : ℕ) (h : Kept q o s) : Kept q o (State.cnt s f i j n) := by simp +contextual (maxDischargeDepth := 200) [State.cnt, *]

@[simp] theorem State.wrI_kept {s : State} (f : Fld) (v : ℤ) (i : ℕ) (j : ℕ) (h : Kept q o s) : Kept q o (State.wrI s f v i j) := by simp +contextual (maxDischargeDepth := 200) [State.wrI, *]

@[simp] theorem State.swNote_kept {s : State} (f : Fld) (v : ℕ) (i : ℕ) (j : ℕ) (h : Kept q o s) : Kept q o (State.swNote s f v i j) := by simp +contextual (maxDischargeDepth := 200) [State.swNote, *]

@[simp] theorem State.swWr_kept {s : State} (f : Fld) (v : ℕ) (i : ℕ) (j : ℕ) (h : Kept q o s) : Kept q o (State.swWr s f v i j) := by simp +contextual (maxDischargeDepth := 200) [State.swWr, *]

@[simp] theorem State.swCount_kept {s : State} (f : Fld) (v : ℕ) (i : ℕ) (j : ℕ) (h : Kept q o s) : Kept q o (State.swCount s f v i j) := by simp +contextual (maxDischargeDepth := 200) [State.swCount, *]

@[simp] theorem State.swClear_kept {s : State} (f : Fld) (v : ℕ) (i : ℕ) (j : ℕ) (h : Kept q o s) : Kept q o (State.swClear s f v i j) := by simp +contextual (maxDischargeDepth := 200) [State.swClear, *]

@[simp] theorem State.takeFree_kept {s : State} (m : ℕ) (h : Kept q o s) : Kept q o (State.takeFree s m).2 := by simp +contextual (maxDischargeDepth := 200) [State.takeFree, *]

@[simp] theorem State.emit_kept {s : State} (o0 : Out) (h : Kept q o s) : Kept q o (State.emit s o0) := by
  obtain ⟨hp, ho, hs, hr, hb⟩ := h
  exact ⟨hp, ho.trans (List.suffix_cons _ _), hs, hr, hb⟩

@[simp] theorem State.setPf_kept {s : State} (p : ℕ) (f : PfSt) (h : Kept q o s) : Kept q o (State.setPf s p f) := by simp +contextual (maxDischargeDepth := 200) [State.setPf, *]

@[simp] theorem State.emitReads_kept {s : State} (p : ℕ) (addr : ℕ) (len : ℕ) (h : Kept q o s) : Kept q o (State.emitReads s p addr len) := by simp +contextual (maxDischargeDepth := 200) [State.emitReads, *]

@[simp] theorem State.setSq_kept {s : State} (n : ℕ) (q0 : SqSt) (h : Kept q o s) : Kept q o (State.setSq s n q0) := by simp +contextual (maxDischargeDepth := 200) [State.setSq, *]

@[simp] theorem State.setEq_kept {s : State} (n : ℕ) (q0 : EqSt) (h : Kept q o s) (hq : q0.share.length ≤ 256) : Kept q o (State.setEq s n q0) := by
  obtain ⟨hp, ho, hs, hr, hb1, hb2, hb3⟩ := h
  refine ⟨hp, ho, ?_, hr, hb1, fun e he => ?_, hb3⟩
  · simp only [State.storesWf, State.setEq] at *
    simp_all [wf_tput]
  · rcases mem_tput he with rfl | he
    · exact hq
    · exact hb2 e he

/-- A ring's share of the staging buffer is within its bound. -/
theorem Kept.share {s : State} (h : Kept q o s) (n : ℕ) : (s.eqs n).share.length ≤ 256 := by
  obtain ⟨-, -, -, -, -, hb2, -⟩ := h
  unfold State.eqs
  rcases tget_mem_or EqSt.init s.eq n with he | he
  · exact hb2 _ he
  · rw [he]; exact Nat.zero_le _

theorem Kept.holdover {s : State} (h : Kept q o s) : s.holdover.length ≤ 256 := h.2.2.2.2.1
theorem Kept.commits {s : State} (h : Kept q o s) : s.commits.length ≤ 8 := h.2.2.2.2.2.2

@[simp] theorem State.setBoomed_kept {s : State} (u : ℕ) (b : Bool) (h : Kept q o s) : Kept q o (State.setBoomed s u b) := by simp +contextual (maxDischargeDepth := 200) [State.setBoomed, *]

@[simp] theorem State.setLaid_kept {s : State} (u : ℕ) (b : Bool) (h : Kept q o s) : Kept q o (State.setLaid s u b) := by simp +contextual (maxDischargeDepth := 200) [State.setLaid, *]

@[simp] theorem State.signal_kept {s : State} (p : ℕ) (v : ℕ) (h : Kept q o s) : Kept q o (State.signal s p v) := by simp +contextual (maxDischargeDepth := 200) [State.signal, *]

theorem kept_holdover {s : State} (v : List (Nat × Rec)) (h : Kept q o s) (hv : v.length ≤ 256) : Kept q o { s with holdover := v } := by
  obtain ⟨hp, ho, hs, hr, hb1, hb2, hb3⟩ := h
  exact ⟨hp, ho, hs, hr, hv, hb2, hb3⟩

theorem kept_commits {s : State} (v : List Commit) (h : Kept q o s) (hv : v.length ≤ 8) : Kept q o { s with commits := v } := by
  obtain ⟨hp, ho, hs, hr, hb1, hb2, hb3⟩ := h
  exact ⟨hp, ho, hs, hr, hb1, hb2, hv⟩

@[simp] theorem State.produce_kept {s : State} (n : ℕ) (r : Rec) (h : Kept q o s) : Kept q o (State.produce s n r) := by
  have hsh := h.share n
  unfold State.produce
  dsimp only
  split
  · rename_i hc
    refine kept_holdover _ h ?_
    simp only [Bool.and_eq_true, decide_eq_true_eq] at hc
    simp only [List.length_append, List.length_cons, List.length_nil]
    omega
  · split
    · refine State.setEq_kept _ _ h ?_
      simp only [List.length_append, List.length_cons, List.length_nil]
      omega
    · simp (maxDischargeDepth := 200) [h, hsh]

@[simp] theorem State.complete_kept {s : State} (j : Job) (status : ℕ) (data : ℕ) (h : Kept q o s) : Kept q o (State.complete s j status data) := by simp +contextual (maxDischargeDepth := 200) [State.complete, *]

@[simp] theorem State.signalAfter_kept {s : State} (n : ℕ) (p : ℕ) (v : ℕ) (h : Kept q o s) : Kept q o (State.signalAfter s n p v) := by
  have hsh := h.share n
  unfold State.signalAfter
  dsimp only
  split <;> simp (maxDischargeDepth := 200) [h, hsh]

@[simp] theorem State.sigStep_kept {s : State} (n : ℕ) (h : Kept q o s) : Kept q o (State.sigStep s n) := by
  have hsh := h.share n
  exact kept_foldl _ _ (fun s b h => by simp [h]) (State.setEq_kept _ _ h hsh)

theorem State.start_kept {s : State} (n : ℕ) (opc : ℕ) (h : Kept q o s) {j : Job} {u : State} (e : s.start n opc = some (j, u)) :
    Kept q o u := by
  unfold State.start at e
  dsimp only at e
  split at e
  · cases e
  · split at e
    · cases e
      simp [h]
    · cases e

@[simp] theorem State.withDesc_kept {s : State} (n : ℕ) (opc : ℕ) (k : Job → State → State) (h_k : ∀ y0 y1, Kept q o y1 → Kept q o (k y0 y1)) (h : Kept q o s) : Kept q o (State.withDesc s n opc k) := by
  unfold State.withDesc
  split
  · exact h
  · rename_i e
    exact h_k _ _ (State.start_kept n opc h e)

@[simp] theorem State.staged_kept {s : State} (base : ℕ) (k : State → State) (h_k : ∀ y0, Kept q o y0 → Kept q o (k y0)) (h : Kept q o s) : Kept q o (State.staged s base k) := by simp +contextual (maxDischargeDepth := 200) [State.staged, *]

@[simp] theorem State.qset_kept {s : State} (f : Fld) (v : ℕ) (i : ℕ) (j : ℕ) (h : Kept q o s) : Kept q o (State.qset s f v i j) := by
  unfold State.qset
  refine kept_commits _ (State.wr_kept _ _ _ _ (kept_quay _ h trising_tput)) ?_
  simp only [List.length_map]
  exact (State.wr_kept _ _ _ _ (kept_quay _ h trising_tput)).commits

end Sys2Proof.Machine
end

