-- ==== Sys2Proof/Laws/KeptUnitOps.lean ====
section
/-! SUPPORT. What the operations of UnitOps.lean keep. -/

namespace Sys2Proof.Machine

set_option Elab.async false
set_option linter.unusedTactic false
set_option linter.unreachableTactic false

variable {q : List Instr} {o : List Out}

@[simp] theorem State.setDrv_kept {s : State} (n : ℕ) (d : Drv) (h : Kept q o s) : Kept q o (State.setDrv s n d) := by simp +contextual (maxDischargeDepth := 200) [State.setDrv, *]

@[simp] theorem State.setBus_kept {s : State} (g : ℕ) (b : BusGrp) (h : Kept q o s) : Kept q o (State.setBus s g b) := by simp +contextual (maxDischargeDepth := 200) [State.setBus, *]

@[simp] theorem State.setMot_kept {s : State} (m : ℕ) (x : Mot) (h : Kept q o s) : Kept q o (State.setMot s m x) := by simp +contextual (maxDischargeDepth := 200) [State.setMot, *]

@[simp] theorem State.setStp_kept {s : State} (k : ℕ) (x : Stp) (h : Kept q o s) : Kept q o (State.setStp s k x) := by simp +contextual (maxDischargeDepth := 200) [State.setStp, *]

@[simp] theorem State.takeThr_kept {s : State} (u : ℕ) (h : Kept q o s) : Kept q o (State.takeThr s u) := by simp +contextual (maxDischargeDepth := 200) [State.takeThr, *]

@[simp] theorem State.motComplete_kept {s : State} (m : ℕ) (reason : ℕ) (h : Kept q o s) : Kept q o (State.motComplete s m reason) := by unfold State.motComplete; (try dsimp only); split <;> simp +contextual (maxDischargeDepth := 200) [*]

@[simp] theorem State.checkStops_kept {s : State} (h : Kept q o s) : Kept q o (State.checkStops s) := by simp +contextual (maxDischargeDepth := 200) [State.checkStops, *]

@[simp] theorem State.motIdle_kept {s : State} (m : ℕ) (reason : ℕ) (h : Kept q o s) : Kept q o (State.motIdle s m reason) := by simp +contextual (maxDischargeDepth := 200) [State.motIdle, *]

@[simp] theorem State.motHalt_kept {s : State} (m : ℕ) (reason : ℕ) (h : Kept q o s) : Kept q o (State.motHalt s m reason) := by simp +contextual (maxDischargeDepth := 200) [State.motHalt, *]

@[simp] theorem State.motStopping_kept {s : State} (m : ℕ) (reason : ℕ) (h : Kept q o s) : Kept q o (State.motStopping s m reason) := by simp +contextual (maxDischargeDepth := 200) [State.motStopping, *]

@[simp] theorem State.drvOff_kept {s : State} (n : ℕ) (h : Kept q o s) : Kept q o (State.drvOff s n) := by simp +contextual (maxDischargeDepth := 200) [State.drvOff, *]

@[simp] theorem State.drvHalt_kept {s : State} (n : ℕ) (off : Bool) (h : Kept q o s) : Kept q o (State.drvHalt s n off) := by simp +contextual (maxDischargeDepth := 200) [State.drvHalt, *]

@[simp] theorem State.drvTrip_kept {s : State} (n : ℕ) (src : ℕ) (h : Kept q o s) : Kept q o (State.drvTrip s n src) := by simp +contextual (maxDischargeDepth := 200) [State.drvTrip, *]

@[simp] theorem State.motStop_kept {s : State} (m : ℕ) (reason : ℕ) (h : Kept q o s) : Kept q o (State.motStop s m reason) := by simp +contextual (maxDischargeDepth := 200) [State.motStop, *]

@[simp] theorem State.motStopNow_kept {s : State} (m : ℕ) (reason : ℕ) (h : Kept q o s) : Kept q o (State.motStopNow s m reason) := by simp +contextual (maxDischargeDepth := 200) [State.motStopNow, *]

@[simp] theorem State.stpOff_kept {s : State} (k : ℕ) (h : Kept q o s) : Kept q o (State.stpOff s k) := by simp +contextual (maxDischargeDepth := 200) [State.stpOff, *]

@[simp] theorem State.stpHalt_kept {s : State} (k : ℕ) (reason : ℕ) (h : Kept q o s) : Kept q o (State.stpHalt s k reason) := by simp +contextual (maxDischargeDepth := 200) [State.stpHalt, *]

@[simp] theorem State.stpTrip_kept {s : State} (k : ℕ) (src : ℕ) (h : Kept q o s) : Kept q o (State.stpTrip s k src) := by simp +contextual (maxDischargeDepth := 200) [State.stpTrip, *]

@[simp] theorem State.setStn_kept {s : State} (n : ℕ) (x : Stn) (h : Kept q o s) : Kept q o (State.setStn s n x) := by simp +contextual (maxDischargeDepth := 200) [State.setStn, *]

@[simp] theorem State.setBl_kept {s : State} (n : ℕ) (x : Bl) (h : Kept q o s) : Kept q o (State.setBl s n x) := by simp +contextual (maxDischargeDepth := 200) [State.setBl, *]

@[simp] theorem State.baseLost_kept {s : State} (n : ℕ) (h : Kept q o s) : Kept q o (State.baseLost s n) := by simp +contextual (maxDischargeDepth := 200) [State.baseLost, *]

@[simp] theorem State.setCrx_kept {s : State} (c : Crossing) (h : Kept q o s) : Kept q o (State.setCrx s c) := by simp +contextual (maxDischargeDepth := 200) [State.setCrx, *]

@[simp] theorem State.defect_kept {s : State} (crx : ℕ) (stn : ℕ) (kind : ℕ) (a : ℕ) (b : ℕ) (h : Kept q o s) : Kept q o (State.defect s crx stn kind a b) := by unfold State.defect; (try dsimp only); split <;> simp +contextual (maxDischargeDepth := 200) [*]

@[simp] theorem State.stnStop_kept {s : State} (n : ℕ) (cause : ℕ) (h : Kept q o s) : Kept q o (State.stnStop s n cause) := by simp +contextual (maxDischargeDepth := 200) [State.stnStop, *]

end Sys2Proof.Machine
end

