-- ==== Sys2Proof/Laws/KeptFaultCore.lean ====
section
/-! SUPPORT. What the operations of FaultCore.lean keep. -/

namespace Sys2Proof.Machine

set_option Elab.async false
set_option linter.unusedTactic false
set_option linter.unreachableTactic false

variable {q : List Instr} {o : List Out}

@[simp] theorem State.setCause_kept {s : State} (src : ℕ) (unit : ℕ) (on : Bool) (inst : ℕ) (h : Kept q o s) : Kept q o (State.setCause s src unit on inst) := by simp +contextual (maxDischargeDepth := 200) [State.setCause, *]

@[simp] theorem State.faultRecord_kept {s : State} (src : ℕ) (unit : ℕ) (inst : ℕ) (info : ℕ) (h : Kept q o s) : Kept q o (State.faultRecord s src unit inst info) := by unfold State.faultRecord; (try dsimp only); split <;> simp +contextual (maxDischargeDepth := 200) [*]

@[simp] theorem State.powerRec_kept {s : State} (kind : ℕ) (status : ℕ) (data : ℕ) (h : Kept q o s) : Kept q o (State.powerRec s kind status data) := by simp +contextual (maxDischargeDepth := 200) [State.powerRec, *]

@[simp] theorem State.collect_kept {s : State} (src : ℕ) (unit : ℕ) (inst : ℕ) (info : ℕ) (h : Kept q o s) : Kept q o (State.collect s src unit inst info) := by
  unfold State.collect; (try dsimp only)
  repeat' first
    | with_reducible assumption
    | (simp +contextual (maxDischargeDepth := 200) [*]; done)
    | split
    | (with_reducible apply kept_foldl; intro _ _ _)
    | (with_reducible apply kept_ite)
    | with_reducible apply State.faultRecord_kept
    | with_reducible apply State.raise_kept
    | with_reducible apply State.signal_kept
    | with_reducible apply State.wr_kept
    | with_reducible apply kept_lbDue
    | with_reducible apply kept_raisedAt
    | with_reducible apply kept_abCauses

end Sys2Proof.Machine
end

