-- ==== Sys2Proof/Laws/KeptCapOps.lean ====
section
/-! SUPPORT. What the operations of CapOps.lean keep. -/

namespace Sys2Proof.Machine

set_option Elab.async false
set_option linter.unusedTactic false
set_option linter.unreachableTactic false

variable {q : List Instr} {o : List Out}

@[simp] theorem State.setLoop_kept {s : State} (l : ℕ) (x : Loop) (h : Kept q o s) : Kept q o (State.setLoop s l x) := by simp +contextual (maxDischargeDepth := 200) [State.setLoop, *]

@[simp] theorem State.setCap_kept {s : State} (c : ℕ) (x : Cap) (h : Kept q o s) : Kept q o (State.setCap s c x) := by simp +contextual (maxDischargeDepth := 200) [State.setCap, *]

@[simp] theorem State.capRefresh_kept {s : State} (c : ℕ) (h : Kept q o s) : Kept q o (State.capRefresh s c) := by simp +contextual (maxDischargeDepth := 200) [State.capRefresh, *]

@[simp] theorem State.giveTally_kept {s : State} (c : ℕ) (h : Kept q o s) : Kept q o (State.giveTally s c) := by simp +contextual (maxDischargeDepth := 200) [State.giveTally, *]

@[simp] theorem State.capReport_kept {s : State} (c : ℕ) (kind : ℕ) (status : ℕ) (data : ℕ) (h : Kept q o s) : Kept q o (State.capReport s c kind status data) := by simp +contextual (maxDischargeDepth := 200) [State.capReport, *]

@[simp] theorem State.orphan_kept {s : State} (l : ℕ) (h : Kept q o s) : Kept q o (State.orphan s l) := by simp +contextual (maxDischargeDepth := 200) [State.orphan, *]

@[simp] theorem State.loopEnable_kept {s : State} (l : ℕ) (h : Kept q o s) : Kept q o (State.loopEnable s l) := by simp +contextual (maxDischargeDepth := 200) [State.loopEnable, *]

@[simp] theorem State.migrateTo_kept {s : State} (c : ℕ) (r : ℕ) (layup : Bool) (byBeats : Bool) (h : Kept q o s) : Kept q o (State.migrateTo s c r layup byBeats) := by simp +contextual (maxDischargeDepth := 200) [State.migrateTo, *]

@[simp] theorem State.migrate_kept {s : State} (c : ℕ) (byBeats : Bool) (h : Kept q o s) : Kept q o (State.migrate s c byBeats) := by
  unfold State.migrate; (try dsimp only)
  repeat' first
    | with_reducible assumption
    | (simp +contextual (maxDischargeDepth := 200) [*]; done)
    | split
    | (with_reducible apply kept_foldl; intro _ _ _)
    | (with_reducible apply kept_ite)
    | with_reducible apply State.capRefresh_kept
    | with_reducible apply State.capReport_kept
    | with_reducible apply State.collect_kept
    | with_reducible apply State.migrateTo_kept
    | with_reducible apply State.orphan_kept

end Sys2Proof.Machine
end

