-- ==== Sys2Proof/Laws/KeptHvOps.lean ====
section
/-! SUPPORT. What the operations of HvOps.lean keep. -/

namespace Sys2Proof.Machine

set_option Elab.async false
set_option linter.unusedTactic false
set_option linter.unreachableTactic false

variable {q : List Instr} {o : List Out}

@[simp] theorem State.setHv_kept {s : State} (h0 : ℕ) (x : Hv) (h : Kept q o s) : Kept q o (State.setHv s h0 x) := by simp +contextual (maxDischargeDepth := 200) [State.setHv, *]

@[simp] theorem State.setHst_kept {s : State} (h0 : ℕ) (st : ℕ) (h : Kept q o s) : Kept q o (State.setHst s h0 st) := by simp +contextual (maxDischargeDepth := 200) [State.setHst, *]

@[simp] theorem State.hvOff_kept {s : State} (h0 : ℕ) (h : Kept q o s) : Kept q o (State.hvOff s h0) := by simp +contextual (maxDischargeDepth := 200) [State.hvOff, *]

@[simp] theorem State.hvTrip_kept {s : State} (h0 : ℕ) (src : ℕ) (h : Kept q o s) : Kept q o (State.hvTrip s h0 src) := by simp +contextual (maxDischargeDepth := 200) [State.hvTrip, *]

@[simp] theorem State.hvRest_kept {s : State} (h0 : ℕ) (h : Kept q o s) : Kept q o (State.hvRest s h0) := by simp +contextual (maxDischargeDepth := 200) [State.hvRest, *]

@[simp] theorem State.hvZero_kept {s : State} (h0 : ℕ) (h : Kept q o s) : Kept q o (State.hvZero s h0) := by simp +contextual (maxDischargeDepth := 200) [State.hvZero, *]

@[simp] theorem State.hvLeave_kept {s : State} (h0 : ℕ) (h : Kept q o s) : Kept q o (State.hvLeave s h0) := by simp +contextual (maxDischargeDepth := 200) [State.hvLeave, *]

@[simp] theorem State.hvStart_kept {s : State} (h0 : ℕ) (h : Kept q o s) : Kept q o (State.hvStart s h0) := by simp +contextual (maxDischargeDepth := 200) [State.hvStart, *]

@[simp] theorem State.hvClear_kept {s : State} (h0 : ℕ) (src : ℕ) (h : Kept q o s) : Kept q o (State.hvClear s h0 src) := by simp +contextual (maxDischargeDepth := 200) [State.hvClear, *]

@[simp] theorem State.setHtr_kept {s : State} (k : ℕ) (x : Htr) (h : Kept q o s) : Kept q o (State.setHtr s k x) := by simp +contextual (maxDischargeDepth := 200) [State.setHtr, *]

@[simp] theorem State.htrQuiet_kept {s : State} (k : ℕ) (h : Kept q o s) : Kept q o (State.htrQuiet s k) := by simp +contextual (maxDischargeDepth := 200) [State.htrQuiet, *]

@[simp] theorem State.htrOff_kept {s : State} (k : ℕ) (h : Kept q o s) : Kept q o (State.htrOff s k) := by simp +contextual (maxDischargeDepth := 200) [State.htrOff, *]

@[simp] theorem State.htrDown_kept {s : State} (k : ℕ) (h : Kept q o s) : Kept q o (State.htrDown s k) := by simp +contextual (maxDischargeDepth := 200) [State.htrDown, *]

@[simp] theorem State.htrTrip_kept {s : State} (k : ℕ) (src : ℕ) (h : Kept q o s) : Kept q o (State.htrTrip s k src) := by simp +contextual (maxDischargeDepth := 200) [State.htrTrip, *]

@[simp] theorem State.htrStart_kept {s : State} (k : ℕ) (h : Kept q o s) : Kept q o (State.htrStart s k) := by simp +contextual (maxDischargeDepth := 200) [State.htrStart, *]

@[simp] theorem State.htrClear_kept {s : State} (k : ℕ) (src : ℕ) (h : Kept q o s) : Kept q o (State.htrClear s k src) := by simp +contextual (maxDischargeDepth := 200) [State.htrClear, *]

end Sys2Proof.Machine
end

