-- ==== Sys2Proof/Laws/KeptBoom.lean ====
section
/-! SUPPORT. What the operations of Boom.lean keep. -/

namespace Sys2Proof.Machine

set_option Elab.async false
set_option linter.unusedTactic false
set_option linter.unreachableTactic false

variable {q : List Instr} {o : List Out}

@[simp] theorem State.commitDone_kept {s : State} (j : Job) (us : ℕ) (status : ℕ) (data : ℕ) (h : Kept q o s) : Kept q o (State.commitDone s j us status data) := by simp +contextual (maxDischargeDepth := 200) [State.commitDone, *]

@[simp] theorem State.endCommit_kept {s : State} (c : Commit) (status : ℕ) (data : ℕ) (h : Kept q o s) : Kept q o (State.endCommit s c status data) := by
  unfold State.endCommit
  dsimp only
  generalize hs : (if status = St.ok then s else _) = s'
  have h' : Kept q o s' := by subst hs; simp +contextual (maxDischargeDepth := 200) [*]
  refine State.commitDone_kept _ _ _ _ (kept_commits _ h' ?_)
  exact (List.length_eraseP_le).trans h'.commits

@[simp] theorem State.fenceCommits_kept {s : State} (u : ℕ) (h : Kept q o s) : Kept q o (State.fenceCommits s u) := by simp +contextual (maxDischargeDepth := 200) [State.fenceCommits, *]

@[simp] theorem State.boomOutputs_kept {s : State} (u : ℕ) (h : Kept q o s) : Kept q o (State.boomOutputs s u) := by simp +contextual (maxDischargeDepth := 200) [State.boomOutputs, *]

@[simp] theorem State.boom_kept {s : State} (u : ℕ) (h : Kept q o s) : Kept q o (State.boom s u) := by simp +contextual (maxDischargeDepth := 200) [State.boom, *]

@[simp] theorem State.setFnode_kept {s : State} (p : ℕ) (a : ℕ) (x : FNode) (h : Kept q o s) : Kept q o (State.setFnode s p a x) := by simp +contextual (maxDischargeDepth := 200) [State.setFnode, *]

@[simp] theorem State.flRec_kept {s : State} (p : ℕ) (a : ℕ) (kind : ℕ) (status : ℕ) (data : ℕ) (h : Kept q o s) : Kept q o (State.flRec s p a kind status data) := by simp +contextual (maxDischargeDepth := 200) [State.flRec, *]

@[simp] theorem State.flRetire_kept {s : State} (p : ℕ) (a : ℕ) (h : Kept q o s) : Kept q o (State.flRetire s p a) := by simp +contextual (maxDischargeDepth := 200) [State.flRetire, *]

@[simp] theorem State.boomNode_kept {s : State} (port : ℕ) (node : ℕ) (h : Kept q o s) : Kept q o (State.boomNode s port node) := by simp +contextual (maxDischargeDepth := 200) [State.boomNode, *]

end Sys2Proof.Machine
end

