-- ==== Sys2Proof/Laws/KeptFaults.lean ====
section
/-! SUPPORT. What the operations of Faults.lean keep. -/

namespace Sys2Proof.Machine

set_option Elab.async false
set_option linter.unusedTactic false
set_option linter.unreachableTactic false

variable {q : List Instr} {o : List Out}

@[simp] theorem State.lenFall_kept {s : State} (n : ℕ) (h : Kept q o s) : Kept q o (State.lenFall s n) := by simp +contextual (maxDischargeDepth := 200) [State.lenFall, *]

@[simp] theorem State.lenOne_kept {s : State} (n : ℕ) (h : Kept q o s) : Kept q o (State.lenOne s n) := by simp +contextual (maxDischargeDepth := 200) [State.lenOne, *]

@[simp] theorem State.lensUpdate_kept {s : State} (h : Kept q o s) : Kept q o (State.lensUpdate s) := by simp +contextual (maxDischargeDepth := 200) [State.lensUpdate, *]

@[simp] theorem State.lenUpdate_kept {s : State} (n : ℕ) (h : Kept q o s) : Kept q o (State.lenUpdate s n) := by simp +contextual (maxDischargeDepth := 200) [State.lenUpdate, *]

@[simp] theorem State.tripsClear_kept {s : State} (src : ℕ) (h : Kept q o s) : Kept q o (State.tripsClear s src) := by simp +contextual (maxDischargeDepth := 200) [State.tripsClear, *]

@[simp] theorem State.faultStop_kept {s : State} (src : ℕ) (unit : ℕ) (h : Kept q o s) : Kept q o (State.faultStop s src unit) := by simp +contextual (maxDischargeDepth := 200) [State.faultStop, *]

@[simp] theorem State.raise_kept {s : State} (src : ℕ) (unit : ℕ) (inst : ℕ) (info : ℕ) (h : Kept q o s) : Kept q o (State.raise s src unit inst info) := by simp +contextual (maxDischargeDepth := 200) [State.raise, *]

@[simp] theorem State.raiseLive_kept {s : State} (src : ℕ) (unit : ℕ) (inst : ℕ) (info : ℕ) (h : Kept q o s) : Kept q o (State.raiseLive s src unit inst info) := by simp +contextual (maxDischargeDepth := 200) [State.raiseLive, *]

@[simp] theorem State.lockViol_kept {s : State} (off : ℕ) (src : ℕ) (h : Kept q o s) : Kept q o (State.lockViol s off src) := by simp +contextual (maxDischargeDepth := 200) [State.lockViol, *]

@[simp] theorem State.pfViol_kept {s : State} (off : ℕ) (bar : ℕ) (pf : ℕ) (write : Bool) (h : Kept q o s) : Kept q o (State.pfViol s off bar pf write) := by simp +contextual (maxDischargeDepth := 200) [State.pfViol, *]

end Sys2Proof.Machine
end

