-- ==== Sys2Proof/Laws/KeptOperands.lean ====
section
/-! SUPPORT. What the operations of Operands.lean keep. -/

namespace Sys2Proof.Machine

set_option Elab.async false
set_option linter.unusedTactic false
set_option linter.unreachableTactic false

variable {q : List Instr} {o : List Out}

@[simp] theorem State.access_kept {s : State} (src : Port) (off : ℕ) (write : Bool) (k : State → State) (h_k : ∀ y0, Kept q o y0 → Kept q o (k y0)) (h : Kept q o s) : Kept q o (State.access s src off write k) := by
  unfold State.access; (try dsimp only)
  repeat' first
    | with_reducible assumption
    | (simp +contextual (maxDischargeDepth := 200) [*]; done)
    | split
    | (with_reducible apply kept_foldl; intro _ _ _)
    | (with_reducible apply kept_ite)
    | with_reducible apply State.pfViol_kept
    | with_reducible apply State.wr_kept

end Sys2Proof.Machine
end

