-- ==== Sys2Proof/Laws/KeptCross.lean ====
section
/-! SUPPORT. What the operations of Cross.lean keep. -/

namespace Sys2Proof.Machine

set_option Elab.async false
set_option linter.unusedTactic false
set_option linter.unreachableTactic false

variable {q : List Instr} {o : List Out}

@[simp] theorem State.putEntry_kept {s : State} (i : ℕ) (e : TEntry) (arm : Bool) (h : Kept q o s) : Kept q o (State.putEntry s i e arm) := by simp +contextual (maxDischargeDepth := 200) [State.putEntry, *]

@[simp] theorem State.delEntry_kept {s : State} (i : ℕ) (h : Kept q o s) : Kept q o (State.delEntry s i) := by unfold State.delEntry; (try dsimp only); split <;> simp +contextual (maxDischargeDepth := 200) [*]

@[simp] theorem State.tideRec_kept {s : State} (i : ℕ) (e : TEntry) (status : ℕ) (data : ℕ) (h : Kept q o s) : Kept q o (State.tideRec s i e status data) := by simp +contextual (maxDischargeDepth := 200) [State.tideRec, *]

@[simp] theorem State.actionDefect_kept {s : State} (i : ℕ) (e : TEntry) (status : ℕ) (h : Kept q o s) : Kept q o (State.actionDefect s i e status) := by simp +contextual (maxDischargeDepth := 200) [State.actionDefect, *]

@[simp] theorem State.dropCommit_kept {s : State} (tag : ℕ) (status : ℕ) (h : Kept q o s) : Kept q o (State.dropCommit s tag status) := by unfold State.dropCommit; (try dsimp only); split <;> simp +contextual (maxDischargeDepth := 200) [*]

@[simp] theorem State.dropAction_kept {s : State} (e : TEntry) (status : ℕ) (h : Kept q o s) : Kept q o (State.dropAction s e status) := by simp +contextual (maxDischargeDepth := 200) [State.dropAction, *]

@[simp] theorem State.tideSettle_kept {s : State} (h : Kept q o s) : Kept q o (State.tideSettle s) := by simp +contextual (maxDischargeDepth := 200) [State.tideSettle, *]

@[simp] theorem State.dropOwned_kept {s : State} (crx : ℕ) (status : ℕ) (h : Kept q o s) : Kept q o (State.dropOwned s crx status) := by simp +contextual (maxDischargeDepth := 200) [State.dropOwned, *]

@[simp] theorem State.missOwned_kept {s : State} (crx : ℕ) (h : Kept q o s) : Kept q o (State.missOwned s crx) := by simp +contextual (maxDischargeDepth := 200) [State.missOwned, *]

@[simp] theorem State.budgetShow_kept {s : State} (h : Kept q o s) : Kept q o (State.budgetShow s) := by simp +contextual (maxDischargeDepth := 200) [State.budgetShow, *]

@[simp] theorem State.chartChange_kept {s : State} (h : Kept q o s) : Kept q o (State.chartChange s) := by simp +contextual (maxDischargeDepth := 200) [State.chartChange, *]

@[simp] theorem State.partRecs_kept {s : State} (c : Crossing) (status n k : ℕ) (ds : List ℕ) (h : Kept q o s) :
    Kept q o (State.partRecs s c status n k ds) := by
  induction ds generalizing s k with
  | nil => exact h
  | cons d ds ih => exact ih (k + 1) (State.produce_kept _ _ h)

@[simp] theorem State.crxRecord_kept {s : State} (c : Crossing) (status : ℕ) (data : ℕ) (h : Kept q o s) : Kept q o (State.crxRecord s c status data) := by simp +contextual (maxDischargeDepth := 200) [State.crxRecord, *]

@[simp] theorem State.setRlt_kept {s : State} (l : ℕ) (x : RLt) (h : Kept q o s) : Kept q o (State.setRlt s l x) := by simp +contextual (maxDischargeDepth := 200) [State.setRlt, *]

@[simp] theorem State.shareShow_kept {s : State} (n : ℕ) (h : Kept q o s) : Kept q o (State.shareShow s n) := by simp +contextual (maxDischargeDepth := 200) [State.shareShow, *]

@[simp] theorem State.feedDrop_kept {s : State} (n : ℕ) (crx : ℕ) (h : Kept q o s) : Kept q o (State.feedDrop s n crx) := by simp +contextual (maxDischargeDepth := 200) [State.feedDrop, *]

@[simp] theorem State.latchCrc_kept {s : State} (l : ℕ) (h : Kept q o s) : Kept q o (State.latchCrc s l) := by simp +contextual (maxDischargeDepth := 200) [State.latchCrc, *]

@[simp] theorem State.endLighters_kept {s : State} (crx : ℕ) (h : Kept q o s) : Kept q o (State.endLighters s crx) := by simp +contextual (maxDischargeDepth := 200) [State.endLighters, *]

@[simp] theorem State.partDone_kept {s : State} (crx : ℕ) (n : ℕ) (front : ℕ) (ahead : List ℕ) (how : ExpEnd) (h : Kept q o s) : Kept q o (State.partDone s crx n front ahead how) := by
  unfold State.partDone; (try dsimp only)
  repeat' first
    | with_reducible assumption
    | (simp +contextual (maxDischargeDepth := 200) [*]; done)
    | split
    | (with_reducible apply kept_foldl; intro _ _ _)
    | (with_reducible apply kept_ite)
    | with_reducible apply State.feedDrop_kept
    | with_reducible apply State.setCrx_kept

@[simp] theorem State.fTargetUpdate_kept {s : State} (n : ℕ) (h : Kept q o s) : Kept q o (State.fTargetUpdate s n) := by simp +contextual (maxDischargeDepth := 200) [State.fTargetUpdate, *]

@[simp] theorem State.afterExpo_kept {s : State} (n : ℕ) (h : Kept q o s) : Kept q o (State.afterExpo s n) := by simp +contextual (maxDischargeDepth := 200) [State.afterExpo, *]

@[simp] theorem State.endExpo_kept {s : State} (n : ℕ) (how : ExpEnd) (h : Kept q o s) : Kept q o (State.endExpo s n how) := by unfold State.endExpo; (try dsimp only); split <;> simp +contextual (maxDischargeDepth := 200) [*]

@[simp] theorem State.stopNow_kept {s : State} (n : ℕ) (h : Kept q o s) : Kept q o (State.stopNow s n) := by unfold State.stopNow; (try dsimp only); split <;> simp +contextual (maxDischargeDepth := 200) [*]

@[simp] theorem State.toDrafted_kept {s : State} (c : Crossing) (status : ℕ) (h : Kept q o s) : Kept q o (State.toDrafted s c status) := by simp +contextual (maxDischargeDepth := 200) [State.toDrafted, *]

@[simp] theorem State.abandonCore_kept {s : State} (c : Crossing) (cause : ℕ) (h : Kept q o s) : Kept q o (State.abandonCore s c cause) := by unfold State.abandonCore; (try dsimp only); split <;> simp +contextual (maxDischargeDepth := 200) [*]

@[simp] theorem State.localAbandon_kept {s : State} (c : Crossing) (cause : ℕ) (h : Kept q o s) : Kept q o (State.localAbandon s c cause) := by simp +contextual (maxDischargeDepth := 200) [State.localAbandon, *]

@[simp] theorem State.abandonCrx_kept {s : State} (crx : ℕ) (cause : ℕ) (h : Kept q o s) : Kept q o (State.abandonCrx s crx cause) := by unfold State.abandonCrx; (try dsimp only); split <;> simp +contextual (maxDischargeDepth := 200) [*]

@[simp] theorem State.abandonEnd_kept {s : State} (c : Crossing) (h : Kept q o s) : Kept q o (State.abandonEnd s c) := by simp +contextual (maxDischargeDepth := 200) [State.abandonEnd, *]

@[simp] theorem State.landEnd_kept {s : State} (c : Crossing) (h : Kept q o s) : Kept q o (State.landEnd s c) := by simp +contextual (maxDischargeDepth := 200) [State.landEnd, *]

@[simp] theorem State.jam_kept {s : State} (j : Crossing) (win : ℕ) (b : ℕ) (h : Kept q o s) : Kept q o (State.jam s j win b) := by
  unfold State.jam; (try dsimp only)
  repeat' first
    | with_reducible assumption
    | (simp +contextual (maxDischargeDepth := 200) [*]; done)
    | split
    | (with_reducible apply kept_foldl; intro _ _ _)
    | (with_reducible apply kept_ite)
    | with_reducible apply State.abandonCrx_kept
    | with_reducible apply State.defect_kept
    | with_reducible apply State.setCrx_kept
    | with_reducible apply kept_jams
    | with_reducible apply kept_segs

@[simp] theorem State.closeWin_kept {s : State} (crx : ℕ) (id : ℕ) (h : Kept q o s) : Kept q o (State.closeWin s crx id) := by
  unfold State.closeWin; (try dsimp only)
  repeat' first
    | with_reducible assumption
    | (simp +contextual (maxDischargeDepth := 200) [*]; done)
    | split
    | (with_reducible apply kept_foldl; intro _ _ _)
    | (with_reducible apply kept_ite)
    | with_reducible apply State.jam_kept
    | with_reducible apply State.setCrx_kept

@[simp] theorem State.edgeOutside_kept {s : State} (sensor : ℕ) (covered : Bool) (h : Kept q o s) : Kept q o (State.edgeOutside s sensor covered) := by unfold State.edgeOutside; (try dsimp only); split <;> simp +contextual (maxDischargeDepth := 200) [*]

@[simp] theorem State.satisfy_kept {s : State} (c : Crossing) (w : Win) (h : Kept q o s) : Kept q o (State.satisfy s c w) := by simp +contextual (maxDischargeDepth := 200) [State.satisfy, *]

@[simp] theorem State.sheetJudge_kept {s : State} (sensor : ℕ) (covered : Bool) (h : Kept q o s) : Kept q o (State.sheetJudge s sensor covered) := by unfold State.sheetJudge; (try dsimp only); split <;> simp +contextual (maxDischargeDepth := 200) [*]

end Sys2Proof.Machine
end

