-- ==== Sys2Proof/Laws/KeptEcc.lean ====
section
/-! SUPPORT. What the operations of Ecc.lean keep. -/

namespace Sys2Proof.Machine

set_option Elab.async false
set_option linter.unusedTactic false
set_option linter.unreachableTactic false

variable {q : List Instr} {o : List Out}

@[simp] theorem State.eccCe_kept {s : State} (st : ℕ) (w : ℕ) (h : Kept q o s) : Kept q o (State.eccCe s st w) := by simp +contextual (maxDischargeDepth := 200) [State.eccCe, *]

@[simp] theorem State.eccUe_kept {s : State} (st : ℕ) (w : ℕ) (h : Kept q o s) : Kept q o (State.eccUe s st w) := by simp +contextual (maxDischargeDepth := 200) [State.eccUe, *]

@[simp] theorem State.spoilEntry_kept {s : State} (i : ℕ) (v : ℕ) (h : Kept q o s) : Kept q o (State.spoilEntry s i v) := by unfold State.spoilEntry; (try dsimp only); split <;> simp +contextual (maxDischargeDepth := 200) [*]

@[simp] theorem State.spoilTable_kept {s : State} (w : ℕ) (v : ℕ) (h : Kept q o s) : Kept q o (State.spoilTable s w v) := by simp +contextual (maxDischargeDepth := 200) [State.spoilTable, *]

@[simp] theorem State.spoilWord_kept {s : State} (st : ℕ) (w : ℕ) (h : Kept q o s) : Kept q o (State.spoilWord s st w) := by unfold State.spoilWord; (try dsimp only); split <;> simp +contextual (maxDischargeDepth := 200) [*]

@[simp] theorem State.eccRead_kept {s : State} (st : ℕ) (w : ℕ) (h : Kept q o s) : Kept q o (State.eccRead s st w).2 := by
  unfold State.eccRead; (try dsimp only)
  repeat' first
    | with_reducible assumption
    | (simp +contextual (maxDischargeDepth := 200) [*]; done)
    | split
    | (with_reducible apply kept_foldl; intro _ _ _)
    | (with_reducible apply kept_ite)
    | with_reducible apply State.eccCe_kept
    | with_reducible apply State.eccUe_kept
    | with_reducible apply State.spoilWord_kept
    | with_reducible apply kept_flips_poison
    | with_reducible apply kept_flips

@[simp] theorem State.injectBits_kept {s : State} (st : ℕ) (h : Kept q o s) : Kept q o (State.injectBits s st).2 := by unfold State.injectBits; (try dsimp only); split <;> simp +contextual (maxDischargeDepth := 200) [*]

@[simp] theorem State.fabricTake_kept {s : State} (h : Kept q o s) : Kept q o (State.fabricTake s).2 := by simp +contextual (maxDischargeDepth := 200) [State.fabricTake, *]

@[simp] theorem State.loadDone_kept {s : State} (l : ℕ) (wrote : Option ℕ) (j : Job) (status : ℕ) (data : ℕ) (h : Kept q o s) : Kept q o (State.loadDone s l wrote j status data) := by unfold State.loadDone; (try dsimp only); split <;> simp +contextual (maxDischargeDepth := 200) [*]

@[simp] theorem State.loadRead_kept {s : State} (s0 : State) (l : ℕ) (j : Job) (src : ℕ) (len : ℕ) (data : ReadRes) (k : List Byte → State → State)
    (bad : State → State) (h0 : Kept q o s0) (h_k : ∀ y0 y1, Kept q o y1 → Kept q o (k y0 y1)) (h_bad : ∀ y1, Kept q o y1 → Kept q o (bad y1))
    (h : Kept q o s) : Kept q o (State.loadRead s s0 l j src len data k bad) := by
  have hf := State.fabricTake_kept (State.emitReads_kept j.pf src len h)
  unfold State.loadRead
  dsimp only
  split
  · exact h0
  · split
    · simp +contextual (maxDischargeDepth := 200) [h0, h]
    · split
      · simp +contextual (maxDischargeDepth := 200) [h_bad, h]
      · split
        · simp +contextual (maxDischargeDepth := 200) [h_bad, hf]
        · refine h_k _ _ ?_
          simp +contextual (maxDischargeDepth := 200) [hf]

@[simp] theorem State.eccWrite_kept {s : State} (st : ℕ) (w : ℕ) (h : Kept q o s) : Kept q o (State.eccWrite s st w) := by simp +contextual (maxDischargeDepth := 200) [State.eccWrite, *]

@[simp] theorem State.eccPart_kept {s : State} (st : ℕ) (w : ℕ) (h : Kept q o s) : Kept q o (State.eccPart s st w).2.2 := by unfold State.eccPart; (try dsimp only); split <;> simp +contextual (maxDischargeDepth := 200) [*]

@[simp] theorem State.upset_kept {s : State} (st : ℕ) (w : ℕ) (bits : List ℕ) (h : Kept q o s) : Kept q o (State.upset s st w bits) := by simp +contextual (maxDischargeDepth := 200) [State.upset, *]

@[simp] theorem State.tideEcc_kept {s : State} (w : ℕ) (h : Kept q o s) : Kept q o (State.tideEcc s w) := by
  unfold State.tideEcc; (try dsimp only)
  repeat' first
    | with_reducible assumption
    | (simp +contextual (maxDischargeDepth := 200) [*]; done)
    | split
    | (with_reducible apply kept_foldl; intro _ _ _)
    | (with_reducible apply kept_ite)
    | with_reducible apply State.abandonCrx_kept
    | with_reducible apply State.delEntry_kept
    | with_reducible apply State.dropAction_kept
    | with_reducible apply State.produce_kept

@[simp] theorem State.dotSetEcc_kept {s : State} (n : ℕ) (k : ℕ) (h : Kept q o s) : Kept q o (State.dotSetEcc s n k) := by simp +contextual (maxDischargeDepth := 200) [State.dotSetEcc, *]

@[simp] theorem State.dotRead_kept {s : State} (n : ℕ) (k : ℕ) (w : ℕ) (h : Kept q o s) : Kept q o (State.dotRead s n k w).2 := by simp +contextual (maxDischargeDepth := 200) [State.dotRead, *]

@[simp] theorem State.unitTableEcc_kept {s : State} (u : ℕ) (w : ℕ) (h : Kept q o s) : Kept q o (State.unitTableEcc s u w) := by simp +contextual (maxDischargeDepth := 200) [State.unitTableEcc, *]

@[simp] theorem State.tableRead_kept {s : State} (u : ℕ) (w : ℕ) (h : Kept q o s) : Kept q o (State.tableRead s u w).2 := by
  unfold State.tableRead; (try dsimp only)
  repeat' first
    | with_reducible assumption
    | (simp +contextual (maxDischargeDepth := 200) [*]; done)
    | split
    | (with_reducible apply kept_foldl; intro _ _ _)
    | (with_reducible apply kept_ite)
    | with_reducible apply State.unitTableEcc_kept

@[simp] theorem State.loopEcc_kept {s : State} (l : ℕ) (w : ℕ) (h : Kept q o s) : Kept q o (State.loopEcc s l w) := by simp +contextual (maxDischargeDepth := 200) [State.loopEcc, *]

end Sys2Proof.Machine
end

