-- ==== Sys2Proof/Laws/KeptHv.lean ====
section
/-! SUPPORT. What the operations of Hv.lean keep. -/

namespace Sys2Proof.Machine

set_option Elab.async false
set_option linter.unusedTactic false
set_option linter.unreachableTactic false

variable {q : List Instr} {o : List Out}

@[simp] theorem hvPwmPeriodEff_kept (h0 : ℕ) {s : State} (h : Kept q o s) : Kept q o (hvPwmPeriodEff h0 s) := by simp +contextual (maxDischargeDepth := 200) [hvPwmPeriodEff, *]

@[simp] theorem hvOverEff_kept (h0 : ℕ) (code : ℕ) {s : State} (h : Kept q o s) : Kept q o (hvOverEff h0 code s) := by simp +contextual (maxDischargeDepth := 200) [hvOverEff, *]

@[simp] theorem hvArcEff_kept (h0 : ℕ) {s : State} (h : Kept q o s) : Kept q o (hvArcEff h0 s) := by simp +contextual (maxDischargeDepth := 200) [hvArcEff, *]

@[simp] theorem arcBlankEndEff_kept (h0 : ℕ) {s : State} (h : Kept q o s) : Kept q o (arcBlankEndEff h0 s) := by simp +contextual (maxDischargeDepth := 200) [arcBlankEndEff, *]

@[simp] theorem hvRearmEff_kept (src : Port) (h0 : ℕ) {s : State} (h : Kept q o s) : Kept q o (hvRearmEff src h0 s) := by simp +contextual (maxDischargeDepth := 200) [hvRearmEff, *]

@[simp] theorem State.hvStepTo_kept {s : State} (h0 : ℕ) (level : ℤ) (ramp : ℕ) (h : Kept q o s) : Kept q o (State.hvStepTo s h0 level ramp).2 := by unfold State.hvStepTo; (try dsimp only); split <;> simp +contextual (maxDischargeDepth := 200) [*]

@[simp] theorem State.setParam_kept {s : State} (l : ℕ) (i : ℕ) (v : ℤ) (h : Kept q o s) : Kept q o (State.setParam s l i v) := by simp +contextual (maxDischargeDepth := 200) [State.setParam, *]

@[simp] theorem State.hvReference_kept {s : State} (h0 : ℕ) (h : Kept q o s) : Kept q o (State.hvReference s h0) := by
  unfold State.hvReference; (try dsimp only)
  repeat' first
    | with_reducible assumption
    | (intro _ _ _; with_reducible assumption)
    | (with_reducible apply kept_foldl; intro _ _ _)
    | with_reducible apply kept_ite
    | with_reducible apply State.hvOff_kept
    | with_reducible apply State.setHv_kept
    | with_reducible apply State.setParam_kept
    | split
    | intro _ _ _
    | (intro hw; simp [hw]; done)

@[simp] theorem State.htrStepTo_kept {s : State} (k : ℕ) (arg : ℕ) (h : Kept q o s) : Kept q o (State.htrStepTo s k arg).2 := by unfold State.htrStepTo; (try dsimp only); split <;> simp +contextual (maxDischargeDepth := 200) [*]

@[simp] theorem State.htrPeriod_kept {s : State} (k : ℕ) (h : Kept q o s) : Kept q o (State.htrPeriod s k) := by simp +contextual (maxDischargeDepth := 200) [State.htrPeriod, *]

@[simp] theorem State.htrDue_kept {s : State} (k : ℕ) (h : Kept q o s) : Kept q o (State.htrDue s k) := by unfold State.htrDue; (try dsimp only); split <;> simp +contextual (maxDischargeDepth := 200) [*]

@[simp] theorem heaterHalfCycleEff_kept (k : ℕ) {s : State} (h : Kept q o s) : Kept q o (heaterHalfCycleEff k s) := by
  unfold heaterHalfCycleEff; (try dsimp only)
  repeat' first
    | with_reducible assumption
    | (intro _ _ _; with_reducible assumption)
    | (with_reducible apply kept_foldl; intro _ _ _)
    | with_reducible apply kept_ite
    | with_reducible apply State.cnt_kept
    | with_reducible apply State.htrDue_kept
    | with_reducible apply State.htrQuiet_kept
    | with_reducible apply State.raiseLive_kept
    | with_reducible apply State.setCause_kept
    | with_reducible apply State.setHtr_kept
    | with_reducible apply State.takeThr_kept
    | with_reducible apply State.wr_kept
    | split
    | intro _ _ _
    | (intro hw; simp [hw]; done)

@[simp] theorem heaterGateEndEff_kept (k : ℕ) {s : State} (h : Kept q o s) : Kept q o (heaterGateEndEff k s) := by simp +contextual (maxDischargeDepth := 200) [heaterGateEndEff, *]

@[simp] theorem htrRearmEff_kept (src : Port) (k : ℕ) {s : State} (h : Kept q o s) : Kept q o (htrRearmEff src k s) := by simp +contextual (maxDischargeDepth := 200) [htrRearmEff, *]

@[simp] theorem zcrossEdgeEff_kept {s : State} (h : Kept q o s) : Kept q o (zcrossEdgeEff s) := by unfold zcrossEdgeEff; (try dsimp only); split <;> simp +contextual (maxDischargeDepth := 200) [*]

@[simp] theorem mainsLostEff_kept {s : State} (h : Kept q o s) : Kept q o (mainsLostEff s) := by unfold mainsLostEff; (try dsimp only); split <;> simp +contextual (maxDischargeDepth := 200) [*]

end Sys2Proof.Machine
end

