-- ==== Sys2Proof/Laws/KeptCapstan.lean ====
section
/-! SUPPORT. What the operations of Capstan.lean keep. -/

namespace Sys2Proof.Machine

set_option Elab.async false
set_option linter.unusedTactic false
set_option linter.unreachableTactic false

variable {q : List Instr} {o : List Out}

@[simp] theorem State.release_kept {s : State} (rd : Readings) (l : ℕ) (h : Kept q o s) : Kept q o (State.release s rd l) := by
  unfold State.release
  split
  rename_i bad u e
  have hu : Kept q o u := by
    refine kept_of_eq (kept_foldl_snd _ _ _ (fun x b hx => ?_) h) e
    split
    · exact hx
    · exact State.eccRead_kept _ _ hx
  split <;> simp +contextual (maxDischargeDepth := 200) [hu]

@[simp] theorem loopSampleCompleteEff_kept (l : ℕ) {s : State} (h : Kept q o s) : Kept q o (loopSampleCompleteEff l s) := by
  unfold loopSampleCompleteEff
  split
  · exact h
  extract_lets x
  split
  · exact h
  rename_i p _
  extract_lets s1 s2 s3 s4 s5 s6
  have h1 : Kept q o s1 := by simp +contextual (maxDischargeDepth := 200) [s1, h]
  have h2 : Kept q o s2 := kept_lword _ h1 fun hw => wf_foldl _ (fun t i ht => wf_tput _ _ ht) _ hw
  have h3 : Kept q o s3 := by simp +contextual (maxDischargeDepth := 200) [s3, h2]
  have h4 : Kept q o s4 := by
    simp only [s4]
    split <;> simp +contextual (maxDischargeDepth := 200) [h3]
  have h5 : Kept q o s5 := by simp +contextual (maxDischargeDepth := 200) [s5, h4]
  simp +contextual (maxDischargeDepth := 200) [s6, h, h5]

@[simp] theorem State.missSample_kept {s : State} (l : ℕ) (h : Kept q o s) : Kept q o (State.missSample s l) := by simp +contextual (maxDischargeDepth := 200) [State.missSample, *]

@[simp] theorem State.endSample_kept {s : State} (l : ℕ) (h : Kept q o s) : Kept q o (State.endSample s l) := by unfold State.endSample; (try dsimp only); split <;> simp +contextual (maxDischargeDepth := 200) [*]

@[simp] theorem State.applyHeld_kept {s : State} (l : ℕ) (h0 : Held) (h : Kept q o s) : Kept q o (State.applyHeld s l h0) := by
  unfold State.applyHeld
  split
  · simp +contextual (maxDischargeDepth := 200) [h]
  · extract_lets s1
    have h1 : Kept q o s1 := by simp +contextual (maxDischargeDepth := 200) [s1, h]
    exact State.wr_kept _ _ _ _ (kept_lword _ h1 fun hw => wf_foldl _ (fun t i ht => wf_tput _ _ ht) _ hw)
  · split
    · exact h
    · refine kept_foldl _ _ (fun s b h => ?_) h
      extract_lets bl sb ofs pw bump s1
      have hb : ∀ s k, Kept q o s → Kept q o (bump s k) := fun s k h => by simp +contextual (maxDischargeDepth := 200) [bump, h]
      have h1 : Kept q o s1 := by
        simp only [s1]
        split
        · exact hb _ _ h
        · exact h
      split
      · split
        · exact hb _ _ h1
        · exact h1
      · exact h

@[simp] theorem State.loopWrite_kept {s : State} (l : ℕ) (hs : List Held) (h : Kept q o s) : Kept q o (State.loopWrite s l hs) := by unfold State.loopWrite; (try dsimp only); split <;> simp +contextual (maxDischargeDepth := 200) [*]

@[simp] theorem State.flushHeld_kept {s : State} (l : ℕ) (h : Kept q o s) : Kept q o (State.flushHeld s l) := by simp +contextual (maxDischargeDepth := 200) [State.flushHeld, *]

@[simp] theorem State.goStale_kept {s : State} (c : ℕ) (h : Kept q o s) : Kept q o (State.goStale s c) := by simp +contextual (maxDischargeDepth := 200) [State.goStale, *]

@[simp] theorem State.judgeCap_kept {s : State} (c : ℕ) (beat : Bool) (work : Bool) (miss : Bool) (h : Kept q o s) : Kept q o (State.judgeCap s c beat work miss).2 := by
  unfold State.judgeCap; (try dsimp only)
  repeat' first
    | with_reducible assumption
    | (simp +contextual (maxDischargeDepth := 200) [*]; done)
    | split
    | (with_reducible apply kept_foldl; intro _ _ _)
    | (with_reducible apply kept_ite)
    | with_reducible apply State.setCap_kept
    | with_reducible apply State.wb_kept

@[simp] theorem State.capDeath_kept {s : State} (c : ℕ) (byBeats : Bool) (h : Kept q o s) : Kept q o (State.capDeath s c byBeats) := by simp +contextual (maxDischargeDepth := 200) [State.capDeath, *]

@[simp] theorem capstanPeriodEff_kept (beats : ℕ) (rd : Readings) {s : State} (h : Kept q o s) : Kept q o (capstanPeriodEff beats rd s) := by
  unfold capstanPeriodEff
  split
  · exact h
  extract_lets k s1 s0 s2 missed worked
  have h1 : Kept q o s1 := kept_capAt _ h
  have h2 : Kept q o s2 := kept_foldl _ _ (fun s l h => State.endSample_kept _ h) h1
  clear_value s2 missed worked
  split
  rename_i dead u e
  have hu : Kept q o u := by
    refine kept_of_eq ?_ e
    refine kept_foldl_snd _ _ _ (fun x b hx => ?_) h2
    extract_lets y
    have hy : Kept q o y := hx
    split
    · exact hx
    · split
      · split
        · exact State.goStale_kept _ hy
        · exact hy
      · split
        · rename_i e
          exact kept_of_eq (State.judgeCap_kept _ _ _ _ hy) e
        · rename_i e
          exact kept_of_eq (State.judgeCap_kept _ _ _ _ hy) e
  extract_lets s3 s4 s5 s6 s7
  have h3 : Kept q o s3 := by simp +contextual (maxDischargeDepth := 200) [s3, hu]
  have h4 : Kept q o s4 := by simp +contextual (maxDischargeDepth := 200) [s4, h3]
  have h5 : Kept q o s5 := kept_foldl _ _ (fun s l h => State.flushHeld_kept _ h) h4
  have h6 : Kept q o s6 := kept_foldl _ _ (fun s l h => State.hvReference_kept _ h) h5
  have h7 : Kept q o s7 := by simp +contextual (maxDischargeDepth := 200) [s7, h6]
  refine kept_foldl _ _ (fun s b h => ?_) h7
  split
  · exact State.release_kept _ _ h
  · exact h

@[simp] theorem staleEff_kept (c : ℕ) {s : State} (h : Kept q o s) : Kept q o (staleEff c s) := by simp +contextual (maxDischargeDepth := 200) [staleEff, *]

@[simp] theorem State.tableWordEcc_kept {s : State} (w : ℕ) (h : Kept q o s) : Kept q o (State.tableWordEcc s w) := by simp +contextual (maxDischargeDepth := 200) [State.tableWordEcc, *]

@[simp] theorem State.tableWrite_kept {s : State} (wordOf : ℕ → ℕ) (per : ℕ) (lo : ℕ) (n : ℕ) (clear : ℕ → State → State) (h_clear : ∀ y0 y1, Kept q o y1 → Kept q o (clear y0 y1)) (h : Kept q o s) : Kept q o (State.tableWrite s wordOf per lo n clear) := by simp +contextual (maxDischargeDepth := 200) [State.tableWrite, *]

@[simp] theorem lawLoadEff_kept (n : ℕ) (data : ReadRes) {s0 : State} (h : Kept q o s0) : Kept q o (lawLoadEff n data s0) := by
  refine State.withDesc_kept _ _ _ (fun j s h => ?_) h
  extract_lets first cnt src
  split
  · simp +contextual (maxDischargeDepth := 200) [h]
  split
  · simp +contextual (maxDischargeDepth := 200) [h]
  · refine State.loadRead_kept _ _ _ _ _ _ _ _ ‹_› (fun bs s h => ?_) (fun s h => h) h
    extract_lets bl
    split
    · simp +contextual (maxDischargeDepth := 200) [h]
    · split
      · simp +contextual (maxDischargeDepth := 200) [h]
      · refine State.loadDone_kept _ _ _ _ _ (kept_block _ ?_ fun hw => wf_tputs _ _ hw)
        exact State.tableWrite_kept _ _ _ _ _ (fun w s h => kept_block _ h fun hw => wf_tputs _ _ hw) h

@[simp] theorem lawParamSetEff_kept (n : ℕ) (data : ReadRes) {s0 : State} (h : Kept q o s0) : Kept q o (lawParamSetEff n data s0) := by
  unfold lawParamSetEff; (try dsimp only)
  repeat' first
    | with_reducible assumption
    | (simp +contextual (maxDischargeDepth := 200) [*]; done)
    | split
    | (with_reducible apply kept_foldl; intro _ _ _)
    | (with_reducible apply kept_ite)
    | with_reducible apply State.cnt_kept
    | with_reducible apply State.complete_kept
    | with_reducible apply State.loadDone_kept
    | with_reducible apply State.loadRead_kept
    | with_reducible apply State.loopWrite_kept
    | with_reducible apply State.withDesc_kept

@[simp] theorem ffTableLoadEff_kept (n : ℕ) (data : ReadRes) {s0 : State} (h : Kept q o s0) : Kept q o (ffTableLoadEff n data s0) := by
  unfold ffTableLoadEff; (try dsimp only)
  repeat' first
    | with_reducible assumption
    | (simp +contextual (maxDischargeDepth := 200) [*]; done)
    | split
    | (with_reducible apply kept_foldl; intro _ _ _)
    | (with_reducible apply kept_ite)
    | with_reducible apply State.complete_kept
    | with_reducible apply State.eccWrite_kept
    | with_reducible apply State.loadDone_kept
    | with_reducible apply State.loadRead_kept
    | with_reducible apply State.withDesc_kept
    | with_reducible apply kept_ff

@[simp] theorem State.lawParamWrite_kept {s : State} (l : ℕ) (arg : ℕ) (h : Kept q o s) : Kept q o (State.lawParamWrite s l arg) := by simp +contextual (maxDischargeDepth := 200) [State.lawParamWrite, *]

end Sys2Proof.Machine
end

