-- ==== Sys2Proof/Laws/KeptChopper.lean ====
section
/-! SUPPORT. What the operations of Chopper.lean keep. -/

namespace Sys2Proof.Machine

set_option Elab.async false
set_option linter.unusedTactic false
set_option linter.unreachableTactic false

variable {q : List Instr} {o : List Out}

@[simp] theorem State.setCoil_kept {s : State} (k : ℕ) (b : Bool) (c : Coil) (h : Kept q o s) : Kept q o (State.setCoil s k b c) := by simp +contextual (maxDischargeDepth := 200) [State.setCoil, *]

@[simp] theorem State.coilOn_kept {s : State} (k : ℕ) (b : Bool) (h : Kept q o s) : Kept q o (State.coilOn s k b) := by simp +contextual (maxDischargeDepth := 200) [State.coilOn, *]

@[simp] theorem State.coilOff_kept {s : State} (k : ℕ) (b : Bool) (allFast : Bool) (h : Kept q o s) : Kept q o (State.coilOff s k b allFast) := by simp +contextual (maxDischargeDepth := 200) [State.coilOff, *]

@[simp] theorem State.coilSample_kept {s : State} (k : ℕ) (b : Bool) (h : Kept q o s) : Kept q o (State.coilSample s k b) := by simp +contextual (maxDischargeDepth := 200) [State.coilSample, *]

end Sys2Proof.Machine
end

