-- ==== Sys2Proof/Laws/KeptMotion.lean ====
section
/-! SUPPORT. What the operations of Motion.lean keep. -/

namespace Sys2Proof.Machine

set_option Elab.async false
set_option linter.unusedTactic false
set_option linter.unreachableTactic false

variable {q : List Instr} {o : List Out}

@[simp] theorem State.catchPulses_kept {s : State} (n : ℕ) (h : Kept q o s) : Kept q o (State.catchPulses s n) := by simp +contextual (maxDischargeDepth := 200) [State.catchPulses, *]

@[simp] theorem State.searchPulses_kept {s : State} (n : ℕ) (h : Kept q o s) : Kept q o (State.searchPulses s n) := by simp +contextual (maxDischargeDepth := 200) [State.searchPulses, *]

@[simp] theorem State.drvBegin_kept {s : State} (n : ℕ) (fwd : Bool) (h : Kept q o s) : Kept q o (State.drvBegin s n fwd) := by simp +contextual (maxDischargeDepth := 200) [State.drvBegin, *]

@[simp] theorem State.segRead_kept {s : State} (m : ℕ) (k : ℕ) (h : Kept q o s) : Kept q o (State.segRead s m k) := by simp +contextual (maxDischargeDepth := 200) [State.segRead, *]

@[simp] theorem State.motAsk_kept {s : State} (m : ℕ) (src : MotSrc) (c : MotCmd) (h : Kept q o s) : Kept q o (State.motAsk s m src c) := by simp +contextual (maxDischargeDepth := 200) [State.motAsk, *]

@[simp] theorem State.motBegin_kept {s : State} (m : ℕ) (j : Option Job) (h : Kept q o s) : Kept q o (State.motBegin s m j) := by simp +contextual (maxDischargeDepth := 200) [State.motBegin, *]

@[simp] theorem State.profileStart_kept {s : State} (m : ℕ) (first : ℕ) (j : Option Job) (h : Kept q o s) : Kept q o (State.profileStart s m first j) := by simp +contextual (maxDischargeDepth := 200) [State.profileStart, *]

@[simp] theorem State.moveStart_kept {s : State} (m : ℕ) (target : ℕ) (vmax : ℕ) (accel : ℕ) (j : Option Job) (h : Kept q o s) : Kept q o (State.moveStart s m target vmax accel j) := by simp +contextual (maxDischargeDepth := 200) [State.moveStart, *]

@[simp] theorem State.homeStart_kept {s : State} (m : ℕ) (h0 : Home) (j : Option Job) (h : Kept q o s) : Kept q o (State.homeStart s m h0 j) := by simp +contextual (maxDischargeDepth := 200) [State.homeStart, *]

@[simp] theorem motionRunEff_kept (n : ℕ) {s : State} (h : Kept q o s) : Kept q o (motionRunEff n s) := by
  unfold motionRunEff; (try dsimp only)
  repeat' first
    | with_reducible assumption
    | (intro _ _ _; with_reducible assumption)
    | (with_reducible apply kept_foldl; intro _ _ _)
    | with_reducible apply kept_ite
    | with_reducible apply State.complete_kept
    | with_reducible apply State.motAsk_kept
    | with_reducible apply State.withDesc_kept
    | split
    | intro _ _ _
    | (intro hw; simp [hw]; done)

@[simp] theorem motionMoveEff_kept (n : ℕ) {s : State} (h : Kept q o s) : Kept q o (motionMoveEff n s) := by
  unfold motionMoveEff; (try dsimp only)
  repeat' first
    | with_reducible assumption
    | (intro _ _ _; with_reducible assumption)
    | (with_reducible apply kept_foldl; intro _ _ _)
    | with_reducible apply kept_ite
    | with_reducible apply State.complete_kept
    | with_reducible apply State.motAsk_kept
    | with_reducible apply State.withDesc_kept
    | split
    | intro _ _ _
    | (intro hw; simp [hw]; done)

@[simp] theorem motionStopEff_kept (n : ℕ) {s : State} (h : Kept q o s) : Kept q o (motionStopEff n s) := by simp +contextual (maxDischargeDepth := 200) [motionStopEff, *]

@[simp] theorem motionStopTimeoutEff_kept (n : ℕ) {s : State} (h : Kept q o s) : Kept q o (motionStopTimeoutEff n s) := by unfold motionStopTimeoutEff; (try dsimp only); split <;> simp +contextual (maxDischargeDepth := 200) [*]

@[simp] theorem motionHomeEff_kept (n : ℕ) (level : Bool) {s : State} (h : Kept q o s) : Kept q o (motionHomeEff n level s) := by
  unfold motionHomeEff; (try dsimp only)
  repeat' first
    | with_reducible assumption
    | (intro _ _ _; with_reducible assumption)
    | (with_reducible apply kept_foldl; intro _ _ _)
    | with_reducible apply kept_ite
    | with_reducible apply State.complete_kept
    | with_reducible apply State.motAsk_kept
    | with_reducible apply State.withDesc_kept
    | split
    | intro _ _ _
    | (intro hw; simp [hw]; done)

@[simp] theorem State.homeFail_kept {s : State} (m : ℕ) (h : Kept q o s) : Kept q o (State.homeFail s m) := by unfold State.homeFail; (try dsimp only); split <;> simp +contextual (maxDischargeDepth := 200) [*]

@[simp] theorem homeTimeoutEff_kept (m : ℕ) {s : State} (h : Kept q o s) : Kept q o (homeTimeoutEff m s) := by unfold homeTimeoutEff; (try dsimp only); split <;> simp +contextual (maxDischargeDepth := 200) [*]

@[simp] theorem inposTimeoutEff_kept (m : ℕ) {s : State} (h : Kept q o s) : Kept q o (inposTimeoutEff m s) := by unfold inposTimeoutEff; (try dsimp only); split <;> simp +contextual (maxDischargeDepth := 200) [*]

@[simp] theorem State.motSet_kept {s : State} (m : ℕ) (p : ℕ) (v : ℤ) (h : Kept q o s) : Kept q o (State.motSet s m p v) := by simp +contextual (maxDischargeDepth := 200) [State.motSet, *]

@[simp] theorem State.motCompute_kept {s : State} (m : ℕ) (h : Kept q o s) : Kept q o (State.motCompute s m) := by unfold State.motCompute; (try dsimp only); split <;> simp +contextual (maxDischargeDepth := 200) [*]

@[simp] theorem State.motFollow_kept {s : State} (m : ℕ) (h : Kept q o s) : Kept q o (State.motFollow s m) := by simp +contextual (maxDischargeDepth := 200) [State.motFollow, *]

@[simp] theorem State.motAdvance_kept {s : State} (m : ℕ) (h : Kept q o s) : Kept q o (State.motAdvance s m) := by simp +contextual (maxDischargeDepth := 200) [State.motAdvance, *]

@[simp] theorem State.motLimit_kept {s : State} (m : ℕ) (h : Kept q o s) : Kept q o (State.motLimit s m) := by simp +contextual (maxDischargeDepth := 200) [State.motLimit, *]

@[simp] theorem State.motFrom_kept {s : State} (m : ℕ) (h : Kept q o s) : Kept q o (State.motFrom s m) := by simp +contextual (maxDischargeDepth := 200) [State.motFrom, *]

@[simp] theorem State.segBegin_kept {s : State} (m : ℕ) (k : ℕ) (h : Kept q o s) : Kept q o (State.segBegin s m k) := by simp +contextual (maxDischargeDepth := 200) [State.segBegin, *]

@[simp] theorem State.cruise_kept {s : State} (m : ℕ) (h : Kept q o s) : Kept q o (State.cruise s m) := by simp +contextual (maxDischargeDepth := 200) [State.cruise, *]

@[simp] theorem State.segZero_kept (m k : ℕ) {s : State} (h : Kept q o s) : Kept q o (State.segZero m k s) := by
  induction k generalizing s with
  | zero => simp +contextual (maxDischargeDepth := 200) [State.segZero, h]
  | succ k ih =>
    unfold State.segZero
    dsimp only
    split
    · exact h
    · split
      · simp +contextual (maxDischargeDepth := 200) [h]
      · exact ih (State.segBegin_kept _ _ h)

@[simp] theorem State.segEnd_kept {s : State} (m : ℕ) (h : Kept q o s) : Kept q o (State.segEnd s m) := by
  unfold State.segEnd; (try dsimp only)
  repeat' first
    | with_reducible assumption
    | (intro _ _ _; with_reducible assumption)
    | (with_reducible apply kept_foldl; intro _ _ _)
    | with_reducible apply kept_ite
    | with_reducible apply State.cruise_kept
    | with_reducible apply State.motIdle_kept
    | with_reducible apply State.segBegin_kept
    | with_reducible apply State.segZero_kept
    | with_reducible apply State.setMot_kept
    | split
    | intro _ _ _
    | (intro hw; simp [hw]; done)

@[simp] theorem State.moveEnd_kept {s : State} (m : ℕ) (h : Kept q o s) : Kept q o (State.moveEnd s m) := by
  unfold State.moveEnd; (try dsimp only)
  repeat' first
    | with_reducible assumption
    | (simp +contextual (maxDischargeDepth := 200) [*]; done)
    | split
    | (with_reducible apply kept_foldl; intro _ _ _)
    | (with_reducible apply kept_ite)
    | with_reducible apply State.complete_kept
    | with_reducible apply State.motIdle_kept
    | with_reducible apply State.setMot_kept

@[simp] theorem State.homeNext_kept {s : State} (m : ℕ) (h : Kept q o s) : Kept q o (State.homeNext s m) := by
  unfold State.homeNext; (try dsimp only)
  repeat' first
    | with_reducible assumption
    | (simp +contextual (maxDischargeDepth := 200) [*]; done)
    | split
    | (with_reducible apply kept_foldl; intro _ _ _)
    | (with_reducible apply kept_ite)
    | with_reducible apply State.complete_kept
    | with_reducible apply State.motFrom_kept
    | with_reducible apply State.motIdle_kept
    | with_reducible apply State.setMot_kept
    | with_reducible apply State.wr_kept

@[simp] theorem State.motBounds_kept {s : State} (m : ℕ) (h : Kept q o s) : Kept q o (State.motBounds s m) := by unfold State.motBounds; (try dsimp only); split <;> simp +contextual (maxDischargeDepth := 200) [*]

@[simp] theorem State.motShow_kept {s : State} (m : ℕ) (h : Kept q o s) : Kept q o (State.motShow s m) := by simp +contextual (maxDischargeDepth := 200) [State.motShow, *]

@[simp] theorem State.coilRefs_kept {s : State} (k : ℕ) (t0 : ℕ) (a : ℕ) (h : Kept q o s) : Kept q o (State.coilRefs s k t0 a) := by simp +contextual (maxDischargeDepth := 200) [State.coilRefs, *]

@[simp] theorem State.stpSample_kept {s : State} (k : ℕ) (h : Kept q o s) : Kept q o (State.stpSample s k) := by simp +contextual (maxDischargeDepth := 200) [State.stpSample, *]

@[simp] theorem motionSegLoadEff_kept (n : ℕ) (data : ReadRes) {s0 : State} (h : Kept q o s0) : Kept q o (motionSegLoadEff n data s0) := by
  refine State.withDesc_kept _ _ _ (fun j s h => ?_) h
  extract_lets first cnt
  split
  · simp +contextual (maxDischargeDepth := 200) [h]
  split
  · simp +contextual (maxDischargeDepth := 200) [h]
  · refine State.loadRead_kept _ _ _ _ _ _ _ _ ‹_› (fun bs s h => ?_) (fun s h => h) h
    extract_lets es
    split
    · simp +contextual (maxDischargeDepth := 200) [h]
    · split
      · simp +contextual (maxDischargeDepth := 200) [h]
      · refine State.loadDone_kept _ _ _ _ _ (kept_segs _ ?_ fun hw => wf_tputs _ _ hw)
        exact State.tableWrite_kept _ _ _ _ _ (fun w s h => kept_segs _ h fun hw => wf_tputs _ _ hw) h

end Sys2Proof.Machine
end

