-- ==== Sys2Proof/Laws/KeptLighter.lean ====
section
/-! SUPPORT. What the operations of Lighter.lean keep. -/

namespace Sys2Proof.Machine

set_option Elab.async false
set_option linter.unusedTactic false
set_option linter.unreachableTactic false

variable {q : List Instr} {o : List Out}

@[simp] theorem State.setXfers_kept {s : State} (l : ℕ) (q0 : List Xfer) (h : Kept q o s) : Kept q o (State.setXfers s l q0) := by simp +contextual (maxDischargeDepth := 200) [State.setXfers, *]

@[simp] theorem State.queuedShow_kept {s : State} (l : ℕ) (h : Kept q o s) : Kept q o (State.queuedShow s l) := by simp +contextual (maxDischargeDepth := 200) [State.queuedShow, *]

@[simp] theorem State.putXfer_kept {s : State} (l : ℕ) (x : Xfer) (h : Kept q o s) : Kept q o (State.putXfer s l x) := by simp +contextual (maxDischargeDepth := 200) [State.putXfer, *]

@[simp] theorem holdRead_kept (a0 : ℕ) (a1 : ℕ) {a2 : State} (h : Kept q o a2) : Kept q o (holdRead a0 a1 a2).2 := by
  induction a0 generalizing a1 a2 with
  | zero => exact h
  | succ k ih =>
    unfold holdRead
    split
    rename_i r u e
    have hu : Kept q o u := kept_of_eq (State.eccRead_kept _ _ h) e
    split
    · exact hu
    · split
      rename_i e
      exact kept_of_eq (ih _ hu) e

@[simp] theorem State.holdWrite_kept {s : State} (a1 : ℕ) (a2 : List ℕ) (h : Kept q o s) : Kept q o (State.holdWrite s a1 a2) := by
  induction a2 generalizing a1 s with
  | nil => exact h
  | cons v vs ih => exact ih _ (kept_hold _ (State.eccWrite_kept _ _ h) fun hw => wf_tput _ _ hw)

@[simp] theorem State.xferSource_kept {s : State} (x : Xfer) (o0 : ℕ) (n : ℕ) (h : Kept q o s) : Kept q o (State.xferSource s x o0 n).2 := by unfold State.xferSource; (try dsimp only); split <;> simp +contextual (maxDischargeDepth := 200) [*]

@[simp] theorem State.xferDest_kept {s : State} (x : Xfer) (o0 : ℕ) (bs : List Byte) (h : Kept q o s) : Kept q o (State.xferDest s x o0 bs) := by simp +contextual (maxDischargeDepth := 200) [State.xferDest, *]

@[simp] theorem State.xferBlock_kept {s : State} (l : ℕ) (x : Xfer) (o0 : ℕ) (bs : List Byte) (h : Kept q o s) : Kept q o (State.xferBlock s l x o0 bs) := by simp +contextual (maxDischargeDepth := 200) [State.xferBlock, *]

@[simp] theorem State.xferAppend_kept {s : State} (l : ℕ) (x : Xfer) (h : Kept q o s) : Kept q o (State.xferAppend s l x) := by simp +contextual (maxDischargeDepth := 200) [State.xferAppend, *]

@[simp] theorem State.xferEnd_kept {s : State} (l : ℕ) (x : Xfer) (h : Kept q o s) : Kept q o (State.xferEnd s l x) := by
  unfold State.xferEnd; (try dsimp only)
  repeat' first
    | with_reducible assumption
    | (simp +contextual (maxDischargeDepth := 200) [*]; done)
    | split
    | (with_reducible apply kept_foldl; intro _ _ _)
    | (with_reducible apply kept_ite)
    | with_reducible apply State.cnt_kept
    | with_reducible apply State.complete_kept
    | with_reducible apply State.queuedShow_kept
    | with_reducible apply State.setXfers_kept
    | with_reducible apply State.signalAfter_kept
    | with_reducible apply State.wr_kept

@[simp] theorem State.xferRun_kept (l : ℕ) (a1 : ℕ) {a2 : State} (h : Kept q o a2) : Kept q o (State.xferRun l a1 a2) := by
  induction a1 generalizing a2 with
  | zero => exact h
  | succ k ih =>
    unfold State.xferRun
    split
    · exact h
    split
    · exact h
    split
    · exact State.xferEnd_kept _ _ h
    split
    · split
      split
      · split
        · exact State.putXfer_kept _ _ (State.emit_kept _ h)
        · exact h
      · split
        · exact h
        · split
          rename_i e
          have hu := kept_of_eq (State.xferSource_kept _ _ _ h) e
          split
          · exact ih (State.putXfer_kept _ _ hu)
          · extract_lets blk
            split
            rename_i e2
            have hv := kept_of_eq (State.fabricTake_kept hu) e2
            split
            · exact ih (State.putXfer_kept _ _ (State.eccUe_kept _ _ hv))
            · refine ih (State.xferBlock_kept _ _ _ _ (kept_ite ?_ hv))
              exact State.eccCe_kept _ _ hv
    · extract_lets y
      clear_value y
      split
      · split
        · exact State.putXfer_kept _ _ h
        · exact ih (State.xferAppend_kept _ _ h)
      · split
        · exact State.xferEnd_kept _ _ h
        split
        · exact State.putXfer_kept _ _ h
        split
        · exact State.putXfer_kept _ _ (State.emit_kept _ h)
        · exact State.putXfer_kept _ _ h

@[simp] theorem State.xferStart_kept {s : State} (l : ℕ) (h : Kept q o s) : Kept q o (State.xferStart s l) := by
  unfold State.xferStart; (try dsimp only)
  repeat' first
    | with_reducible assumption
    | (simp +contextual (maxDischargeDepth := 200) [*]; done)
    | split
    | (with_reducible apply kept_foldl; intro _ _ _)
    | (with_reducible apply kept_ite)
    | with_reducible apply State.putXfer_kept
    | with_reducible apply State.queuedShow_kept
    | with_reducible apply State.reset_kept
    | with_reducible apply State.wb_kept
    | with_reducible apply State.wr_kept
    | with_reducible apply State.xferRun_kept

@[simp] theorem State.xferNext_kept (l : ℕ) (a1 : ℕ) {a2 : State} (h : Kept q o a2) : Kept q o (State.xferNext l a1 a2) := by
  induction a1 generalizing a2 with
  | zero => exact h
  | succ k ih =>
    unfold State.xferNext
    split
    · exact h
    · exact ih (State.xferStart_kept _ h)

@[simp] theorem State.xferGo_kept {s : State} (l : ℕ) (h : Kept q o s) : Kept q o (State.xferGo s l) := by simp +contextual (maxDischargeDepth := 200) [State.xferGo, *]

@[simp] theorem State.xferResume_kept {s : State} (p : ℕ) (h : Kept q o s) : Kept q o (State.xferResume s p) := by simp +contextual (maxDischargeDepth := 200) [State.xferResume, *]

@[simp] theorem lighterCopyEff_kept (n : ℕ) {s : State} (h : Kept q o s) : Kept q o (lighterCopyEff n s) := by simp +contextual (maxDischargeDepth := 200) [lighterCopyEff, *]

@[simp] theorem lighterTransferCompleteEff_kept (l : ℕ) {s : State} (h : Kept q o s) : Kept q o (lighterTransferCompleteEff l s) := by unfold lighterTransferCompleteEff; (try dsimp only); split <;> simp +contextual (maxDischargeDepth := 200) [*]

@[simp] theorem lighterReadCompleteEff_kept (l : ℕ) (bs : List Byte) {s : State} (h : Kept q o s) : Kept q o (lighterReadCompleteEff l bs s) := by unfold lighterReadCompleteEff; (try dsimp only); split <;> simp +contextual (maxDischargeDepth := 200) [*]

@[simp] theorem lighterReadFailEff_kept (l : ℕ) (how : ReadEnd) {s : State} (h : Kept q o s) : Kept q o (lighterReadFailEff l how s) := by unfold lighterReadFailEff; (try dsimp only); split <;> simp +contextual (maxDischargeDepth := 200) [*]

@[simp] theorem drainTimeoutEff_kept (l : ℕ) {s : State} (h : Kept q o s) : Kept q o (drainTimeoutEff l s) := by unfold drainTimeoutEff; (try dsimp only); split <;> simp +contextual (maxDischargeDepth := 200) [*]

@[simp] theorem State.drainAsk_kept {s : State} (f : Xfer → Bool) (h : Kept q o s) : Kept q o (State.drainAsk s f) := by
  unfold State.drainAsk; (try dsimp only)
  repeat' first
    | with_reducible assumption
    | (intro _ _ _; with_reducible assumption)
    | (with_reducible apply kept_foldl; intro _ _ _)
    | with_reducible apply kept_ite
    | with_reducible apply State.putXfer_kept
    | split
    | intro _ _ _
    | (intro hw; simp [hw]; done)

end Sys2Proof.Machine
end

