-- ==== Sys2Proof/Laws/KeptDrive.lean ====
section
/-! SUPPORT. What the operations of Drive.lean keep. -/

namespace Sys2Proof.Machine

set_option Elab.async false
set_option linter.unusedTactic false
set_option linter.unreachableTactic false

variable {q : List Instr} {o : List Out}

@[simp] theorem State.setAngle_kept {s : State} (n : ℕ) (θ : ℕ) (h : Kept q o s) : Kept q o (State.setAngle s n θ) := by simp +contextual (maxDischargeDepth := 200) [State.setAngle, *]

@[simp] theorem State.drvRun_kept {s : State} (n : ℕ) (from16 : ℤ) (h : Kept q o s) : Kept q o (State.drvRun s n from16) := by simp +contextual (maxDischargeDepth := 200) [State.drvRun, *]

@[simp] theorem State.drvSearch_kept {s : State} (n : ℕ) (h : Kept q o s) : Kept q o (State.drvSearch s n) := by simp +contextual (maxDischargeDepth := 200) [State.drvSearch, *]

@[simp] theorem State.busJudge_kept {s : State} (g : ℕ) (h : Kept q o s) : Kept q o (State.busJudge s g) := by
  unfold State.busJudge; (try dsimp only)
  repeat' first
    | with_reducible assumption
    | (intro _ _ _; with_reducible assumption)
    | (with_reducible apply kept_foldl; intro _ _ _)
    | with_reducible apply kept_ite
    | with_reducible apply State.drvTrip_kept
    | with_reducible apply State.raiseLive_kept
    | with_reducible apply State.setBus_kept
    | with_reducible apply State.setCause_kept
    | with_reducible apply State.wr_kept
    | split
    | intro _ _ _
    | (intro hw; simp [hw]; done)

@[simp] theorem State.busMeasure_kept {s : State} (g : ℕ) (h : Kept q o s) : Kept q o (State.busMeasure s g) := by simp +contextual (maxDischargeDepth := 200) [State.busMeasure, *]

@[simp] theorem busGroupChangeEff_kept (g : ℕ) (fault : Bool) (sense : Bool) {s : State} (h : Kept q o s) : Kept q o (busGroupChangeEff g fault sense s) := by simp +contextual (maxDischargeDepth := 200) [busGroupChangeEff, *]

@[simp] theorem chopSenseFailEff_kept (g : ℕ) {s : State} (h : Kept q o s) : Kept q o (chopSenseFailEff g s) := by unfold chopSenseFailEff; (try dsimp only); split <;> simp +contextual (maxDischargeDepth := 200) [*]

@[simp] theorem busReactionEndEff_kept (g : ℕ) {s : State} (h : Kept q o s) : Kept q o (busReactionEndEff g s) := by simp +contextual (maxDischargeDepth := 200) [busReactionEndEff, *]

@[simp] theorem State.brakeThreshold_kept {s : State} (n : ℕ) (h : Kept q o s) : Kept q o (State.brakeThreshold s n) := by simp +contextual (maxDischargeDepth := 200) [State.brakeThreshold, *]

@[simp] theorem State.drvDecide_kept {s : State} (n : ℕ) (bA : List Bool) (bB : List Bool) (bV : List Bool) (adc : ℕ) (h : Kept q o s) : Kept q o (State.drvDecide s n bA bB bV adc) := by unfold State.drvDecide; (try dsimp only); split <;> simp +contextual (maxDischargeDepth := 200) [*]

@[simp] theorem driveDecisionEff_kept (n : ℕ) (a : List Bool) (b : List Bool) (v : List Bool) (adc : ℕ) {s : State} (h : Kept q o s) : Kept q o (driveDecisionEff n a b v adc s) := by
  unfold driveDecisionEff
  split
  · exact h
  split
  · simp +contextual (maxDischargeDepth := 200) [h]
  · rename_i x hx
    have hr := h.2.2.2.1
    unfold State.keysRise at hr
    refine kept_live _ (State.drvDecide_kept _ _ _ _ _ (kept_live _ h fun _ => ?_)) fun _ => hr.2.2.1
    simpa [hx] using hr.2.2.2.2.2.2

@[simp] theorem State.pinLoss_kept {s : State} (n : ℕ) (h : Kept q o s) : Kept q o (State.pinLoss s n) := by simp +contextual (maxDischargeDepth := 200) [State.pinLoss, *]

@[simp] theorem State.drvStart_kept {s : State} (n : ℕ) (h : Kept q o s) : Kept q o (State.drvStart s n) := by simp +contextual (maxDischargeDepth := 200) [State.drvStart, *]

@[simp] theorem driveSpeedStepEff_kept (n : ℕ) (inp : PinInputs) {s : State} (h : Kept q o s) : Kept q o (driveSpeedStepEff n inp s) := by
  unfold driveSpeedStepEff; (try dsimp only)
  repeat' first
    | with_reducible assumption
    | (intro _ _ _; with_reducible assumption)
    | (with_reducible apply kept_foldl; intro _ _ _)
    | with_reducible apply kept_ite
    | with_reducible apply State.cnt_kept
    | with_reducible apply State.drvStart_kept
    | with_reducible apply State.pinLoss_kept
    | with_reducible apply State.setCause_kept
    | with_reducible apply State.setDrv_kept
    | with_reducible apply State.takeThr_kept
    | with_reducible apply State.wb_kept
    | with_reducible apply State.wrI_kept
    | with_reducible apply kept_loop
    | split
    | intro _ _ _
    | (intro hw; simp [hw]; done)

@[simp] theorem drvStartEff_kept (src : Port) (n : ℕ) {s : State} (h : Kept q o s) : Kept q o (drvStartEff src n s) := by simp +contextual (maxDischargeDepth := 200) [drvStartEff, *]

@[simp] theorem drvStopEff_kept (src : Port) (n : ℕ) {s : State} (h : Kept q o s) : Kept q o (drvStopEff src n s) := by simp +contextual (maxDischargeDepth := 200) [drvStopEff, *]

@[simp] theorem findAngleEff_kept (src : Port) (n : ℕ) {s : State} (h : Kept q o s) : Kept q o (findAngleEff src n s) := by simp +contextual (maxDischargeDepth := 200) [findAngleEff, *]

@[simp] theorem catchDoneEff_kept (n : ℕ) (pulses : List (ℤ × ℤ × ℕ)) {s : State} (h : Kept q o s) : Kept q o (catchDoneEff n pulses s) := by
  unfold catchDoneEff; (try dsimp only)
  repeat' first
    | with_reducible assumption
    | (simp +contextual (maxDischargeDepth := 200) [*]; done)
    | split
    | (with_reducible apply kept_foldl; intro _ _ _)
    | (with_reducible apply kept_ite)
    | with_reducible apply State.catchPulses_kept
    | with_reducible apply State.cnt_kept
    | with_reducible apply State.drvRun_kept
    | with_reducible apply State.drvSearch_kept
    | with_reducible apply State.setAngle_kept
    | with_reducible apply State.setDrv_kept
    | with_reducible apply State.wr_kept

@[simp] theorem State.angleFail_kept {s : State} (n : ℕ) (h : Kept q o s) : Kept q o (State.angleFail s n) := by simp +contextual (maxDischargeDepth := 200) [State.angleFail, *]

@[simp] theorem angleSearchDoneEff_kept (n : ℕ) (rise : List ℕ) (fwd : ℕ) (rev : ℕ) {s : State} (h : Kept q o s) : Kept q o (angleSearchDoneEff n rise fwd rev s) := by
  unfold angleSearchDoneEff; (try dsimp only)
  repeat' first
    | with_reducible assumption
    | (simp +contextual (maxDischargeDepth := 200) [*]; done)
    | split
    | (with_reducible apply kept_foldl; intro _ _ _)
    | (with_reducible apply kept_ite)
    | with_reducible apply State.angleFail_kept
    | with_reducible apply State.cnt_kept
    | with_reducible apply State.drvOff_kept
    | with_reducible apply State.drvRun_kept
    | with_reducible apply State.emit_kept
    | with_reducible apply State.setAngle_kept

@[simp] theorem angleSearchRetryEff_kept (n : ℕ) {s : State} (h : Kept q o s) : Kept q o (angleSearchRetryEff n s) := by unfold angleSearchRetryEff; (try dsimp only); split <;> simp +contextual (maxDischargeDepth := 200) [*]

@[simp] theorem State.drvIndexed_kept {s : State} (port : ℕ) (exact : Bool) (h : Kept q o s) : Kept q o (State.drvIndexed s port exact) := by simp +contextual (maxDischargeDepth := 200) [State.drvIndexed, *]

@[simp] theorem State.drvAngleLost_kept {s : State} (n : ℕ) (h : Kept q o s) : Kept q o (State.drvAngleLost s n) := by simp +contextual (maxDischargeDepth := 200) [State.drvAngleLost, *]

@[simp] theorem State.drvCommit_kept {s : State} (old : State) (n : ℕ) (h : Kept q o s) : Kept q o (State.drvCommit s old n) := by simp +contextual (maxDischargeDepth := 200) [State.drvCommit, *]

@[simp] theorem State.busCommit_kept {s : State} (h : Kept q o s) : Kept q o (State.busCommit s) := by simp +contextual (maxDischargeDepth := 200) [State.busCommit, *]

@[simp] theorem State.senseClear_kept {s : State} (g : ℕ) (h : Kept q o s) : Kept q o (State.senseClear s g) := by simp +contextual (maxDischargeDepth := 200) [State.senseClear, *]

@[simp] theorem drvOcEff_kept (n : ℕ) (a : List Bool) (b : List Bool) {s : State} (h : Kept q o s) : Kept q o (drvOcEff n a b s) := by simp +contextual (maxDischargeDepth := 200) [drvOcEff, *]

@[simp] theorem drvGateEff_kept (n : ℕ) {s : State} (h : Kept q o s) : Kept q o (drvGateEff n s) := by simp +contextual (maxDischargeDepth := 200) [drvGateEff, *]

@[simp] theorem dfltReleaseEff_kept (n : ℕ) {s : State} (h : Kept q o s) : Kept q o (dfltReleaseEff n s) := by simp +contextual (maxDischargeDepth := 200) [dfltReleaseEff, *]

@[simp] theorem drvStallEff_kept (n : ℕ) {s : State} (h : Kept q o s) : Kept q o (drvStallEff n s) := by unfold drvStallEff; (try dsimp only); split <;> simp +contextual (maxDischargeDepth := 200) [*]

@[simp] theorem drvPinLostEff_kept (n : ℕ) (inp : PinInputs) {s : State} (h : Kept q o s) : Kept q o (drvPinLostEff n inp s) := by simp +contextual (maxDischargeDepth := 200) [drvPinLostEff, *]

end Sys2Proof.Machine
end

