-- ==== Sys2Proof/Laws/KeptFeedback.lean ====
section
/-! SUPPORT. What the operations of Feedback.lean keep. -/

namespace Sys2Proof.Machine

set_option Elab.async false
set_option linter.unusedTactic false
set_option linter.unreachableTactic false

variable {q : List Instr} {o : List Out}

@[simp] theorem State.setEnc_kept {s : State} (p : ℕ) (x : Enc) (h : Kept q o s) : Kept q o (State.setEnc s p x) := by simp +contextual (maxDischargeDepth := 200) [State.setEnc, *]

@[simp] theorem State.setEmu_kept {s : State} (e : ℕ) (x : Emu) (h : Kept q o s) : Kept q o (State.setEmu s e x) := by simp +contextual (maxDischargeDepth := 200) [State.setEmu, *]

@[simp] theorem State.encStep_kept {s : State} (p : ℕ) (d : ℤ) (h : Kept q o s) : Kept q o (State.encStep s p d) := by simp +contextual (maxDischargeDepth := 200) [State.encStep, *]

@[simp] theorem State.countable_kept {s : State} (p : ℕ) (h : Kept q o s) : Kept q o (State.countable s p).2 := by unfold State.countable; (try dsimp only); split <;> simp +contextual (maxDischargeDepth := 200) [*]

@[simp] theorem encoderCountEff_kept (p : ℕ) (sa : List Bool) (sb : List Bool) {s : State} (h : Kept q o s) : Kept q o (encoderCountEff p sa sb s) := by simp +contextual (maxDischargeDepth := 200) [encoderCountEff, *]

@[simp] theorem State.lineFault_kept {s : State} (p : ℕ) (h : Kept q o s) : Kept q o (State.lineFault s p) := by simp +contextual (maxDischargeDepth := 200) [State.lineFault, *]

@[simp] theorem indexEventEff_kept (p : ℕ) (sz : List Bool) {s : State} (h : Kept q o s) : Kept q o (indexEventEff p sz s) := by
  unfold indexEventEff; (try dsimp only)
  repeat' first
    | with_reducible assumption
    | (intro _ _ _; with_reducible assumption)
    | (with_reducible apply kept_foldl; intro _ _ _)
    | with_reducible apply kept_ite
    | with_reducible apply State.drvIndexed_kept
    | with_reducible apply State.lineFault_kept
    | with_reducible apply State.setEnc_kept
    | with_reducible apply State.wr_kept
    | with_reducible apply State.wrI_kept
    | split
    | intro _ _ _
    | (intro hw; simp [hw]; done)

@[simp] theorem State.badFrame_kept {s : State} (p : ℕ) (jump : Bool) (h : Kept q o s) : Kept q o (State.badFrame s p jump) := by
  unfold State.badFrame; (try dsimp only)
  repeat' first
    | with_reducible assumption
    | (intro _ _ _; with_reducible assumption)
    | (with_reducible apply kept_foldl; intro _ _ _)
    | with_reducible apply kept_ite
    | with_reducible apply State.cnt_kept
    | with_reducible apply State.raiseLive_kept
    | with_reducible apply State.setEnc_kept
    | with_reducible apply State.wr_kept
    | split
    | intro _ _ _
    | (intro hw; simp [hw]; done)

@[simp] theorem ssiRequestEff_kept (p : ℕ) (dataHigh : Bool) {s : State} (h : Kept q o s) : Kept q o (ssiRequestEff p dataHigh s) := by simp +contextual (maxDischargeDepth := 200) [ssiRequestEff, *]

@[simp] theorem State.goodFrame_kept {s : State} (p : ℕ) (t0 : ℕ) (w : ℕ) (δ : ℤ) (h : Kept q o s) : Kept q o (State.goodFrame s p t0 w δ) := by simp +contextual (maxDischargeDepth := 200) [State.goodFrame, *]

@[simp] theorem ssiFrameDoneEff_kept (p : ℕ) (bits : List Bool) {s : State} (h : Kept q o s) : Kept q o (ssiFrameDoneEff p bits s) := by unfold ssiFrameDoneEff; (try dsimp only); split <;> simp +contextual (maxDischargeDepth := 200) [*]

@[simp] theorem State.putSpeed_kept {s : State} (p : ℕ) (v : ℤ) (h : Kept q o s) : Kept q o (State.putSpeed s p v) := by simp +contextual (maxDischargeDepth := 200) [State.putSpeed, *]

@[simp] theorem encoderSpeedEff_kept (p : ℕ) {s : State} (h : Kept q o s) : Kept q o (encoderSpeedEff p s) := by
  unfold encoderSpeedEff
  split
  · exact h
  extract_lets ab k ends x mode s1 win x2 s2
  have h1 : Kept q o s1 := State.wb_kept _ _ _ _ h
  have h2 : Kept q o s2 := State.setEnc_kept _ _ h1
  clear_value s2
  split
  · simp +contextual (maxDischargeDepth := 200) [h2]
  · split
    · simp +contextual (maxDischargeDepth := 200) [h2]
    · simp +contextual (maxDischargeDepth := 200) [h2]

@[simp] theorem encSignalEff_kept (p : ℕ) {s : State} (h : Kept q o s) : Kept q o (encSignalEff p s) := by simp +contextual (maxDischargeDepth := 200) [encSignalEff, *]

@[simp] theorem encSignalRestoredEff_kept (p : ℕ) {s : State} (h : Kept q o s) : Kept q o (encSignalRestoredEff p s) := by simp +contextual (maxDischargeDepth := 200) [encSignalRestoredEff, *]

@[simp] theorem State.encCommit_kept {s : State} (old : State) (p : ℕ) (h : Kept q o s) : Kept q o (State.encCommit s old p) := by simp +contextual (maxDischargeDepth := 200) [State.encCommit, *]

@[simp] theorem State.encRezero_kept {s : State} (p : ℕ) (off : ℕ) (h : Kept q o s) : Kept q o (State.encRezero s p off) := by simp +contextual (maxDischargeDepth := 200) [State.encRezero, *]

@[simp] theorem State.putBacklog_kept {s : State} (e : ℕ) (h : Kept q o s) : Kept q o (State.putBacklog s e) := by simp +contextual (maxDischargeDepth := 200) [State.putBacklog, *]

@[simp] theorem State.addE_kept {s : State} (e : ℕ) (d : ℤ) (h : Kept q o s) : Kept q o (State.addE s e d) := by simp +contextual (maxDischargeDepth := 200) [State.addE, *]

@[simp] theorem State.emuFollow_kept {s : State} (e : ℕ) (d : ℤ) (h : Kept q o s) : Kept q o (State.emuFollow s e d) := by simp +contextual (maxDischargeDepth := 200) [State.emuFollow, *]

@[simp] theorem State.emuAxis_kept {s : State} (ax : ℕ) (dP : ℤ) (dS : ℤ) (h : Kept q o s) : Kept q o (State.emuAxis s ax dP dS) := by simp +contextual (maxDischargeDepth := 200) [State.emuAxis, *]

@[simp] theorem emuEdgeEff_kept (e : ℕ) {s : State} (h : Kept q o s) : Kept q o (emuEdgeEff e s) := by simp +contextual (maxDischargeDepth := 200) [emuEdgeEff, *]

@[simp] theorem State.emuStop_kept {s : State} (e : ℕ) (h : Kept q o s) : Kept q o (State.emuStop s e) := by simp +contextual (maxDischargeDepth := 200) [State.emuStop, *]

@[simp] theorem emuOverrunEff_kept (e : ℕ) {s : State} (h : Kept q o s) : Kept q o (emuOverrunEff e s) := by simp +contextual (maxDischargeDepth := 200) [emuOverrunEff, *]

@[simp] theorem State.emuAbsorb_kept {s : State} (e : ℕ) (h : Kept q o s) : Kept q o (State.emuAbsorb s e) := by simp +contextual (maxDischargeDepth := 200) [State.emuAbsorb, *]

@[simp] theorem resyncEff_kept (src : Port) (e : ℕ) {s : State} (h : Kept q o s) : Kept q o (resyncEff src e s) := by simp +contextual (maxDischargeDepth := 200) [resyncEff, *]

@[simp] theorem State.emuCfg_kept {s : State} (old : State) (e : ℕ) (h : Kept q o s) : Kept q o (State.emuCfg s old e) := by simp +contextual (maxDischargeDepth := 200) [State.emuCfg, *]

end Sys2Proof.Machine
end

