-- ==== Sys2Proof/Laws/KeptLanes.lean ====
section
/-! SUPPORT. What the operations of Lanes.lean keep. -/

namespace Sys2Proof.Machine

set_option Elab.async false
set_option linter.unusedTactic false
set_option linter.unreachableTactic false

variable {q : List Instr} {o : List Out}

@[simp] theorem State.fillTo_kept {s : State} (n : ℕ) (h : Kept q o s) : Kept q o (State.fillTo s n) := by simp +contextual (maxDischargeDepth := 200) [State.fillTo, *]

end Sys2Proof.Machine
end

