-- ==== Sys2Proof/Laws/KeptBeamLink.lean ====
section
/-! SUPPORT. What the operations of BeamLink.lean keep. -/

namespace Sys2Proof.Machine

set_option Elab.async false
set_option linter.unusedTactic false
set_option linter.unreachableTactic false

variable {q : List Instr} {o : List Out}

@[simp] theorem State.scanLost_kept {s : State} (n : ℕ) (h : Kept q o s) : Kept q o (State.scanLost s n) := by simp +contextual (maxDischargeDepth := 200) [State.scanLost, *]

@[simp] theorem State.unitReport_kept {s : State} (status : ℕ) (src : ℕ) (data : ℕ) (h : Kept q o s) : Kept q o (State.unitReport s status src data) := by simp +contextual (maxDischargeDepth := 200) [State.unitReport, *]

@[simp] theorem State.headReport_kept {s : State} (n : ℕ) (kind : ℕ) (status : ℕ) (data : ℕ) (h : Kept q o s) : Kept q o (State.headReport s n kind status data) := by simp +contextual (maxDischargeDepth := 200) [State.headReport, *]

@[simp] theorem State.sbSend_kept {s : State} (n : ℕ) (cmd : ℕ) (payload : List Byte) (h : Kept q o s) : Kept q o (State.sbSend s n cmd payload) := by unfold State.sbSend; (try dsimp only); split <;> simp +contextual (maxDischargeDepth := 200) [*]

@[simp] theorem State.sbNext_kept {s : State} (n : ℕ) (h : Kept q o s) : Kept q o (State.sbNext s n) := by unfold State.sbNext; (try dsimp only); split <;> simp +contextual (maxDischargeDepth := 200) [*]

@[simp] theorem State.sendWave_kept {s : State} (n : ℕ) (k : ℕ) (bytes : List Byte) (h : Kept q o s) : Kept q o (State.sendWave s n k bytes) := by simp +contextual (maxDischargeDepth := 200) [State.sendWave, *]

@[simp] theorem State.sendLevels_kept {s : State} (n : ℕ) (bytes : List Byte) (h : Kept q o s) : Kept q o (State.sendLevels s n bytes) := by simp +contextual (maxDischargeDepth := 200) [State.sendLevels, *]

@[simp] theorem State.syncOne_kept {s : State} (n : ℕ) (k : ℕ) (h : Kept q o s) : Kept q o (State.syncOne s n k) := by simp +contextual (maxDischargeDepth := 200) [State.syncOne, *]

@[simp] theorem State.sendSync_kept {s : State} (n : ℕ) (h : Kept q o s) : Kept q o (State.sendSync s n) := by simp +contextual (maxDischargeDepth := 200) [State.sendSync, *]

@[simp] theorem State.blMove_kept {s : State} (n : ℕ) (t0 : ℕ) (h : Kept q o s) : Kept q o (State.blMove s n t0) := by simp +contextual (maxDischargeDepth := 200) [State.blMove, *]

@[simp] theorem State.loadFail_kept {s : State} (n : ℕ) (h : Kept q o s) : Kept q o (State.loadFail s n) := by unfold State.loadFail; (try dsimp only); split <;> simp +contextual (maxDischargeDepth := 200) [*]

@[simp] theorem State.headCommitFail_kept {s : State} (n : ℕ) (h : Kept q o s) : Kept q o (State.headCommitFail s n) := by unfold State.headCommitFail; (try dsimp only); split <;> simp +contextual (maxDischargeDepth := 200) [*]

@[simp] theorem State.blGo_kept {s : State} (n : ℕ) (t0 : ℕ) (h : Kept q o s) : Kept q o (State.blGo s n t0) := by simp +contextual (maxDischargeDepth := 200) [State.blGo, *]

@[simp] theorem State.blOff_kept {s : State} (n : ℕ) (h : Kept q o s) : Kept q o (State.blOff s n) := by simp +contextual (maxDischargeDepth := 200) [State.blOff, *]

@[simp] theorem State.blClock_kept {s : State} (n : ℕ) (h : Kept q o s) : Kept q o (State.blClock s n) := by simp +contextual (maxDischargeDepth := 200) [State.blClock, *]

@[simp] theorem State.blRetrain_kept {s : State} (n : ℕ) (h : Kept q o s) : Kept q o (State.blRetrain s n) := by simp +contextual (maxDischargeDepth := 200) [State.blRetrain, *]

@[simp] theorem State.headBad_kept {s : State} (n : ℕ) (h : Kept q o s) : Kept q o (State.headBad s n) := by simp +contextual (maxDischargeDepth := 200) [State.headBad, *]

@[simp] theorem State.blTry_kept {s : State} (n : ℕ) (laidOk : Bool) (h : Kept q o s) : Kept q o (State.blTry s n laidOk) := by simp +contextual (maxDischargeDepth := 200) [State.blTry, *]

@[simp] theorem State.setFailed_kept {s : State} (n : ℕ) (m : ℕ) (h : Kept q o s) : Kept q o (State.setFailed s n m) := by simp +contextual (maxDischargeDepth := 200) [State.setFailed, *]

@[simp] theorem State.emitterFail_kept {s : State} (n : ℕ) (e : ℕ) (kind : ℕ) (h : Kept q o s) : Kept q o (State.emitterFail s n e kind) := by simp +contextual (maxDischargeDepth := 200) [State.emitterFail, *]

@[simp] theorem State.idAccept_kept {s : State} (n : ℕ) (h : Kept q o s) : Kept q o (State.idAccept s n) := by unfold State.idAccept; (try dsimp only); split <;> simp +contextual (maxDischargeDepth := 200) [*]

@[simp] theorem State.idRefuse_kept {s : State} (n : ℕ) (h : Kept q o s) : Kept q o (State.idRefuse s n) := by simp +contextual (maxDischargeDepth := 200) [State.idRefuse, *]

@[simp] theorem State.attachReport_kept {s : State} (n : ℕ) (ok : Bool) (h : Kept q o s) : Kept q o (State.attachReport s n ok) := by simp +contextual (maxDischargeDepth := 200) [State.attachReport, *]

@[simp] theorem hpdChangeEff_kept (n : ℕ) (low : Bool) {s : State} (h : Kept q o s) : Kept q o (hpdChangeEff n low s) := by simp +contextual (maxDischargeDepth := 200) [hpdChangeEff, *]

@[simp] theorem identityReadDoneEff_kept (n : ℕ) (data : Option (List Byte)) {s : State} (h : Kept q o s) : Kept q o (identityReadDoneEff n data s) := by
  unfold identityReadDoneEff; (try dsimp only)
  repeat' first
    | with_reducible assumption
    | (simp +contextual (maxDischargeDepth := 200) [*]; done)
    | split
    | (with_reducible apply kept_foldl; intro _ _ _)
    | (with_reducible apply kept_ite)
    | with_reducible apply State.attachReport_kept
    | with_reducible apply State.blClock_kept
    | with_reducible apply State.blOff_kept
    | with_reducible apply State.headReport_kept
    | with_reducible apply State.idAccept_kept
    | with_reducible apply State.idRefuse_kept
    | with_reducible apply State.lenUpdate_kept
    | with_reducible apply State.mismatch_kept
    | with_reducible apply State.setBl_kept
    | with_reducible apply State.wr_kept

@[simp] theorem linkTrainProgressEff_kept (n : ℕ) (report : ℕ) {s : State} (h : Kept q o s) : Kept q o (linkTrainProgressEff n report s) := by
  unfold linkTrainProgressEff; (try dsimp only)
  repeat' first
    | with_reducible assumption
    | (simp +contextual (maxDischargeDepth := 200) [*]; done)
    | split
    | (with_reducible apply kept_foldl; intro _ _ _)
    | (with_reducible apply kept_ite)
    | with_reducible apply State.blGo_kept
    | with_reducible apply State.lenUpdate_kept
    | with_reducible apply State.sendSync_kept
    | with_reducible apply State.setBl_kept
    | with_reducible apply State.wr_kept

@[simp] theorem linkTrainTimeoutEff_kept (n : ℕ) {s : State} (h : Kept q o s) : Kept q o (linkTrainTimeoutEff n s) := by simp +contextual (maxDischargeDepth := 200) [linkTrainTimeoutEff, *]

@[simp] theorem linkRetrainEff_kept (n : ℕ) {s : State} (h : Kept q o s) : Kept q o (linkRetrainEff n s) := by simp +contextual (maxDischargeDepth := 200) [linkRetrainEff, *]

@[simp] theorem beamLinkTrainRetryEff_kept (n : ℕ) {s : State} (h : Kept q o s) : Kept q o (beamLinkTrainRetryEff n s) := by unfold beamLinkTrainRetryEff; (try dsimp only); split <;> simp +contextual (maxDischargeDepth := 200) [*]

@[simp] theorem State.blCommit_kept {s : State} (old : State) (n : ℕ) (h : Kept q o s) : Kept q o (State.blCommit s old n) := by
  unfold State.blCommit; (try dsimp only)
  repeat' first
    | with_reducible assumption
    | (intro _ _ _; with_reducible assumption)
    | (with_reducible apply kept_foldl; intro _ _ _)
    | with_reducible apply kept_ite
    | with_reducible apply State.applied_kept
    | with_reducible apply State.attachReport_kept
    | with_reducible apply State.blOff_kept
    | with_reducible apply State.blTry_kept
    | with_reducible apply State.idAccept_kept
    | with_reducible apply State.idRefuse_kept
    | with_reducible apply State.lenUpdate_kept
    | with_reducible apply State.service_kept
    | with_reducible apply State.setBl_kept
    | with_reducible apply State.syncOne_kept
    | split
    | intro _ _ _
    | (intro hw; simp [hw]; done)

@[simp] theorem State.otUpdate_kept {s : State} (n : ℕ) (h : Kept q o s) : Kept q o (State.otUpdate s n) := by simp +contextual (maxDischargeDepth := 200) [State.otUpdate, *]

@[simp] theorem headStatusPollEff_kept (n : ℕ) {s : State} (h : Kept q o s) : Kept q o (headStatusPollEff n s) := by simp +contextual (maxDischargeDepth := 200) [headStatusPollEff, *]

@[simp] theorem State.charOne_kept {s : State} (n : ℕ) (e : ℕ) (r : ℕ × ℕ) (h : Kept q o s) : Kept q o (State.charOne s n e r) := by simp +contextual (maxDischargeDepth := 200) [State.charOne, *]

@[simp] theorem State.charAll_kept (n : ℕ) (a1 : ℕ) (a2 : List (ℕ × ℕ)) {a3 : State} (h : Kept q o a3) : Kept q o (State.charAll n a1 a2 a3) := by
  induction a2 generalizing a1 a3 with
  | nil => exact h
  | cons r rs ih => exact ih _ (State.charOne_kept _ _ _ h)

@[simp] theorem State.charAdvance_kept {s : State} (n : ℕ) (e : ℕ) (h : Kept q o s) : Kept q o (State.charAdvance s n e) := by simp +contextual (maxDischargeDepth := 200) [State.charAdvance, *]

@[simp] theorem State.frameFailed_kept {s : State} (n : ℕ) (f : FrameWait) (h : Kept q o s) : Kept q o (State.frameFailed s n f) := by simp +contextual (maxDischargeDepth := 200) [State.frameFailed, *]

@[simp] theorem State.frameReport_kept {s : State} (n : ℕ) (f : FrameWait) (failed : Bool) (h : Kept q o s) : Kept q o (State.frameReport s n f failed) := by simp +contextual (maxDischargeDepth := 200) [State.frameReport, *]

@[simp] theorem gstatEff_kept (n : ℕ) (sweep : ℕ) (whole : Bool) (crcFail : Bool) {s : State} (h : Kept q o s) : Kept q o (gstatEff n sweep whole crcFail s) := by unfold gstatEff; (try dsimp only); split <;> simp +contextual (maxDischargeDepth := 200) [*]

@[simp] theorem gstatMissingEff_kept (n : ℕ) {s : State} (h : Kept q o s) : Kept q o (gstatMissingEff n s) := by unfold gstatMissingEff; (try dsimp only); split <;> simp +contextual (maxDischargeDepth := 200) [*]

@[simp] theorem emitterFaultEff_kept (n : ℕ) (e : ℕ) (cause : ℕ) {s : State} (h : Kept q o s) : Kept q o (emitterFaultEff n e cause s) := by simp +contextual (maxDischargeDepth := 200) [emitterFaultEff, *]

@[simp] theorem State.reliefRow_kept {s : State} (n : ℕ) (r : ℕ) (h : Kept q o s) : Kept q o (State.reliefRow s n r) := by
  unfold State.reliefRow
  extract_lets e b k d
  split
  · exact h
  split
  · simp +contextual (maxDischargeDepth := 200) [h]
  · refine State.headReport_kept _ _ _ _ (State.setBl_kept _ _ ?_)
    refine kept_commits _ (kept_live _ (kept_quay _ h trising_tput) trising_tput) ?_
    rw [List.length_map]
    exact h.commits

@[simp] theorem reliefEff_kept (n : ℕ) {s : State} (h : Kept q o s) : Kept q o (reliefEff n s) := by simp +contextual (maxDischargeDepth := 200) [reliefEff, *]

@[simp] theorem wearWriteEff_kept (n : ℕ) {s : State} (h : Kept q o s) : Kept q o (wearWriteEff n s) := by
  unfold wearWriteEff; (try dsimp only)
  repeat' first
    | with_reducible assumption
    | (simp +contextual (maxDischargeDepth := 200) [*]; done)
    | split
    | (with_reducible apply kept_foldl; intro _ _ _)
    | (with_reducible apply kept_ite)
    | with_reducible apply State.emit_kept
    | with_reducible apply State.headReport_kept
    | with_reducible apply State.setBl_kept

@[simp] theorem State.charSweep_kept {s : State} (n : ℕ) (h : Kept q o s) : Kept q o (State.charSweep s n) := by unfold State.charSweep; (try dsimp only); split <;> simp +contextual (maxDischargeDepth := 200) [*]

@[simp] theorem State.charAbort_kept {s : State} (n : ℕ) (h : Kept q o s) : Kept q o (State.charAbort s n) := by simp +contextual (maxDischargeDepth := 200) [State.charAbort, *]

end Sys2Proof.Machine
end

