-- ==== Sys2Proof/Laws/KeptScanpll.lean ====
section
/-! SUPPORT. What the operations of Scanpll.lean keep. -/

namespace Sys2Proof.Machine

set_option Elab.async false
set_option linter.unusedTactic false
set_option linter.unreachableTactic false

variable {q : List Instr} {o : List Out}

@[simp] theorem State.setSpll_kept {s : State} (n : ℕ) (x : Spll) (h : Kept q o s) : Kept q o (State.setSpll s n x) := by simp +contextual (maxDischargeDepth := 200) [State.setSpll, *]

@[simp] theorem State.bandSearch_kept {s : State} (n : ℕ) (h : Kept q o s) : Kept q o (State.bandSearch s n) := by simp +contextual (maxDischargeDepth := 200) [State.bandSearch, *]

@[simp] theorem State.closeLoop_kept {s : State} (n : ℕ) (b : ℕ) (h : Kept q o s) : Kept q o (State.closeLoop s n b) := by simp +contextual (maxDischargeDepth := 200) [State.closeLoop, *]

@[simp] theorem State.acquire_kept {s : State} (n : ℕ) (h : Kept q o s) : Kept q o (State.acquire s n) := by simp +contextual (maxDischargeDepth := 200) [State.acquire, *]

@[simp] theorem State.spllStop_kept {s : State} (n : ℕ) (h : Kept q o s) : Kept q o (State.spllStop s n) := by simp +contextual (maxDischargeDepth := 200) [State.spllStop, *]

@[simp] theorem State.storeBand_kept {s : State} (n : ℕ) (h : Kept q o s) : Kept q o (State.storeBand s n) := by simp +contextual (maxDischargeDepth := 200) [State.storeBand, *]

@[simp] theorem State.spllPark_kept {s : State} (n : ℕ) (h : Kept q o s) : Kept q o (State.spllPark s n) := by simp +contextual (maxDischargeDepth := 200) [State.spllPark, *]

@[simp] theorem State.spllUnpark_kept {s : State} (n : ℕ) (h : Kept q o s) : Kept q o (State.spllUnpark s n) := by simp +contextual (maxDischargeDepth := 200) [State.spllUnpark, *]

@[simp] theorem State.spllCommit_kept {s : State} (old : State) (n : ℕ) (h : Kept q o s) : Kept q o (State.spllCommit s old n) := by simp +contextual (maxDischargeDepth := 200) [State.spllCommit, *]

@[simp] theorem State.noBand_kept {s : State} (n : ℕ) (h : Kept q o s) : Kept q o (State.noBand s n) := by simp +contextual (maxDischargeDepth := 200) [State.noBand, *]

@[simp] theorem State.foundBand_kept {s : State} (n : ℕ) (b : ℕ) (h : Kept q o s) : Kept q o (State.foundBand s n b) := by simp +contextual (maxDischargeDepth := 200) [State.foundBand, *]

@[simp] theorem bandSearchTrialEff_kept (n : ℕ) (count : ℕ) {s : State} (h : Kept q o s) : Kept q o (bandSearchTrialEff n count s) := by
  unfold bandSearchTrialEff; (try dsimp only)
  repeat' first
    | with_reducible assumption
    | (simp +contextual (maxDischargeDepth := 200) [*]; done)
    | split
    | (with_reducible apply kept_foldl; intro _ _ _)
    | (with_reducible apply kept_ite)
    | with_reducible apply State.cnt_kept
    | with_reducible apply State.foundBand_kept
    | with_reducible apply State.noBand_kept
    | with_reducible apply State.setSpll_kept

@[simp] theorem State.spllLock_kept {s : State} (n : ℕ) (h : Kept q o s) : Kept q o (State.spllLock s n) := by simp +contextual (maxDischargeDepth := 200) [State.spllLock, *]

@[simp] theorem State.spllUnlock_kept {s : State} (n : ℕ) (h : Kept q o s) : Kept q o (State.spllUnlock s n) := by simp +contextual (maxDischargeDepth := 200) [State.spllUnlock, *]

@[simp] theorem lockWindowEndEff_kept (n : ℕ) (count : ℕ) (vtWarn : Bool) {s : State} (h : Kept q o s) : Kept q o (lockWindowEndEff n count vtWarn s) := by simp +contextual (maxDischargeDepth := 200) [lockWindowEndEff, *]

@[simp] theorem pllLockTimeoutEff_kept (n : ℕ) {s : State} (h : Kept q o s) : Kept q o (pllLockTimeoutEff n s) := by unfold pllLockTimeoutEff; (try dsimp only); split <;> simp +contextual (maxDischargeDepth := 200) [*]

@[simp] theorem scanPllRetryEff_kept (n : ℕ) {s : State} (h : Kept q o s) : Kept q o (scanPllRetryEff n s) := by unfold scanPllRetryEff; (try dsimp only); split <;> simp +contextual (maxDischargeDepth := 200) [*]

@[simp] theorem State.setRamp_kept {s : State} (n : ℕ) (b : ℕ) (r0 : ℤ) (segs : List (ℕ × ℤ)) (h : Kept q o s) : Kept q o (State.setRamp s n b r0 segs) := by simp +contextual (maxDischargeDepth := 200) [State.setRamp, *]

@[simp] theorem scanRampLoadEff_kept (n : ℕ) (data : ReadRes) {s0 : State} (h : Kept q o s0) : Kept q o (scanRampLoadEff n data s0) := by
  unfold scanRampLoadEff; (try dsimp only)
  repeat' first
    | with_reducible assumption
    | (simp +contextual (maxDischargeDepth := 200) [*]; done)
    | split
    | (with_reducible apply kept_foldl; intro _ _ _)
    | (with_reducible apply kept_ite)
    | with_reducible apply State.cnt_kept
    | with_reducible apply State.complete_kept
    | with_reducible apply State.loadDone_kept
    | with_reducible apply State.loadRead_kept
    | with_reducible apply State.setRamp_kept
    | with_reducible apply State.withDesc_kept
    | with_reducible apply State.wr_kept

@[simp] theorem State.eosCorrect_kept {s : State} (n : ℕ) (f : ℕ) (D : ℕ) (h : Kept q o s) : Kept q o (State.eosCorrect s n f D) := by simp +contextual (maxDischargeDepth := 200) [State.eosCorrect, *]

@[simp] theorem State.eosStep_kept {s : State} (n : ℕ) (f : ℕ) (h : Kept q o s) : Kept q o (State.eosStep s n f) := by simp +contextual (maxDischargeDepth := 200) [State.eosStep, *]

@[simp] theorem State.fcFromLearning_kept {s : State} (n : ℕ) (durs : List ℕ) (h : Kept q o s) : Kept q o (State.fcFromLearning s n durs) := by simp +contextual (maxDischargeDepth := 200) [State.fcFromLearning, *]

@[simp] theorem State.fcClear_kept {s : State} (n : ℕ) (h : Kept q o s) : Kept q o (State.fcClear s n) := by simp +contextual (maxDischargeDepth := 200) [State.fcClear, *]

@[simp] theorem State.unlearn_kept {s : State} (n : ℕ) (h : Kept q o s) : Kept q o (State.unlearn s n) := by simp +contextual (maxDischargeDepth := 200) [State.unlearn, *]

@[simp] theorem State.facetClear_kept {s : State} (n : ℕ) (h : Kept q o s) : Kept q o (State.facetClear s n) := by simp +contextual (maxDischargeDepth := 200) [State.facetClear, *]

@[simp] theorem State.clkStart_kept {s : State} (n : ℕ) (f : ℕ) (h : Kept q o s) : Kept q o (State.clkStart s n f) := by simp +contextual (maxDischargeDepth := 200) [State.clkStart, *]

@[simp] theorem State.clkSweep_kept {s : State} (n : ℕ) (b : ℤ) (h : Kept q o s) : Kept q o (State.clkSweep s n b) := by simp +contextual (maxDischargeDepth := 200) [State.clkSweep, *]

end Sys2Proof.Machine
end

