-- ==== Sys2Proof/Laws/KeptPowerCore.lean ====
section
/-! SUPPORT. What the operations of PowerCore.lean keep. -/

namespace Sys2Proof.Machine

set_option Elab.async false
set_option linter.unusedTactic false
set_option linter.unreachableTactic false

variable {q : List Instr} {o : List Out}

@[simp] theorem State.pwrBegin_kept {s : State} (t0 : ℕ) (h : Kept q o s) : Kept q o (State.pwrBegin s t0) := by unfold State.pwrBegin; (try dsimp only); split <;> simp +contextual (maxDischargeDepth := 200) [*]

@[simp] theorem State.pwrTake_kept {s : State} (h : Kept q o s) : Kept q o (State.pwrTake s) := by unfold State.pwrTake; (try dsimp only); split <;> simp +contextual (maxDischargeDepth := 200) [*]

@[simp] theorem State.wakeUp_kept {s : State} (k : ℕ) (t0 : ℕ) (h : Kept q o s) : Kept q o (State.wakeUp s k t0) := by simp +contextual (maxDischargeDepth := 200) [State.wakeUp, *]

@[simp] theorem State.pwrRequest_kept {s : State} (m : ℕ) (h : Kept q o s) : Kept q o (State.pwrRequest s m) := by simp +contextual (maxDischargeDepth := 200) [State.pwrRequest, *]

@[simp] theorem State.wakeAsk_kept {s : State} (k : ℕ) (h : Kept q o s) : Kept q o (State.wakeAsk s k) := by simp +contextual (maxDischargeDepth := 200) [State.wakeAsk, *]

end Sys2Proof.Machine
end

