-- ==== Sys2Proof/Laws/KeptStepper.lean ====
section
/-! SUPPORT. What the operations of Stepper.lean keep. -/

namespace Sys2Proof.Machine

set_option Elab.async false
set_option linter.unusedTactic false
set_option linter.unreachableTactic false

variable {q : List Instr} {o : List Out}

@[simp] theorem chopperOnEndEff_kept (k : ℕ) (b : Bool) {s : State} (h : Kept q o s) : Kept q o (chopperOnEndEff k b s) := by simp +contextual (maxDischargeDepth := 200) [chopperOnEndEff, *]

@[simp] theorem chopperOffEndEff_kept (k : ℕ) (b : Bool) {s : State} (h : Kept q o s) : Kept q o (chopperOffEndEff k b s) := by simp +contextual (maxDischargeDepth := 200) [chopperOffEndEff, *]

@[simp] theorem stepperHoldEff_kept (k : ℕ) {s : State} (h : Kept q o s) : Kept q o (stepperHoldEff k s) := by simp +contextual (maxDischargeDepth := 200) [stepperHoldEff, *]

@[simp] theorem stpShortEff_kept (k : ℕ) (b : Bool) {s : State} (h : Kept q o s) : Kept q o (stpShortEff k b s) := by simp +contextual (maxDischargeDepth := 200) [stpShortEff, *]

@[simp] theorem stpOpenEff_kept (k : ℕ) (b : Bool) {s : State} (h : Kept q o s) : Kept q o (stpOpenEff k b s) := by simp +contextual (maxDischargeDepth := 200) [stpOpenEff, *]

@[simp] theorem stpStallEff_kept (k : ℕ) {s : State} (h : Kept q o s) : Kept q o (stpStallEff k s) := by simp +contextual (maxDischargeDepth := 200) [stpStallEff, *]

@[simp] theorem State.stpCommit_kept {s : State} (k : ℕ) (h : Kept q o s) : Kept q o (State.stpCommit s k) := by simp +contextual (maxDischargeDepth := 200) [State.stpCommit, *]

@[simp] theorem microstepLoadEff_kept (n : ℕ) (data : ReadRes) {s0 : State} (h : Kept q o s0) : Kept q o (microstepLoadEff n data s0) := by
  unfold microstepLoadEff; (try dsimp only)
  repeat' first
    | with_reducible assumption
    | (simp +contextual (maxDischargeDepth := 200) [*]; done)
    | split
    | (with_reducible apply kept_foldl; intro _ _ _)
    | (with_reducible apply kept_ite)
    | with_reducible apply State.complete_kept
    | with_reducible apply State.eccWrite_kept
    | with_reducible apply State.loadDone_kept
    | with_reducible apply State.loadRead_kept
    | with_reducible apply State.withDesc_kept
    | with_reducible apply kept_ustep

end Sys2Proof.Machine
end

