-- ==== Sys2Proof/Laws/KeptTide.lean ====
section
/-! SUPPORT. What the operations of Tide.lean keep. -/

namespace Sys2Proof.Machine

set_option Elab.async false
set_option linter.unusedTactic false
set_option linter.unreachableTactic false

variable {q : List Instr} {o : List Out}

@[simp] theorem State.capture_kept {s : State} (e : TEntry) (h : Kept q o s) : Kept q o (State.capture s e) := by simp +contextual (maxDischargeDepth := 200) [State.capture, *]

@[simp] theorem State.missEntry_kept {s : State} (i : ℕ) (e : TEntry) (h : Kept q o s) : Kept q o (State.missEntry s i e) := by simp +contextual (maxDischargeDepth := 200) [State.missEntry, *]

@[simp] theorem State.decideOne_kept {s : State} (behind : Bool) (i : ℕ) (h : Kept q o s) : Kept q o (State.decideOne s behind i) := by
  unfold State.decideOne; (try dsimp only)
  repeat' first
    | with_reducible assumption
    | (simp +contextual (maxDischargeDepth := 200) [*]; done)
    | split
    | (with_reducible apply kept_foldl; intro _ _ _)
    | (with_reducible apply kept_ite)
    | with_reducible apply State.capture_kept
    | with_reducible apply State.cnt_kept
    | with_reducible apply State.delEntry_kept
    | with_reducible apply State.missEntry_kept
    | with_reducible apply State.tideEcc_kept
    | with_reducible apply kept_decided

@[simp] theorem State.decideDue_kept {s : State} (fresh : ℕ → TEntry → Bool) (h : Kept q o s) : Kept q o (State.decideDue s fresh) := by simp +contextual (maxDischargeDepth := 200) [State.decideDue, *]

@[simp] theorem tideEntryDueEff_kept {s : State} (h : Kept q o s) : Kept q o (tideEntryDueEff s) := by simp +contextual (maxDischargeDepth := 200) [tideEntryDueEff, *]

@[simp] theorem tideActionIssueEff_kept {s : State} (h : Kept q o s) : Kept q o (tideActionIssueEff s) := by unfold tideActionIssueEff; (try dsimp only); split <;> simp +contextual (maxDischargeDepth := 200) [*]

@[simp] theorem State.act_kept {s : State} (code : ℕ) (k : Decided → State → State) (h_k : ∀ y0 y1, Kept q o y1 → Kept q o (k y0 y1)) (h : Kept q o s) : Kept q o (State.act s code k) := by unfold State.act; (try dsimp only); split <;> simp +contextual (maxDischargeDepth := 200) [*]

@[simp] theorem State.actDone_kept {s : State} (d : Decided) (h : Kept q o s) : Kept q o (State.actDone s d) := by simp +contextual (maxDischargeDepth := 200) [State.actDone, *]

@[simp] theorem State.actRefuse_kept {s : State} (d : Decided) (status : ℕ) (h : Kept q o s) : Kept q o (State.actRefuse s d status) := by simp +contextual (maxDischargeDepth := 200) [State.actRefuse, *]

@[simp] theorem State.actStatus_kept {s : State} (code : ℕ) (k : Decided → State → ℕ × State)
    (h_k : ∀ d s, Kept q o s → Kept q o (k d s).2) (h : Kept q o s) : Kept q o (State.actStatus s code k) := by
  refine State.act_kept _ _ (fun d s h => ?_) h
  split
  · exact State.actRefuse_kept _ _ h
  · split
    rename_i e
    have hu := kept_of_eq (h_k _ _ h) e
    split
    · exact State.actDone_kept _ hu
    · exact State.actRefuse_kept _ _ hu

@[simp] theorem tideNopEff_kept {s : State} (h : Kept q o s) : Kept q o (tideNopEff s) := by unfold tideNopEff; (try dsimp only); split <;> simp +contextual (maxDischargeDepth := 200) [*]

@[simp] theorem State.setIo_kept {s : State} (n : ℕ) (l : ℕ) (h : Kept q o s) : Kept q o (State.setIo s n l) := by simp +contextual (maxDischargeDepth := 200) [State.setIo, *]

@[simp] theorem State.toggleLevel_kept {s : State} (l : ℕ) (h : Kept q o s) : Kept q o (State.toggleLevel s l).2 := by
  unfold State.toggleLevel; (try dsimp only)
  repeat' first
    | with_reducible assumption
    | (simp +contextual (maxDischargeDepth := 200) [*]; done)
    | split
    | (with_reducible apply kept_foldl; intro _ _ _)
    | (with_reducible apply kept_ite)

@[simp] theorem State.setPoint_kept {s : State} (e : ℕ) (on : Bool) (h : Kept q o s) : Kept q o (State.setPoint s e on) := by simp +contextual (maxDischargeDepth := 200) [State.setPoint, *]

@[simp] theorem State.pinTo_kept {s : State} (n : ℕ) (c : ℕ) (h : Kept q o s) : Kept q o (State.pinTo s n c).2 := by
  unfold State.pinTo; (try dsimp only)
  repeat' first
    | with_reducible assumption
    | (simp +contextual (maxDischargeDepth := 200) [*]; done)
    | split
    | (with_reducible apply kept_foldl; intro _ _ _)
    | (with_reducible apply kept_ite)
    | with_reducible apply State.setIo_kept
    | with_reducible apply State.setPoint_kept

@[simp] theorem pinEff_kept {s : State} (h : Kept q o s) : Kept q o (pinEff s) := by simp +contextual (maxDischargeDepth := 200) [pinEff, *]

@[simp] theorem pulseEff_kept {s : State} (h : Kept q o s) : Kept q o (pulseEff s) := by simp +contextual (maxDischargeDepth := 200) [pulseEff, *]

@[simp] theorem pulseEndEff_kept (n : ℕ) {s : State} (h : Kept q o s) : Kept q o (pulseEndEff n s) := by unfold pulseEndEff; (try dsimp only); split <;> simp +contextual (maxDischargeDepth := 200) [*]

@[simp] theorem captureEff_kept {s : State} (h : Kept q o s) : Kept q o (captureEff s) := by simp +contextual (maxDischargeDepth := 200) [captureEff, *]

@[simp] theorem eventEff_kept {s : State} (h : Kept q o s) : Kept q o (eventEff s) := by simp +contextual (maxDischargeDepth := 200) [eventEff, *]

@[simp] theorem State.axisRef_kept {s : State} (ax : ℕ) (p : ℕ) (h : Kept q o s) : Kept q o (State.axisRef s ax p) := by
  unfold State.axisRef
  dsimp only
  generalize hs : State.emuAxis _ _ _ _ = s'
  have h' : Kept q o s' := by subst hs; simp +contextual (maxDischargeDepth := 200) [h]
  have h2 := kept_axDisc (tput false s'.axDisc ax true) h' fun hw => wf_tput _ _ hw
  refine kept_commits _ h2 ?_
  rw [List.length_map]
  exact h'.commits

@[simp] theorem State.axisFollow_kept {s : State} (ax : ℕ) (p : ℕ) (h : Kept q o s) : Kept q o (State.axisFollow s ax p) := by simp +contextual (maxDischargeDepth := 200) [State.axisFollow, *]

@[simp] theorem State.lamStep_kept {s : State} (n : ℕ) (dS : ℤ) (h : Kept q o s) : Kept q o (State.lamStep s n dS) := by
  unfold State.lamStep
  extract_lets x lam ax old p s1 d s2 s3
  have h1 : Kept q o s1 := by simp +contextual (maxDischargeDepth := 200) [s1, h]
  have h2 : Kept q o s2 := State.cnt_kept _ _ _ _ h1
  have h3 : Kept q o s3 := kept_ite (State.raise_kept _ _ _ _ (kept_axDisc _ h2 fun hw => wf_tput _ _ hw)) h1
  simp +contextual (maxDischargeDepth := 200) [h3]

@[simp] theorem State.axisEdge_kept {s : State} (ax : ℕ) (h : Kept q o s) : Kept q o (State.axisEdge s ax) := by simp +contextual (maxDischargeDepth := 200) [State.axisEdge, *]

@[simp] theorem axisUpdateEff_kept (ax : ℕ) {s : State} (h : Kept q o s) : Kept q o (axisUpdateEff ax s) := by
  unfold axisUpdateEff
  dsimp only
  split
  · exact h
  split
  · refine State.pwrTake_kept (State.axisEdge_kept _ ?_)
    have hr := h.2.2.2.1
    unfold State.keysRise at hr
    exact kept_edgeLive_edgeRegs_edgeSw_now _ _ _ _ h (fun _ => rfl) (fun _ => hr.1)
  · exact State.axisEdge_kept _ h

@[simp] theorem State.axisSet_kept {s : State} (ax : ℕ) (p : ℕ) (h : Kept q o s) : Kept q o (State.axisSet s ax p) := by simp +contextual (maxDischargeDepth := 200) [State.axisSet, *]

@[simp] theorem State.rezeroTo_kept {s : State} (ax : ℕ) (p : ℕ) (h : Kept q o s) : Kept q o (State.rezeroTo s ax p) := by simp +contextual (maxDischargeDepth := 200) [State.rezeroTo, *]

@[simp] theorem rezeroEff_kept {s : State} (h : Kept q o s) : Kept q o (rezeroEff s) := by simp +contextual (maxDischargeDepth := 200) [rezeroEff, *]

@[simp] theorem State.axisReref_kept {s : State} (ax : ℕ) (h : Kept q o s) : Kept q o (State.axisReref s ax) := by simp +contextual (maxDischargeDepth := 200) [State.axisReref, *]

@[simp] theorem State.markRead_kept {s : State} (w : MarkWin) (p256 : ℕ) (h : Kept q o s) : Kept q o (State.markRead s w p256) := by simp +contextual (maxDischargeDepth := 200) [State.markRead, *]

@[simp] theorem State.markTake_kept {s : State} (w : MarkWin) (t0 : ℕ) (h : Kept q o s) : Kept q o (State.markTake s w t0) := by unfold State.markTake; (try dsimp only); split <;> simp +contextual (maxDischargeDepth := 200) [*]

@[simp] theorem State.markFail_kept {s : State} (w : MarkWin) (h : Kept q o s) : Kept q o (State.markFail s w) := by simp +contextual (maxDischargeDepth := 200) [State.markFail, *]

theorem State.flSheet_kept {s : State} (p : ℕ) (i : ℕ) (covered : Bool) (t0 : ℕ) (h : Kept q o s) {u} (e : State.flSheet s p i covered t0 = some u) : Kept q o u := by
  unfold State.flSheet at e
  extract_lets cv s1 ins at e
  have h1 : Kept q o s1 := by simp +contextual (maxDischargeDepth := 200) [s1, h]
  split at e
  · cases e
  · split at e
    · cases e
      exact State.satisfy_kept _ _ h1
    · cases e
      exact kept_ite (State.edgeOutside_kept _ _ h1) h1

theorem State.flMark_kept (p : ℕ) (t0 : ℕ) (a2 : List MarkWin) {a3 : State} (h : Kept q o a3) {u} (e : State.flMark p t0 a2 a3 = some u) : Kept q o u := by
  induction a2 generalizing a3 with
  | nil => cases e; exact h
  | cons w ws ih =>
    unfold State.flMark at e
    split at e
    · cases e
    · split at e
      · cases e
        exact State.markTake_kept _ _ h
      · exact ih h e
    · cases e
      exact State.markTake_kept _ _ (State.cnt_kept _ _ _ _ h)

theorem runAll_kept {α : Type} (f : State → α → Option State) (hf : ∀ s a u, Kept q o s → f s a = some u → Kept q o u)
    (a2 : List α) {a3 : State} (h : Kept q o a3) {u} (e : runAll f a2 a3 = some u) : Kept q o u := by
  induction a2 generalizing a3 with
  | nil => cases e; exact h
  | cons x xs ih =>
    unfold runAll at e
    split at e
    · cases e
    · rename_i hx
      exact ih (hf _ _ _ h hx) e

theorem State.flEdge_kept {s : State} (p : ℕ) (a : ℕ) (i : ℕ) (level : Bool) (t0 : ℕ) (h : Kept q o s) {u} (e : State.flEdge s p a i level t0 = some u) : Kept q o u := by
  unfold State.flEdge at e
  extract_lets sh mk at e
  split at e
  · cases e
  · rename_i h1
    refine runAll_kept _ (fun s a u h e => State.flMark_kept _ _ _ h e) _ ?_ e
    exact runAll_kept _ (fun s a u h e => State.flSheet_kept _ _ _ _ h e) _ h h1

@[simp] theorem State.flClose_kept {s : State} (p : ℕ) (a : ℕ) (t0 : ℕ) (h : Kept q o s) : Kept q o (State.flClose s p a t0) := by simp +contextual (maxDischargeDepth := 200) [State.flClose, *]

@[simp] theorem State.flTake_kept (a0 : List (ℕ × ℕ × FlEv)) {a1 : State} (h : Kept q o a1) : Kept q o (State.flTake a0 a1) := by
  induction a0 generalizing a1 with
  | nil => exact h
  | cons x es ih =>
    obtain ⟨p, a, e⟩ := x
    unfold State.flTake
    split
    · exact ih (kept_flWait _ h)
    · split
      · exact ih (State.flClose_kept _ _ _ h)
      · split
        · rename_i he
          exact ih (State.flEdge_kept _ _ _ _ _ h he)
        · exact ih (kept_flWait _ h)

@[simp] theorem State.flRun_kept {s : State} (es : List (ℕ × ℕ × FlEv)) (h : Kept q o s) : Kept q o (State.flRun s es) := by simp +contextual (maxDischargeDepth := 200) [State.flRun, *]

@[simp] theorem axisHistorySampleEff_kept {s : State} (h : Kept q o s) : Kept q o (axisHistorySampleEff s) := by
  unfold axisHistorySampleEff
  extract_lets k s1 s2 s3
  have h1 : Kept q o s1 := by
    refine kept_foldl _ _ (fun s l h => ?_) h
    split
    · exact kept_hist _ h fun hw => wf_tput _ _ hw
    · exact h
  have h2 : Kept q o s2 := kept_axDisc_histK _ _ h1 fun _ => wf_nil _
  have h3 : Kept q o s3 := by
    refine kept_foldl _ _ (fun s w h => ?_) h2
    split
    · exact State.markTake_kept _ _ h
    · exact h
  split
  · exact h
  · exact State.flRun_kept _ h3

@[simp] theorem axisConvertEff_kept (n : ℕ) {s : State} (h : Kept q o s) : Kept q o (axisConvertEff n s) := by
  unfold axisConvertEff; (try dsimp only)
  repeat' first
    | with_reducible assumption
    | (intro _ _ _; with_reducible assumption)
    | (with_reducible apply kept_foldl; intro _ _ _)
    | with_reducible apply kept_ite
    | with_reducible apply State.complete_kept
    | with_reducible apply State.withDesc_kept
    | split
    | intro _ _ _
    | (intro hw; simp [hw]; done)

@[simp] theorem tideInsertEff_kept (n : ℕ) {s : State} (h : Kept q o s) : Kept q o (tideInsertEff n s) := by
  refine State.withDesc_kept _ _ _ (fun j s h => ?_) h
  extract_lets es
  split
  · exact State.complete_kept _ _ _ h
  split
  · exact State.complete_kept _ _ _ h
  split
  · exact State.complete_kept _ _ _ h
  split
  · exact State.complete_kept _ _ _ h
  · refine State.tideSettle_kept (kept_tideWaits _ (State.decideDue_kept _ (kept_foldl _ _ (fun s x h => ?_) h)))
    split
    rename_i u e
    have hu : Kept q o u := by
      have := State.eccPart_kept 1 (x.1 / 2) h
      rw [e] at this
      exact this
    exact State.putEntry_kept _ _ _ (kept_ite (State.tideEcc_kept _ hu) hu)

@[simp] theorem tideRemoveEff_kept (n : ℕ) {s : State} (h : Kept q o s) : Kept q o (tideRemoveEff n s) := by
  refine State.withDesc_kept _ _ _ (fun j s h => ?_) h
  extract_lets us is
  split
  · exact State.complete_kept _ _ _ h
  split
  · exact State.complete_kept _ _ _ h
  · split
    rename_i e
    refine State.complete_kept _ _ _ (kept_of_eq ?_ e)
    refine kept_foldl_snd _ _ _ (fun x i hx => ?_) (State.decideDue_kept _ h)
    split
    · split
      rename_i u e2
      have hu : Kept q o u := by
        have := State.eccPart_kept 1 (i / 2) hx
        rw [e2] at this
        exact this
      split
      · exact State.tideEcc_kept _ hu
      · exact State.dropAction_kept _ _ (State.delEntry_kept _ hu)
    · exact hx

@[simp] theorem axisRezeroEff_kept (n : ℕ) {s : State} (h : Kept q o s) : Kept q o (axisRezeroEff n s) := by simp +contextual (maxDischargeDepth := 200) [axisRezeroEff, *]

@[simp] theorem hvStepEff_kept {s : State} (h : Kept q o s) : Kept q o (hvStepEff s) := by simp +contextual (maxDischargeDepth := 200) [hvStepEff, *]

@[simp] theorem htrStepEff_kept {s : State} (h : Kept q o s) : Kept q o (htrStepEff s) := by simp +contextual (maxDischargeDepth := 200) [htrStepEff, *]

@[simp] theorem motionStartEff_kept {s : State} (h : Kept q o s) : Kept q o (motionStartEff s) := by simp +contextual (maxDischargeDepth := 200) [motionStartEff, *]

@[simp] theorem tideMotionStopEff_kept {s : State} (h : Kept q o s) : Kept q o (tideMotionStopEff s) := by simp +contextual (maxDischargeDepth := 200) [tideMotionStopEff, *]

@[simp] theorem lawParamEff_kept {s : State} (h : Kept q o s) : Kept q o (lawParamEff s) := by
  refine State.actStatus_kept _ _ (fun d s h => ?_) h
  split
  · exact State.lawParamWrite_kept _ _ h
  · exact h

@[simp] theorem emuGateEff_kept {s : State} (h : Kept q o s) : Kept q o (emuGateEff s) := by simp +contextual (maxDischargeDepth := 200) [emuGateEff, *]

end Sys2Proof.Machine
end

