-- ==== Sys2Proof/Laws/KeptCrossing.lean ====
section
/-! SUPPORT. What the operations of Crossing.lean keep. -/

namespace Sys2Proof.Machine

set_option Elab.async false
set_option linter.unusedTactic false
set_option linter.unreachableTactic false

variable {q : List Instr} {o : List Out}

@[simp] theorem State.refuseChain_kept {s : State} (ms : List Job) (code : ℕ) (status : ℕ) (h : Kept q o s) : Kept q o (State.refuseChain s ms code status) := by unfold State.refuseChain; (try dsimp only); split <;> simp +contextual (maxDischargeDepth := 200) [*]

@[simp] theorem State.enterBoarding_kept {s : State} (ms : List Job) (h : Kept q o s) : Kept q o (State.enterBoarding s ms) := by simp +contextual (maxDischargeDepth := 200) [State.enterBoarding, *]

@[simp] theorem State.boardCheck_kept {s : State} (ms : List Job) (h : Kept q o s) : Kept q o (State.boardCheck s ms) := by unfold State.boardCheck; (try dsimp only); split <;> simp +contextual (maxDischargeDepth := 200) [*]

@[simp] theorem manifestHeadEff_kept (n : ℕ) {s : State} (h : Kept q o s) : Kept q o (manifestHeadEff n s) := by simp +contextual (maxDischargeDepth := 200) [manifestHeadEff, *]

@[simp] theorem State.member_kept {s : State} (n : ℕ) (opc : ℕ) (h : Kept q o s) : Kept q o (State.member s n opc) := by
  unfold State.member; (try dsimp only)
  repeat' first
    | with_reducible assumption
    | (simp +contextual (maxDischargeDepth := 200) [*]; done)
    | split
    | (with_reducible apply kept_foldl; intro _ _ _)
    | (with_reducible apply kept_ite)
    | with_reducible apply State.boardCheck_kept
    | with_reducible apply State.complete_kept
    | with_reducible apply State.setSq_kept
    | with_reducible apply State.withDesc_kept

@[simp] theorem manifestStationEff_kept (n : ℕ) {s : State} (h : Kept q o s) : Kept q o (manifestStationEff n s) := by simp +contextual (maxDischargeDepth := 200) [manifestStationEff, *]

@[simp] theorem manifestPathEff_kept (n : ℕ) {s : State} (h : Kept q o s) : Kept q o (manifestPathEff n s) := by simp +contextual (maxDischargeDepth := 200) [manifestPathEff, *]

@[simp] theorem manifestWindowEff_kept (n : ℕ) {s : State} (h : Kept q o s) : Kept q o (manifestWindowEff n s) := by simp +contextual (maxDischargeDepth := 200) [manifestWindowEff, *]

@[simp] theorem manifestTideEff_kept (n : ℕ) {s : State} (h : Kept q o s) : Kept q o (manifestTideEff n s) := by simp +contextual (maxDischargeDepth := 200) [manifestTideEff, *]

@[simp] theorem boardedEff_kept (crx : ℕ) {s : State} (h : Kept q o s) : Kept q o (boardedEff crx s) := by
  unfold boardedEff
  split
  · exact h
  split
  · exact h
  · refine kept_foldl _ _ (fun s j h => State.complete_kept _ _ _ h) (State.chartChange_kept (State.crxRecord_kept _ _ _ ?_))
    refine State.decideDue_kept _ (kept_tideArmed _ (State.setCrx_kept _ h) fun hw => ?_)
    exact wf_foldl _ (fun t i ht => wf_tput _ _ ht) _ hw

@[simp] theorem boardingTimeoutEff_kept (crx : ℕ) {s : State} (h : Kept q o s) : Kept q o (boardingTimeoutEff crx s) := by unfold boardingTimeoutEff; (try dsimp only); split <;> simp +contextual (maxDischargeDepth := 200) [*]

@[simp] theorem crossingAbandonEff_kept (n : ℕ) {s : State} (h : Kept q o s) : Kept q o (crossingAbandonEff n s) := by
  unfold crossingAbandonEff; (try dsimp only)
  repeat' first
    | with_reducible assumption
    | (intro _ _ _; with_reducible assumption)
    | (with_reducible apply kept_foldl; intro _ _ _)
    | with_reducible apply kept_ite
    | with_reducible apply State.complete_kept
    | with_reducible apply State.localAbandon_kept
    | with_reducible apply State.pwrTake_kept
    | with_reducible apply State.toDrafted_kept
    | with_reducible apply State.withDesc_kept
    | split
    | intro _ _ _
    | (intro hw; simp [hw]; done)

@[simp] theorem pathClearEff_kept (n : ℕ) {s : State} (h : Kept q o s) : Kept q o (pathClearEff n s) := by simp +contextual (maxDischargeDepth := 200) [pathClearEff, *]

@[simp] theorem castOffEff_kept {s : State} (h : Kept q o s) : Kept q o (castOffEff s) := by
  refine State.act_kept _ _ (fun d s h => ?_) h
  split
  · exact h
  split
  · exact h
  · refine State.chartChange_kept (State.crxRecord_kept _ _ _ ?_)
    have h1 := fun c => State.setCrx_kept (q := q) (o := o) c (kept_castCount (s.castCount + 1) h)
    exact kept_ite (State.wr_kept _ _ _ _ (h1 _)) (State.cnt_kept _ _ _ _ (h1 _))

@[simp] theorem windowOpenEff_kept {s : State} (h : Kept q o s) : Kept q o (windowOpenEff s) := by
  unfold windowOpenEff; (try dsimp only)
  repeat' first
    | with_reducible assumption
    | (intro _ _ _; with_reducible assumption)
    | (with_reducible apply kept_foldl; intro _ _ _)
    | with_reducible apply kept_ite
    | with_reducible apply State.act_kept
    | with_reducible apply State.setCrx_kept
    | split
    | intro _ _ _
    | (intro hw; simp [hw]; done)

@[simp] theorem windowCloseEff_kept {s : State} (h : Kept q o s) : Kept q o (windowCloseEff s) := by
  unfold windowCloseEff; (try dsimp only)
  repeat' first
    | with_reducible assumption
    | (intro _ _ _; with_reducible assumption)
    | (with_reducible apply kept_foldl; intro _ _ _)
    | with_reducible apply kept_ite
    | with_reducible apply State.act_kept
    | with_reducible apply State.closeWin_kept
    | with_reducible apply State.setCrx_kept
    | split
    | intro _ _ _
    | (intro hw; simp [hw]; done)

@[simp] theorem landEff_kept {s : State} (h : Kept q o s) : Kept q o (landEff s) := by
  unfold landEff; (try dsimp only)
  repeat' first
    | with_reducible assumption
    | (intro _ _ _; with_reducible assumption)
    | (with_reducible apply kept_foldl; intro _ _ _)
    | with_reducible apply kept_ite
    | with_reducible apply State.act_kept
    | with_reducible apply State.closeWin_kept
    | with_reducible apply State.endExpo_kept
    | with_reducible apply State.jam_kept
    | with_reducible apply State.landEnd_kept
    | with_reducible apply State.partDone_kept
    | with_reducible apply State.pwrTake_kept
    | split
    | intro _ _ _
    | (intro hw; simp [hw]; done)

@[simp] theorem sheetEdgeEff_kept (i : ℕ) (level : Bool) (ns : ℕ) {s : State} (h : Kept q o s) : Kept q o (sheetEdgeEff i level ns s) := by simp +contextual (maxDischargeDepth := 200) [sheetEdgeEff, *]

@[simp] theorem abandonCompleteEff_kept (crx : ℕ) {s : State} (h : Kept q o s) : Kept q o (abandonCompleteEff crx s) := by unfold abandonCompleteEff; (try dsimp only); split <;> simp +contextual (maxDischargeDepth := 200) [*]

@[simp] theorem engineAbandonEff_kept {s : State} (h : Kept q o s) : Kept q o (engineAbandonEff s) := by simp +contextual (maxDischargeDepth := 200) [engineAbandonEff, *]

@[simp] theorem engineAbandonLaserCutEff_kept {s : State} (h : Kept q o s) : Kept q o (engineAbandonLaserCutEff s) := by unfold engineAbandonLaserCutEff; (try dsimp only); split <;> simp +contextual (maxDischargeDepth := 200) [*]

@[simp] theorem engineAbandonShutdownEff_kept {s : State} (h : Kept q o s) : Kept q o (engineAbandonShutdownEff s) := by
  unfold engineAbandonShutdownEff
  split
  · exact h
  split
  · exact h
  · rename_i a _ _
    extract_lets s1 s2 s3 s4 s5 s6
    have h1 : Kept q o s1 := kept_foldl _ _ (fun s n h => State.hvZero_kept _ h) h
    have h2 : Kept q o s2 := kept_foldl _ _ (fun s n h => State.motStop_kept _ _ h) h1
    have h3 : Kept q o s3 := kept_foldl _ _ (fun s n h => State.drvHalt_kept _ _ h) h2
    have h4 : Kept q o s4 := kept_foldl _ _ (fun s n h => State.htrDown_kept _ h) h3
    have h5 : Kept q o s5 := kept_ite (kept_graveHold _ h4) h4
    have h6 : Kept q o s6 := by
      refine kept_foldl _ _ (fun s c h => ?_) h5
      split
      · exact h
      · split
        · exact State.toDrafted_kept _ _ h
        split
        · exact State.abandonEnd_kept _ h
        · extract_lets lost s7 s8
          have h7 : Kept q o s7 := State.dropOwned_kept _ _ h
          have h8 : Kept q o s8 := kept_foldl _ _ (fun s p h => State.feedDrop_kept _ _ h) h7
          split
          · exact h8
          · exact State.abandonEnd_kept _ h8
    exact State.pwrTake_kept (kept_eng _ h6)

end Sys2Proof.Machine
end

