-- ==== Sys2Proof/Laws/KeptFrame.lean ====
section
/-! SUPPORT. What the operations of Frame.lean keep. -/

namespace Sys2Proof.Machine

set_option Elab.async false
set_option linter.unusedTactic false
set_option linter.unreachableTactic false

variable {q : List Instr} {o : List Out}

@[simp] theorem readWords_kept (n : ℕ) (a1 : ℕ) (a2 : ℕ) {a3 : State} (h : Kept q o a3) : Kept q o (readWords n a1 a2 a3).2 := by
  induction a1 generalizing a2 a3 with
  | zero => exact h
  | succ k ih =>
    unfold readWords
    extract_lets a
    split
    rename_i bad u e
    have hu : Kept q o u := by
      refine kept_of_eq ?_ e
      split
      · exact h
      · exact State.eccRead_kept _ _ h
    split
    rename_i e2
    exact kept_of_eq (ih _ hu) e2

@[simp] theorem chunkWord_kept (a0 : List (Option ℕ)) {a1 : State} (h : Kept q o a1) : Kept q o (chunkWord a0 a1).2 := by
  induction a0 generalizing a1 with
  | nil => exact h
  | cons c cs ih =>
    cases c with
    | some c =>
      unfold chunkWord
      split
      rename_i e
      exact kept_of_eq (ih h) e
    | none =>
      unfold chunkWord
      split
      rename_i e
      split
      rename_i e2
      exact kept_of_eq (ih (kept_of_eq (State.takeFree_kept _ h) e)) e2

@[simp] theorem beamChunks_kept (em : ℕ) (edge : ℕ) (a2 : ℕ) (a3 : ℕ) (a4 : List (List (Option ℕ))) {a5 : State} (h : Kept q o a5) : Kept q o (beamChunks em edge a2 a3 a4 a5).2 := by
  induction a4 generalizing a2 a3 a5 with
  | nil => exact h
  | cons c cs ih =>
    unfold beamChunks
    split
    · exact ih _ _ h
    · extract_lets r
      split
      · split
        rename_i e
        exact kept_of_eq (ih _ _ h) e
      · split
        rename_i e
        split
        rename_i e2
        exact kept_of_eq (ih _ _ (kept_of_eq (chunkWord_kept _ h) e)) e2

@[simp] theorem State.beamBlocks_kept {s : State} (n : ℕ) (b : ℤ) (x : Beam) (h : Kept q o s) : Kept q o (State.beamBlocks s n b x).2.2 := by simp +contextual (maxDischargeDepth := 200) [State.beamBlocks, *]

@[simp] theorem State.frameBeams_kept {s : State} (n : ℕ) (b : ℤ) (a3 : List Beam) (h : Kept q o s) : Kept q o (State.frameBeams s n b a3).2.2 := by
  induction a3 generalizing s with
  | nil => exact h
  | cons x xs ih =>
    unfold State.frameBeams
    split
    rename_i u e
    have hu : Kept q o u := by
      have := State.beamBlocks_kept n b x h
      rw [e] at this
      exact this
    split
    rename_i e2
    have := ih hu
    rw [e2] at this
    exact this

@[simp] theorem State.sendFrame_kept {s : State} (n : ℕ) (b : ℤ) (set : ℕ) (beams : List Beam) (lines : List (ℕ × ℕ × ℕ)) (h : Kept q o s) : Kept q o (State.sendFrame s n b set beams lines) := by unfold State.sendFrame; (try dsimp only); split <;> simp +contextual (maxDischargeDepth := 200) [*]

@[simp] theorem State.countLit_kept {s : State} (n : ℕ) (set : ℕ) (x : Beam) (h : Kept q o s) : Kept q o (State.countLit s n set x) := by simp +contextual (maxDischargeDepth := 200) [State.countLit, *]

@[simp] theorem State.waveRead_kept {s : State} (n : ℕ) (set : ℕ) (h : Kept q o s) : Kept q o (State.waveRead s n set).2 := by simp +contextual (maxDischargeDepth := 200) [State.waveRead, *]

@[simp] theorem State.sendDirect_kept {s : State} (n : ℕ) (b : ℤ) (set : ℕ) (beams : List Beam) (h : Kept q o s) : Kept q o (State.sendDirect s n b set beams) := by simp +contextual (maxDischargeDepth := 200) [State.sendDirect, *]

end Sys2Proof.Machine
end

