-- ==== Sys2Proof/Laws/KeptStation.lean ====
section
/-! SUPPORT. What the operations of Station.lean keep. -/

namespace Sys2Proof.Machine

set_option Elab.async false
set_option linter.unusedTactic false
set_option linter.unreachableTactic false

variable {q : List Instr} {o : List Out}

@[simp] theorem State.facetLost_kept {s : State} (n : ℕ) (h : Kept q o s) : Kept q o (State.facetLost s n) := by simp +contextual (maxDischargeDepth := 200) [State.facetLost, *]

@[simp] theorem State.mismatch_kept {s : State} (n : ℕ) (h : Kept q o s) : Kept q o (State.mismatch s n) := by simp +contextual (maxDischargeDepth := 200) [State.mismatch, *]

@[simp] theorem State.beamMark_kept {s : State} (n : ℕ) (h : Kept q o s) : Kept q o (State.beamMark s n) := by simp +contextual (maxDischargeDepth := 200) [State.beamMark, *]

@[simp] theorem State.sweepBegin_kept {s : State} (n : ℕ) (t0 : ℕ) (h : Kept q o s) : Kept q o (State.sweepBegin s n t0) := by simp +contextual (maxDischargeDepth := 200) [State.sweepBegin, *]

@[simp] theorem State.learnStart_kept {s : State} (n : ℕ) (h : Kept q o s) : Kept q o (State.learnStart s n) := by simp +contextual (maxDischargeDepth := 200) [State.learnStart, *]

@[simp] theorem sosEdgeEff_kept (n : ℕ) (tick : ℕ) (pulse : ℕ) {s : State} (h : Kept q o s) : Kept q o (sosEdgeEff n tick pulse s) := by simp +contextual (maxDischargeDepth := 200) [sosEdgeEff, *]

@[simp] theorem sosWindowExpireEff_kept (n : ℕ) {s : State} (h : Kept q o s) : Kept q o (sosWindowExpireEff n s) := by unfold sosWindowExpireEff; (try dsimp only); split <;> simp +contextual (maxDischargeDepth := 200) [*]

@[simp] theorem State.eosFacet_kept {s : State} (n : ℕ) (f : ℕ) (D : ℕ) (h : Kept q o s) : Kept q o (State.eosFacet s n f D) := by simp +contextual (maxDischargeDepth := 200) [State.eosFacet, *]

@[simp] theorem eosEdgeEff_kept (n : ℕ) (tick : ℕ) (pulse : ℕ) {s : State} (h : Kept q o s) : Kept q o (eosEdgeEff n tick pulse s) := by unfold eosEdgeEff; (try dsimp only); split <;> simp +contextual (maxDischargeDepth := 200) [*]

@[simp] theorem facetLearnEndEff_kept (n : ℕ) {s : State} (h : Kept q o s) : Kept q o (facetLearnEndEff n s) := by simp +contextual (maxDischargeDepth := 200) [facetLearnEndEff, *]

@[simp] theorem State.passLines_kept {s : State} (n : ℕ) (offs : List ℕ) (h : Kept q o s) : Kept q o (State.passLines s n offs) := by
  unfold State.passLines; (try dsimp only)
  repeat' first
    | with_reducible assumption
    | (simp +contextual (maxDischargeDepth := 200) [*]; done)
    | split
    | (with_reducible apply kept_foldl; intro _ _ _)
    | (with_reducible apply kept_ite)
    | with_reducible apply State.complete_kept
    | with_reducible apply State.endExpo_kept
    | with_reducible apply State.setStn_kept
    | with_reducible apply State.shareShow_kept

@[simp] theorem State.rasterDone_kept {s : State} (l : ℕ) (crx : ℕ) (h : Kept q o s) : Kept q o (State.rasterDone s l crx) := by simp +contextual (maxDischargeDepth := 200) [State.rasterDone, *]

@[simp] theorem State.rasterFor_kept {s : State} (l : ℕ) (crx : ℕ) (h : Kept q o s) : Kept q o (State.rasterFor s l crx) := by simp +contextual (maxDischargeDepth := 200) [State.rasterFor, *]

@[simp] theorem State.skipRows_kept {s : State} (n : ℕ) (crx : ℕ) (hi : ℕ) (goal : ℕ) (p : Part) (k : ℕ) (h : Kept q o s) : Kept q o (State.skipRows s n crx hi goal p k) := by
  unfold State.skipRows; (try dsimp only)
  repeat' first
    | with_reducible assumption
    | (simp +contextual (maxDischargeDepth := 200) [*]; done)
    | split
    | (with_reducible apply kept_foldl; intro _ _ _)
    | (with_reducible apply kept_ite)
    | with_reducible apply State.rasterDone_kept
    | with_reducible apply State.rasterFor_kept
    | with_reducible apply State.setCrx_kept
    | with_reducible apply State.wr_kept

@[simp] theorem State.writeLine_kept {s : State} (n : ℕ) (c : Crossing) (p : Part) (off : ℕ) (e : ℕ) (g : Group) (h : Kept q o s) : Kept q o (State.writeLine s n c p off e g).2 := by unfold State.writeLine; (try dsimp only); split <;> simp +contextual (maxDischargeDepth := 200) [*]

@[simp] theorem State.writeRow_kept {s : State} (n : ℕ) (b : ℤ) (r : ℕ) (g : Group) (h : Kept q o s) : Kept q o (State.writeRow s n b r g).2 := by
  unfold State.writeRow; (try dsimp only)
  repeat' first
    | with_reducible assumption
    | (simp +contextual (maxDischargeDepth := 200) [*]; done)
    | split
    | (with_reducible apply kept_foldl; intro _ _ _)
    | (with_reducible apply kept_ite)
    | with_reducible apply State.defect_kept
    | with_reducible apply State.setStn_kept

@[simp] theorem State.writeRows_kept (n : ℕ) (b : ℤ) (a2 : ℕ) (a3 : ℕ) (a4 : Group) {a5 : State} (h : Kept q o a5) : Kept q o (State.writeRows n b a2 a3 a4 a5).2 := by
  induction a2 generalizing a3 a4 a5 with
  | zero => exact h
  | succ k ih =>
    unfold State.writeRows
    split
    rename_i e
    exact ih _ _ (kept_of_eq (State.writeRow_kept _ _ _ _ h) e)

@[simp] theorem State.writeGroup_kept {s : State} (n : ℕ) (b : ℤ) (h : Kept q o s) : Kept q o (State.writeGroup s n b) := by
  unfold State.writeGroup; (try dsimp only)
  repeat' first
    | with_reducible assumption
    | (simp +contextual (maxDischargeDepth := 200) [*]; done)
    | split
    | (with_reducible apply kept_foldl; intro _ _ _)
    | (with_reducible apply kept_ite)
    | with_reducible apply State.countLit_kept
    | with_reducible apply State.passLines_kept
    | with_reducible apply State.sendDirect_kept
    | with_reducible apply State.sendFrame_kept
    | with_reducible apply State.skipRows_kept

@[simp] theorem State.rebase_kept {s : State} (n : ℕ) (b : ℤ) (k : ℕ) (h : Kept q o s) : Kept q o (State.rebase s n b k) := by
  unfold State.rebase; (try dsimp only)
  repeat' first
    | with_reducible assumption
    | (simp +contextual (maxDischargeDepth := 200) [*]; done)
    | split
    | (with_reducible apply kept_foldl; intro _ _ _)
    | (with_reducible apply kept_ite)
    | with_reducible apply State.cnt_kept
    | with_reducible apply State.defect_kept
    | with_reducible apply State.passLines_kept
    | with_reducible apply State.raise_kept
    | with_reducible apply State.setStn_kept

@[simp] theorem State.phaseLoop_kept {s : State} (n : ℕ) (L : ℤ) (h : Kept q o s) : Kept q o (State.phaseLoop s n L) := by simp +contextual (maxDischargeDepth := 200) [State.phaseLoop, *]

@[simp] theorem State.slew_kept {s : State} (n : ℕ) (h : Kept q o s) : Kept q o (State.slew s n) := by simp +contextual (maxDischargeDepth := 200) [State.slew, *]

@[simp] theorem State.lagShow_kept {s : State} (n : ℕ) (L : ℤ) (h : Kept q o s) : Kept q o (State.lagShow s n L) := by simp +contextual (maxDischargeDepth := 200) [State.lagShow, *]

@[simp] theorem State.sweepLag_kept {s : State} (n : ℕ) (X : ℤ) (h : Kept q o s) : Kept q o (State.sweepLag s n X).2 := by simp +contextual (maxDischargeDepth := 200) [State.sweepLag, *]

@[simp] theorem State.sweepGroup_kept {s : State} (n : ℕ) (L : ℤ) (h : Kept q o s) : Kept q o (State.sweepGroup s n L) := by simp +contextual (maxDischargeDepth := 200) [State.sweepGroup, *]

@[simp] theorem sweepStartEff_kept (n : ℕ) {s : State} (h : Kept q o s) : Kept q o (sweepStartEff n s) := by simp +contextual (maxDischargeDepth := 200) [sweepStartEff, *]

@[simp] theorem State.exposeStart_kept {s : State} (n : ℕ) (crx : ℕ) (h : Kept q o s) : Kept q o (State.exposeStart s n crx) := by
  unfold State.exposeStart; (try dsimp only)
  repeat' first
    | with_reducible assumption
    | (simp +contextual (maxDischargeDepth := 200) [*]; done)
    | split
    | (with_reducible apply kept_foldl; intro _ _ _)
    | (with_reducible apply kept_ite)
    | with_reducible apply State.begun_kept
    | with_reducible apply State.charAbort_kept
    | with_reducible apply State.endExpo_kept
    | with_reducible apply State.raise_kept
    | with_reducible apply State.setCrx_kept
    | with_reducible apply State.setStn_kept
    | with_reducible apply State.wrI_kept

@[simp] theorem exposeStartEff_kept {s : State} (h : Kept q o s) : Kept q o (exposeStartEff s) := by simp +contextual (maxDischargeDepth := 200) [exposeStartEff, *]

@[simp] theorem exposeEndEff_kept {s : State} (h : Kept q o s) : Kept q o (exposeEndEff s) := by simp +contextual (maxDischargeDepth := 200) [exposeEndEff, *]

@[simp] theorem markWindowEff_kept {s : State} (h : Kept q o s) : Kept q o (markWindowEff s) := by simp +contextual (maxDischargeDepth := 200) [markWindowEff, *]

@[simp] theorem State.markAt_kept {s : State} (m : ℕ) (falling : Bool) (time : ℕ) (h : Kept q o s) : Kept q o (State.markAt s m falling time) := by unfold State.markAt; (try dsimp only); split <;> simp +contextual (maxDischargeDepth := 200) [*]

@[simp] theorem markEdgeEff_kept (m : ℕ) (falling : Bool) (time : ℕ) {s : State} (h : Kept q o s) : Kept q o (markEdgeEff m falling time s) := by simp +contextual (maxDischargeDepth := 200) [markEdgeEff, *]

@[simp] theorem markWindowCloseEff_kept {s : State} (h : Kept q o s) : Kept q o (markWindowCloseEff s) := by
  unfold markWindowCloseEff; (try dsimp only)
  repeat' first
    | with_reducible assumption
    | (simp +contextual (maxDischargeDepth := 200) [*]; done)
    | split
    | (with_reducible apply kept_foldl; intro _ _ _)
    | (with_reducible apply kept_ite)
    | with_reducible apply State.markFail_kept
    | with_reducible apply kept_marks

end Sys2Proof.Machine
end

