-- ==== Sys2Proof/Laws/KeptRaster.lean ====
section
/-! SUPPORT. What the operations of Raster.lean keep. -/

namespace Sys2Proof.Machine

set_option Elab.async false
set_option linter.unusedTactic false
set_option linter.unreachableTactic false

variable {q : List Instr} {o : List Out}

@[simp] theorem State.reserve_kept {s : State} (crx : ℕ) (p : Part) (a3 : ℕ) (a4 : ℕ) (h : Kept q o s) : Kept q o (State.reserve s crx p a3 a4) := by
  induction a3 generalizing s a4 with
  | zero => exact h
  | succ k ih => exact ih _ (State.setStn_kept _ _ h)

@[simp] theorem State.rowRead_kept {s : State} (l : ℕ) (c : Crossing) (p : Part) (off : ℕ) (h : Kept q o s) : Kept q o (State.rowRead s l c p off) := by unfold State.rowRead; (try dsimp only); split <;> simp +contextual (maxDischargeDepth := 200) [*]

@[simp] theorem rasterRowFetchEff_kept (l : ℕ) {s : State} (h : Kept q o s) : Kept q o (rasterRowFetchEff l s) := by
  unfold rasterRowFetchEff; (try dsimp only)
  repeat' first
    | with_reducible assumption
    | (simp +contextual (maxDischargeDepth := 200) [*]; done)
    | split
    | (with_reducible apply kept_foldl; intro _ _ _)
    | (with_reducible apply kept_ite)
    | with_reducible apply State.reserve_kept
    | with_reducible apply State.rowRead_kept
    | with_reducible apply State.shareShow_kept
    | with_reducible apply State.wr_kept

@[simp] theorem State.writeWords_kept {s : State} (n : ℕ) (a2 : ℕ) (a3 : List ℕ) (h : Kept q o s) : Kept q o (State.writeWords s n a2 a3) := by
  induction a3 generalizing s a2 with
  | nil => exact h
  | cons v vs ih => exact ih _ (kept_hold _ (State.eccWrite_kept _ _ h) fun hw => wf_tput _ _ hw)

@[simp] theorem State.setLine_kept {s : State} (n : ℕ) (r : Row) (f : HLine → HLine) (h : Kept q o s) : Kept q o (State.setLine s n r f) := by simp +contextual (maxDischargeDepth := 200) [State.setLine, *]

@[simp] theorem State.rowArrive_kept {s : State} (l : ℕ) (r : Row) (bs : List Byte) (h : Kept q o s) : Kept q o (State.rowArrive s l r bs) := by unfold State.rowArrive; (try dsimp only); split <;> simp +contextual (maxDischargeDepth := 200) [*]

@[simp] theorem State.rowFail_kept {s : State} (l : ℕ) (r : Row) (poisoned : Bool) (h : Kept q o s) : Kept q o (State.rowFail s l r poisoned) := by simp +contextual (maxDischargeDepth := 200) [State.rowFail, *]

@[simp] theorem rasterReadCompleteEff_kept (l : ℕ) (data : ReadRes) {s : State} (h : Kept q o s) : Kept q o (rasterReadCompleteEff l data s) := by
  unfold rasterReadCompleteEff
  split
  · exact h
  split
  · exact h
  split
  rename_i inj u e
  have hu : Kept q o u := kept_of_eq (State.fabricTake_kept h) e
  extract_lets x s1 s2 s3 s4 s5
  have h1 : Kept q o s1 := State.setRlt_kept _ _ hu
  have h2 : Kept q o s2 := kept_ite (State.rasterFor_kept _ _ h1) h1
  have h3 : Kept q o s3 := kept_ite (State.eccCe_kept _ _ h2) h2
  have h4 : Kept q o s4 := by
    simp only [s4]
    split
    · exact State.rowFail_kept _ _ _ (State.eccUe_kept _ _ h3)
    · split
      · exact State.rowArrive_kept _ _ _ h3
      · exact State.rowFail_kept _ _ _ h3
      · exact State.rowFail_kept _ _ _ h3
  have h5 : Kept q o s5 := kept_ite (State.wr_kept _ _ _ _ h4) h4
  have h6 := State.shareShow_kept (l / 2) (State.rasterDone_kept l (Row.crx (by assumption)) h5)
  exact kept_foldl _ _ (fun s i h => State.xferRun_kept (14 + i) xferFuel h) h6

@[simp] theorem State.setDot_kept {s : State} (n : ℕ) (k : ℕ) (map : Option (List ℕ)) (wave : Option (List ℕ)) (h : Kept q o s) : Kept q o (State.setDot s n k map wave) := by
  unfold State.setDot; (try dsimp only)
  repeat' first
    | with_reducible assumption
    | (intro _ _ _; with_reducible assumption)
    | (with_reducible apply kept_foldl; intro _ _ _)
    | with_reducible apply kept_ite
    | with_reducible apply State.eccWrite_kept
    | with_reducible apply State.wr_kept
    | split
    | intro _ _ _
    | (intro hw; simp [hw]; done)

@[simp] theorem State.dotApply_kept {s : State} (j : Job) (n : ℕ) (k : ℕ) (map : Option (List ℕ)) (wave : Option (List ℕ)) (h : Kept q o s) : Kept q o (State.dotApply s j n k map wave) := by unfold State.dotApply; (try dsimp only); split <;> simp +contextual (maxDischargeDepth := 200) [*]

@[simp] theorem dotSetLoadEff_kept (n : ℕ) (data : ReadRes) {s0 : State} (h : Kept q o s0) : Kept q o (dotSetLoadEff n data s0) := by
  refine State.withDesc_kept _ _ _ (fun j s h => ?_) h
  extract_lets t k m w
  split
  · exact State.complete_kept _ _ _ h
  split
  · exact State.complete_kept _ _ _ h
  split
  · exact State.complete_kept _ _ _ h
  split
  · exact State.complete_kept _ _ _ h
  split
  · exact (by assumption)
  · refine State.loadRead_kept _ _ _ _ _ _ _ _ (by assumption) (fun bs s h => ?_) (fun s h => h) h
    extract_lets map wave
    split
    · exact State.loadDone_kept _ _ _ _ _ h
    · exact State.dotApply_kept _ _ _ _ _ h

@[simp] theorem State.loadBack_kept {s : State} (n : ℕ) (l : HeadLoad) (bytes : List Byte) (h : Kept q o s) : Kept q o (State.loadBack s n l bytes) := by simp +contextual (maxDischargeDepth := 200) [State.loadBack, *]

end Sys2Proof.Machine
end

