-- ==== Sys2Proof/Laws/KeptFenlink.lean ====
section
/-! SUPPORT. What the operations of Fenlink.lean keep. -/

namespace Sys2Proof.Machine

set_option Elab.async false
set_option linter.unusedTactic false
set_option linter.unreachableTactic false

variable {q : List Instr} {o : List Out}

@[simp] theorem State.setFport_kept {s : State} (p : ℕ) (x : FPort) (h : Kept q o s) : Kept q o (State.setFport s p x) := by simp +contextual (maxDischargeDepth := 200) [State.setFport, *]

@[simp] theorem State.flFrame_kept {s : State} (p : ℕ) (t0 : ℕ) (addr : ℕ) (typ : ℕ) (tally : ℕ) (pay : List Byte) (h : Kept q o s) : Kept q o (State.flFrame s p t0 addr typ tally pay) := by simp +contextual (maxDischargeDepth := 200) [State.flFrame, *]

@[simp] theorem State.flRead_kept {s : State} (p : ℕ) (a : ℕ) (h : Kept q o s) : Kept q o (State.flRead s p a).2 := by simp +contextual (maxDischargeDepth := 200) [State.flRead, *]

@[simp] theorem State.flNodes_kept {s : State} (p : ℕ) (h : Kept q o s) : Kept q o (State.flNodes s p).2 := by
  refine kept_foldl_snd _ _ _ (fun r x hr => ?_) h
  exact State.flRead_kept _ _ hr

@[simp] theorem State.flRoll_kept {s : State} (p : ℕ) (t0 : ℕ) (ns : List (ℕ × FNode)) (h : Kept q o s) : Kept q o (State.flRoll s p t0 ns) := by
  unfold State.flRoll; (try dsimp only)
  repeat' first
    | with_reducible assumption
    | (simp +contextual (maxDischargeDepth := 200) [*]; done)
    | split
    | (with_reducible apply kept_foldl; intro _ _ _)
    | (with_reducible apply kept_ite)
    | with_reducible apply State.flFrame_kept
    | with_reducible apply State.setFnode_kept
    | with_reducible apply State.setFport_kept

@[simp] theorem State.flMiss_kept {s : State} (p : ℕ) (a : ℕ) (h : Kept q o s) : Kept q o (State.flMiss s p a) := by simp +contextual (maxDischargeDepth := 200) [State.flMiss, *]

@[simp] theorem State.flOverdue_kept {s : State} (p : ℕ) (h : Kept q o s) : Kept q o (State.flOverdue s p) := by simp +contextual (maxDischargeDepth := 200) [State.flOverdue, *]

@[simp] theorem State.flSend_kept {s : State} (p : ℕ) (t0 : ℕ) (as : List ℕ) (h : Kept q o s) : Kept q o (State.flSend s p t0 as) := by simp +contextual (maxDischargeDepth := 200) [State.flSend, *]

@[simp] theorem fenlinkCycleEff_kept (p : ℕ) {s : State} (h : Kept q o s) : Kept q o (fenlinkCycleEff p s) := by simp +contextual (maxDischargeDepth := 200) [fenlinkCycleEff, *]

@[simp] theorem fenlinkPollEff_kept (p : ℕ) {s : State} (h : Kept q o s) : Kept q o (fenlinkPollEff p s) := by
  unfold fenlinkPollEff
  extract_lets x moor
  split
  · exact h
  split
  · exact h
  split
  · exact h
  · split
    rename_i ns s2 e
    have h2 : Kept q o s2 := by
      have := State.flNodes_kept p (State.flOverdue_kept p h)
      rw [e] at this
      exact this
    extract_lets s3 x'
    have h3 : Kept q o s3 := by
      simp only [s3]
      split
      · exact kept_ite (State.wr_kept _ _ _ _ h2) h2
      · exact h2
    clear_value x'
    split
    · extract_lets out s4
      have h4 : Kept q o s4 := State.setFport_kept _ _ h3
      exact State.flFrame_kept _ _ _ _ _ _ (State.setFnode_kept _ _ _ h4)
    · exact kept_ite (State.setFport_kept _ _ h3) (State.flRoll_kept _ _ _ (State.setFport_kept _ _ h3))

@[simp] theorem State.flBad_kept {s : State} (p : ℕ) (h : Kept q o s) : Kept q o (State.flBad s p) := by simp +contextual (maxDischargeDepth := 200) [State.flBad, *]

@[simp] theorem State.flAccept_kept {s : State} (p : ℕ) (a : ℕ) (levels : ℕ) (flags : ℕ) (edges : List (ℕ × Bool × ℕ)) (h : Kept q o s) : Kept q o (State.flAccept s p a levels flags edges) := by simp +contextual (maxDischargeDepth := 200) [State.flAccept, *]

@[simp] theorem State.flReply_kept {s : State} (p : ℕ) (a : ℕ) (tally : ℕ) (pay : List Byte) (h : Kept q o s) : Kept q o (State.flReply s p a tally pay) := by simp +contextual (maxDischargeDepth := 200) [State.flReply, *]

@[simp] theorem replyEff_kept (p : ℕ) (frame : List Byte) {s : State} (h : Kept q o s) : Kept q o (replyEff p frame s) := by
  unfold replyEff; (try dsimp only)
  repeat' first
    | with_reducible assumption
    | (simp +contextual (maxDischargeDepth := 200) [*]; done)
    | split
    | (with_reducible apply kept_foldl; intro _ _ _)
    | (with_reducible apply kept_ite)
    | with_reducible apply State.flBad_kept
    | with_reducible apply State.flReply_kept

@[simp] theorem replyMissedEff_kept (p : ℕ) (a : ℕ) {s : State} (h : Kept q o s) : Kept q o (replyMissedEff p a s) := by simp +contextual (maxDischargeDepth := 200) [replyMissedEff, *]

@[simp] theorem State.flHello_kept {s : State} (p : ℕ) (a : ℕ) (id : ℕ) (tally : ℕ) (h : Kept q o s) : Kept q o (State.flHello s p a id tally) := by unfold State.flHello; (try dsimp only); split <;> simp +contextual (maxDischargeDepth := 200) [*]

@[simp] theorem helloEff_kept (p : ℕ) (frame : List Byte) {s : State} (h : Kept q o s) : Kept q o (helloEff p frame s) := by
  unfold helloEff; (try dsimp only)
  repeat' first
    | with_reducible assumption
    | (simp +contextual (maxDischargeDepth := 200) [*]; done)
    | split
    | (with_reducible apply kept_foldl; intro _ _ _)
    | (with_reducible apply kept_ite)
    | with_reducible apply State.flBad_kept
    | with_reducible apply State.flHello_kept

@[simp] theorem State.flWrite_kept {s : State} (p : ℕ) (first : ℕ) (cnt : ℕ) (es : List ℕ) (h : Kept q o s) : Kept q o (State.flWrite s p first cnt es) := by simp +contextual (maxDischargeDepth := 200) [State.flWrite, *]

@[simp] theorem nodeListLoadEff_kept (n : ℕ) (data : ReadRes) {s0 : State} (h : Kept q o s0) : Kept q o (nodeListLoadEff n data s0) := by
  refine State.withDesc_kept _ _ _ (fun j s h => ?_) h
  extract_lets p first cnt
  split
  · exact State.complete_kept _ _ _ h
  split
  · exact State.complete_kept _ _ _ h
  · refine State.loadRead_kept _ _ _ _ _ _ _ _ (by assumption) (fun bs s h => ?_) (fun s h => h) h
    extract_lets es new
    clear_value new
    split
    · exact State.loadDone_kept _ _ _ _ _ h
    · split
      · exact State.loadDone_kept _ _ _ _ _ h
      · exact State.loadDone_kept _ _ _ _ _ (State.flWrite_kept _ _ _ _ h)

@[simp] theorem State.flFinal_kept {s : State} (p : ℕ) (h : Kept q o s) : Kept q o (State.flFinal s p) := by simp +contextual (maxDischargeDepth := 200) [State.flFinal, *]

@[simp] theorem State.flMoor_kept {s : State} (h : Kept q o s) : Kept q o (State.flMoor s) := by unfold State.flMoor; (try dsimp only); split <;> simp +contextual (maxDischargeDepth := 200) [*]

@[simp] theorem State.flResume_kept {s : State} (h : Kept q o s) : Kept q o (State.flResume s) := by simp +contextual (maxDischargeDepth := 200) [State.flResume, *]

@[simp] theorem State.flRetireAll_kept {s : State} (p : ℕ) (h : Kept q o s) : Kept q o (State.flRetireAll s p) := by simp +contextual (maxDischargeDepth := 200) [State.flRetireAll, *]

end Sys2Proof.Machine
end

