-- ==== Sys2Proof/Laws/KeptTherm.lean ====
section
/-! SUPPORT. What the operations of Therm.lean keep. -/

namespace Sys2Proof.Machine

set_option Elab.async false
set_option linter.unusedTactic false
set_option linter.unreachableTactic false

variable {q : List Instr} {o : List Out}

@[simp] theorem State.curveShow_kept {s : State} (h : Kept q o s) : Kept q o (State.curveShow s) := by simp +contextual (maxDischargeDepth := 200) [State.curveShow, *]

@[simp] theorem State.sensorTake_kept {s : State} (i : ℕ) (t0 : Option ℤ) (h : Kept q o s) : Kept q o (State.sensorTake s i t0) := by unfold State.sensorTake; (try dsimp only); split <;> simp +contextual (maxDischargeDepth := 200) [*]

@[simp] theorem State.hbShow_kept {s : State} (h : Kept q o s) : Kept q o (State.hbShow s) := by simp +contextual (maxDischargeDepth := 200) [State.hbShow, *]

@[simp] theorem State.throttle_kept {s : State} (h : Kept q o s) : Kept q o (State.throttle s) := by
  unfold State.throttle
  extract_lets f s1
  have h1 : Kept q o s1 := kept_thrAt_thrWant _ _ h fun hw => wf_foldl _ (fun t i ht => wf_tput _ _ ht) _ hw
  simp +contextual (maxDischargeDepth := 200) [h1]

@[simp] theorem State.railSense_kept {s : State} (n : ℕ) (code : ℕ) (h : Kept q o s) : Kept q o (State.railSense s n code) := by simp +contextual (maxDischargeDepth := 200) [State.railSense, *]

@[simp] theorem sensorReadEff_kept (die : List ℤ) (adc : List ℕ) {s : State} (h : Kept q o s) : Kept q o (sensorReadEff die adc s) := by simp +contextual (maxDischargeDepth := 200) [sensorReadEff, *]

@[simp] theorem dieTripEff_kept (i : ℕ) {s : State} (h : Kept q o s) : Kept q o (dieTripEff i s) := by simp +contextual (maxDischargeDepth := 200) [dieTripEff, *]

@[simp] theorem dieHoldReleaseEff_kept {s : State} (h : Kept q o s) : Kept q o (dieHoldReleaseEff s) := by simp +contextual (maxDischargeDepth := 200) [dieHoldReleaseEff, *]

@[simp] theorem State.fusNote_kept {s : State} (j : ℕ) (code : ℕ) (h : Kept q o s) : Kept q o (State.fusNote s j code) := by simp +contextual (maxDischargeDepth := 200) [State.fusNote, *]

@[simp] theorem htrHwtripEff_kept (j : ℕ) (code : ℕ) (us : ℕ) {s : State} (h : Kept q o s) : Kept q o (htrHwtripEff j code us s) := by simp +contextual (maxDischargeDepth := 200) [htrHwtripEff, *]

@[simp] theorem State.fusRelease_kept {s : State} (j : ℕ) (h : Kept q o s) : Kept q o (State.fusRelease s j) := by simp +contextual (maxDischargeDepth := 200) [State.fusRelease, *]

@[simp] theorem fuserCmpReleaseEff_kept (j : ℕ) (code : ℕ) {s : State} (h : Kept q o s) : Kept q o (fuserCmpReleaseEff j code s) := by simp +contextual (maxDischargeDepth := 200) [fuserCmpReleaseEff, *]

@[simp] theorem coreDroopEff_kept (mv : ℕ) {s : State} (h : Kept q o s) : Kept q o (coreDroopEff mv s) := by simp +contextual (maxDischargeDepth := 200) [coreDroopEff, *]

@[simp] theorem droopRecoverEff_kept {s : State} (h : Kept q o s) : Kept q o (droopRecoverEff s) := by simp +contextual (maxDischargeDepth := 200) [droopRecoverEff, *]

end Sys2Proof.Machine
end

