-- ==== Sys2Proof/Laws/KeptSeq.lean ====
section
/-! SUPPORT. What the operations of Seq.lean keep. -/

namespace Sys2Proof.Machine

set_option Elab.async false
set_option linter.unusedTactic false
set_option linter.unreachableTactic false

variable {q : List Instr} {o : List Out}

@[simp] theorem State.setSst_kept {s : State} (t0 : ℕ) (h : Kept q o s) : Kept q o (State.setSst s t0) := by simp +contextual (maxDischargeDepth := 200) [State.setSst, *]

@[simp] theorem State.ebbShow_kept {s : State} (h : Kept q o s) : Kept q o (State.ebbShow s) := by simp +contextual (maxDischargeDepth := 200) [State.ebbShow, *]

@[simp] theorem State.dropChange_kept {s : State} (h : Kept q o s) : Kept q o (State.dropChange s) := by simp +contextual (maxDischargeDepth := 200) [State.dropChange, *]

@[simp] theorem State.ebbSteps_kept {s : State} (c : ℕ) (h : Kept q o s) : Kept q o (State.ebbSteps s c) := by simp +contextual (maxDischargeDepth := 200) [State.ebbSteps, *]

@[simp] theorem State.ebb_kept {s : State} (c : ℕ) (h : Kept q o s) : Kept q o (State.ebb s c) := by simp +contextual (maxDischargeDepth := 200) [State.ebb, *]

@[simp] theorem inputFailureEff_kept (mv : ℕ) (us : ℕ) {s : State} (h : Kept q o s) : Kept q o (inputFailureEff mv us s) := by simp +contextual (maxDischargeDepth := 200) [inputFailureEff, *]

@[simp] theorem inputGoodEff_kept (mv : ℕ) {s : State} (h : Kept q o s) : Kept q o (inputGoodEff mv s) := by simp +contextual (maxDischargeDepth := 200) [inputGoodEff, *]

@[simp] theorem externalEbbEff_kept (ns : ℕ) {s : State} (h : Kept q o s) : Kept q o (externalEbbEff ns s) := by simp +contextual (maxDischargeDepth := 200) [externalEbbEff, *]

@[simp] theorem ebbNReleaseEff_kept {s : State} (h : Kept q o s) : Kept q o (ebbNReleaseEff s) := by simp +contextual (maxDischargeDepth := 200) [ebbNReleaseEff, *]

@[simp] theorem State.seqDown_kept {s : State} (h : Kept q o s) : Kept q o (State.seqDown s) := by simp +contextual (maxDischargeDepth := 200) [State.seqDown, *]

@[simp] theorem seqDownEff_kept (src : Port) {s : State} (h : Kept q o s) : Kept q o (seqDownEff src s) := by simp +contextual (maxDischargeDepth := 200) [seqDownEff, *]

@[simp] theorem State.railRec_kept {s : State} (n : ℕ) (what : ℕ) (h : Kept q o s) : Kept q o (State.railRec s n what) := by simp +contextual (maxDischargeDepth := 200) [State.railRec, *]

@[simp] theorem State.release__kept {s : State} (h : Kept q o s) : Kept q o (State.release_ s) := by simp +contextual (maxDischargeDepth := 200) [State.release_, *]

@[simp] theorem State.railsOn_kept {s : State} (m : ℕ) (h : Kept q o s) : Kept q o (State.railsOn s m) := by simp +contextual (maxDischargeDepth := 200) [State.railsOn, *]

@[simp] theorem State.railsOff_kept {s : State} (m : ℕ) (h : Kept q o s) : Kept q o (State.railsOff s m) := by simp +contextual (maxDischargeDepth := 200) [State.railsOff, *]

@[simp] theorem State.stageBegin_kept {s : State} (k : ℕ) (h : Kept q o s) : Kept q o (State.stageBegin s k) := by simp +contextual (maxDischargeDepth := 200) [State.stageBegin, *]

@[simp] theorem State.railDone_kept {s : State} (n : ℕ) (up : Bool) (h : Kept q o s) : Kept q o (State.railDone s n up) := by simp +contextual (maxDischargeDepth := 200) [State.railDone, *]

@[simp] theorem railGoodEff_kept (n : ℕ) (code : ℕ) {s : State} (h : Kept q o s) : Kept q o (railGoodEff n code s) := by simp +contextual (maxDischargeDepth := 200) [railGoodEff, *]

@[simp] theorem stageDwellEndEff_kept {s : State} (h : Kept q o s) : Kept q o (stageDwellEndEff s) := by unfold stageDwellEndEff; (try dsimp only); split <;> simp +contextual (maxDischargeDepth := 200) [*]

@[simp] theorem railUpTimeoutEff_kept (n : ℕ) {s : State} (h : Kept q o s) : Kept q o (railUpTimeoutEff n s) := by simp +contextual (maxDischargeDepth := 200) [railUpTimeoutEff, *]

@[simp] theorem railDownTimeoutEff_kept (n : ℕ) {s : State} (h : Kept q o s) : Kept q o (railDownTimeoutEff n s) := by simp +contextual (maxDischargeDepth := 200) [railDownTimeoutEff, *]

@[simp] theorem railRunFaultEff_kept (n : ℕ) (code : ℕ) (us : ℕ) {s : State} (h : Kept q o s) : Kept q o (railRunFaultEff n code us s) := by simp +contextual (maxDischargeDepth := 200) [railRunFaultEff, *]

@[simp] theorem State.powerUp_kept {s : State} (h : Kept q o s) : Kept q o (State.powerUp s) := by simp +contextual (maxDischargeDepth := 200) [State.powerUp, *]

@[simp] theorem State.seqGo_kept {s : State} (h : Kept q o s) : Kept q o (State.seqGo s) := by simp +contextual (maxDischargeDepth := 200) [State.seqGo, *]

@[simp] theorem seqGoEff_kept (src : Port) {s : State} (h : Kept q o s) : Kept q o (seqGoEff src s) := by simp +contextual (maxDischargeDepth := 200) [seqGoEff, *]

@[simp] theorem seqbellStageAdvanceEff_kept (high : ℕ) {s : State} (h : Kept q o s) : Kept q o (seqbellStageAdvanceEff high s) := by unfold seqbellStageAdvanceEff; (try dsimp only); split <;> simp +contextual (maxDischargeDepth := 200) [*]

@[simp] theorem seqbellGlitchEff_kept {s : State} (h : Kept q o s) : Kept q o (seqbellGlitchEff s) := by simp +contextual (maxDischargeDepth := 200) [seqbellGlitchEff, *]

@[simp] theorem tShutExpireEff_kept {s : State} (h : Kept q o s) : Kept q o (tShutExpireEff s) := by unfold tShutExpireEff; (try dsimp only); split <;> simp +contextual (maxDischargeDepth := 200) [*]

@[simp] theorem tOffMinExpireEff_kept {s : State} (h : Kept q o s) : Kept q o (tOffMinExpireEff s) := by
  unfold tOffMinExpireEff; (try dsimp only)
  repeat' first
    | with_reducible assumption
    | (simp +contextual (maxDischargeDepth := 200) [*]; done)
    | split
    | (with_reducible apply kept_foldl; intro _ _ _)
    | (with_reducible apply kept_ite)
    | with_reducible apply State.ebbShow_kept
    | with_reducible apply State.powerUp_kept
    | with_reducible apply State.release_kept
    | with_reducible apply kept_sequ

end Sys2Proof.Machine
end

