-- ==== Sys2Proof/Laws/KeptFaultRows.lean ====
section
/-! SUPPORT. What the operations of FaultRows.lean keep. -/

namespace Sys2Proof.Machine

set_option Elab.async false
set_option linter.unusedTactic false
set_option linter.unreachableTactic false

variable {q : List Instr} {o : List Out}

@[simp] theorem faultRaiseEff_kept (src : ℕ) (unit : ℕ) (inst : ℕ) (info : ℕ) (live : Bool) {s : State} (h : Kept q o s) : Kept q o (faultRaiseEff src unit inst info live s) := by simp +contextual (maxDischargeDepth := 200) [faultRaiseEff, *]

@[simp] theorem State.latchClear_kept {s : State} (i : ℕ) (h : Kept q o s) : Kept q o (State.latchClear s i) := by simp +contextual (maxDischargeDepth := 200) [State.latchClear, *]

@[simp] theorem State.latchWrite_kept {s : State} (mask : ℕ) (h : Kept q o s) : Kept q o (State.latchWrite s mask) := by simp +contextual (maxDischargeDepth := 200) [State.latchWrite, *]

@[simp] theorem faultLatchClearEff_kept (src : Port) (mask : ℕ) {s : State} (h : Kept q o s) : Kept q o (faultLatchClearEff src mask s) := by simp +contextual (maxDischargeDepth := 200) [faultLatchClearEff, *]

@[simp] theorem State.setPair_kept {s : State} (i : ℕ) (fault : Bool) (broken : Bool) (h : Kept q o s) : Kept q o (State.setPair s i fault broken) := by simp +contextual (maxDischargeDepth := 200) [State.setPair, *]

@[simp] theorem faultPairChangeEff_kept (i : ℕ) (a : Bool) (b : Bool) (us : ℕ) {s : State} (h : Kept q o s) : Kept q o (faultPairChangeEff i a b us s) := by simp +contextual (maxDischargeDepth := 200) [faultPairChangeEff, *]

@[simp] theorem State.intlkTrip_kept {s : State} (i : ℕ) (h : Kept q o s) : Kept q o (State.intlkTrip s i) := by simp +contextual (maxDischargeDepth := 200) [State.intlkTrip, *]

@[simp] theorem State.setIntlk_kept {s : State} (i : ℕ) (isOpen : Bool) (h : Kept q o s) : Kept q o (State.setIntlk s i isOpen) := by simp +contextual (maxDischargeDepth := 200) [State.setIntlk, *]

@[simp] theorem interlockChangeEff_kept (i : ℕ) (level : Bool) (ns : ℕ) {s : State} (h : Kept q o s) : Kept q o (interlockChangeEff i level ns s) := by simp +contextual (maxDischargeDepth := 200) [interlockChangeEff, *]

@[simp] theorem lanternToggleEff_kept {s : State} (h : Kept q o s) : Kept q o (lanternToggleEff s) := by simp +contextual (maxDischargeDepth := 200) [lanternToggleEff, *]

@[simp] theorem State.ferryReset_kept {s : State} (h : Kept q o s) : Kept q o (State.ferryReset s) := by
  unfold State.ferryReset; (try dsimp only)
  repeat' first
    | with_reducible assumption
    | (simp +contextual (maxDischargeDepth := 200) [*]; done)
    | split
    | (with_reducible apply kept_foldl; intro _ _ _)
    | (with_reducible apply kept_ite)
    | with_reducible apply State.pwrTake_kept
    | with_reducible apply State.raise_kept
    | with_reducible apply State.reset_kept
    | with_reducible apply State.toDrafted_kept
    | with_reducible apply State.wr_kept
    | with_reducible apply kept_boot

@[simp] theorem State.ferryLapse_kept {s : State} (h : Kept q o s) : Kept q o (State.ferryLapse s) := by simp +contextual (maxDischargeDepth := 200) [State.ferryLapse, *]

@[simp] theorem ferryWdEff_kept {s : State} (h : Kept q o s) : Kept q o (ferryWdEff s) := by simp +contextual (maxDischargeDepth := 200) [ferryWdEff, *]

@[simp] theorem State.lbWrite_kept {s : State} (w : ℕ) (v : ℕ) (h : Kept q o s) : Kept q o (State.lbWrite s w v) := by simp +contextual (maxDischargeDepth := 200) [State.lbWrite, *]

@[simp] theorem State.lbAdd_kept {s : State} (w : ℕ) (n : ℕ) (k : ℕ) (h : Kept q o s) : Kept q o (State.lbAdd s w n k) := by simp +contextual (maxDischargeDepth := 200) [State.lbAdd, *]

@[simp] theorem State.lbFlush_kept {s : State} (h : Kept q o s) : Kept q o (State.lbFlush s) := by simp +contextual (maxDischargeDepth := 200) [State.lbFlush, *]

@[simp] theorem ferrymanReArmEff_kept {s : State} (h : Kept q o s) : Kept q o (ferrymanReArmEff s) := by
  unfold ferrymanReArmEff; (try dsimp only)
  repeat' first
    | with_reducible assumption
    | (simp +contextual (maxDischargeDepth := 200) [*]; done)
    | split
    | (with_reducible apply kept_foldl; intro _ _ _)
    | (with_reducible apply kept_ite)
    | with_reducible apply State.complete_kept
    | with_reducible apply State.lbFlush_kept
    | with_reducible apply kept_boot

@[simp] theorem scrubReadEff_kept (st : ℕ) (upset : List ℕ) {s : State} (h : Kept q o s) : Kept q o (scrubReadEff st upset s) := by
  unfold scrubReadEff
  extract_lets due forced
  split
  · exact h
  rename_i w s1 hn
  have h1 : Kept q o s1 := kept_scrubAt_scrubDue_scrubPos _ _ _ h (fun hw => wf_tput _ _ hw) (fun hw => wf_tput _ _ hw) (fun hw => wf_tput _ _ hw)
  split
  rename_i k u e
  have hu : Kept q o u := kept_of_eq (State.eccRead_kept _ _ (State.upset_kept _ _ _ h1)) e
  split
  · exact hu
  · split
    · exact State.tideEcc_kept _ hu
    · exact State.tableWordEcc_kept _ hu
    · exact State.ferryReset_kept hu
    · exact hu

@[simp] theorem eccInjectArmEff_kept (src : Port) {s : State} (h : Kept q o s) : Kept q o (eccInjectArmEff src s) := by simp +contextual (maxDischargeDepth := 200) [eccInjectArmEff, *]

end Sys2Proof.Machine
end

