-- ==== Sys2Proof/Laws/KeptRings.lean ====
section
/-! SUPPORT. What the operations of Rings.lean keep. -/

namespace Sys2Proof.Machine

set_option Elab.async false
set_option linter.unusedTactic false
set_option linter.unreachableTactic false

variable {q : List Instr} {o : List Out}

@[simp] theorem State.haltRing_kept {s : State} (n : ℕ) (code : ℕ) (slot : ℕ) (h : Kept q o s) : Kept q o (State.haltRing s n code slot) := by simp +contextual (maxDischargeDepth := 200) [State.haltRing, *]

@[simp] theorem State.chainPosted_kept {s : State} (n : ℕ) (h : Kept q o s) : Kept q o (State.chainPosted s n) := by simp +contextual (maxDischargeDepth := 200) [State.chainPosted, *]

@[simp] theorem State.ringDoorbell_kept {s : State} (n : ℕ) (t' : ℕ) (h : Kept q o s) : Kept q o (State.ringDoorbell s n t') := by simp +contextual (maxDischargeDepth := 200) [State.ringDoorbell, *]

@[simp] theorem State.ringAfter_kept {s : State} (src : Port) (n : ℕ) (h : Kept q o s) : Kept q o (State.ringAfter s src n) := by
  unfold State.ringAfter; (try dsimp only)
  repeat' first
    | with_reducible assumption
    | (simp +contextual (maxDischargeDepth := 200) [*]; done)
    | split
    | (with_reducible apply kept_foldl; intro _ _ _)
    | (with_reducible apply kept_ite)
    | with_reducible apply kept_post

@[simp] theorem doorbellEff_kept (src : Port) (off : ℕ) (size : ℕ) (val : ℕ) {s : State} (h : Kept q o s) : Kept q o (doorbellEff src off size val s) := by
  unfold doorbellEff; (try dsimp only)
  repeat' first
    | with_reducible assumption
    | (simp +contextual (maxDischargeDepth := 200) [*]; done)
    | split
    | (with_reducible apply kept_foldl; intro _ _ _)
    | (with_reducible apply kept_ite)
    | with_reducible apply State.pfViol_kept
    | with_reducible apply State.ringAfter_kept
    | with_reducible apply State.ringDoorbell_kept
    | with_reducible apply State.wakeAsk_kept

@[simp] theorem sqEnableEff_kept (src : Port) (n : ℕ) {s : State} (h : Kept q o s) : Kept q o (sqEnableEff src n s) := by simp +contextual (maxDischargeDepth := 200) [sqEnableEff, *]

@[simp] theorem sqDisableEff_kept (src : Port) (n : ℕ) {s : State} (h : Kept q o s) : Kept q o (sqDisableEff src n s) := by simp +contextual (maxDischargeDepth := 200) [sqDisableEff, *]

@[simp] theorem sqRestartEff_kept (src : Port) (n : ℕ) {s : State} (h : Kept q o s) : Kept q o (sqRestartEff src n s) := by simp +contextual (maxDischargeDepth := 200) [sqRestartEff, *]

@[simp] theorem State.refuseAll_kept {s : State} (n : ℕ) (status : ℕ) (ds : List Desc) (h : Kept q o s) : Kept q o (State.refuseAll s n status ds) := by simp +contextual (maxDischargeDepth := 200) [State.refuseAll, *]

@[simp] theorem State.takeChain_kept {s : State} (n : ℕ) (ds : List Desc) (h : Kept q o s) : Kept q o (State.takeChain s n ds) := by unfold State.takeChain; (try dsimp only); split <;> simp +contextual (maxDischargeDepth := 200) [*]

@[simp] theorem State.takeDesc_kept {s : State} (n : ℕ) (d : Desc) (h : Kept q o s) : Kept q o (State.takeDesc s n d) := by
  unfold State.takeDesc; (try dsimp only)
  repeat' first
    | with_reducible assumption
    | (simp +contextual (maxDischargeDepth := 200) [*]; done)
    | split
    | (with_reducible apply kept_foldl; intro _ _ _)
    | (with_reducible apply kept_ite)
    | with_reducible apply State.haltRing_kept
    | with_reducible apply State.setSq_kept
    | with_reducible apply State.takeChain_kept

@[simp] theorem State.takeRead_kept (n : ℕ) (ds : List Desc) {s : State} (h : Kept q o s) : Kept q o (State.takeRead n ds s) := by
  induction ds generalizing s with
  | nil => exact h
  | cons d ds ih =>
    unfold State.takeRead
    split
    · exact ih (State.takeDesc_kept _ _ (kept_rrSq _ h fun hw => wf_tput _ _ hw))
    · exact h

@[simp] theorem State.fetchReads_kept {s : State} (n : ℕ) (k : ℕ) (h : Kept q o s) : Kept q o (State.fetchReads s n k) := by simp +contextual (maxDischargeDepth := 200) [State.fetchReads, *]

@[simp] theorem descriptorFetchEff_kept (n : ℕ) (ds : List Desc) {s : State} (h : Kept q o s) : Kept q o (descriptorFetchEff n ds s) := by simp +contextual (maxDischargeDepth := 200) [descriptorFetchEff, *]

@[simp] theorem fetchFailEff_kept (n : ℕ) (how : ReadEnd) {s : State} (h : Kept q o s) : Kept q o (fetchFailEff n how s) := by simp +contextual (maxDischargeDepth := 200) [fetchFailEff, *]

@[simp] theorem chainTimeoutEff_kept (n : ℕ) {s : State} (h : Kept q o s) : Kept q o (chainTimeoutEff n s) := by unfold chainTimeoutEff; (try dsimp only); split <;> simp +contextual (maxDischargeDepth := 200) [*]

@[simp] theorem nopEff_kept (n : ℕ) {s : State} (h : Kept q o s) : Kept q o (nopEff n s) := by simp +contextual (maxDischargeDepth := 200) [nopEff, *]

@[simp] theorem State.signalEq_kept {s : State} (n : ℕ) (h : Kept q o s) : Kept q o (State.signalEq s n) := by
  have hsh := h.share n
  unfold State.signalEq
  simp +contextual (maxDischargeDepth := 200) [h, hsh]

@[simp] theorem State.writeRecord_kept {s : State} (n : ℕ) (r : Rec) (h : Kept q o s) : Kept q o (State.writeRecord s n r) := by
  unfold State.writeRecord
  extract_lets t ph s1 s2 e s3
  have h1 : Kept q o s1 := State.emit_kept _ h
  have h2 : Kept q o s2 := by simp +contextual (maxDischargeDepth := 200) [s2, h1]
  have h3 : Kept q o s3 := State.setEq_kept _ _ h2 (h2.share n)
  simp +contextual (maxDischargeDepth := 200) [h3]

theorem dropFirst_length (n : Nat) (l : List (Nat × Rec)) : (dropFirst n l).length ≤ l.length := by
  induction l with
  | nil => exact Nat.le_refl _
  | cons x l ih =>
    unfold dropFirst
    split
    · exact Nat.le_succ _
    · exact Nat.succ_le_succ ih


@[simp] theorem State.deliver_kept {s : State} (n : ℕ) (h : Kept q o s) : Kept q o (State.deliver s n) := by
  have hsh := h.share n
  unfold State.deliver
  split
  · exact h
  extract_lets e
  split
  · exact State.writeRecord_kept _ _ (State.setEq_kept _ _ h hsh)
  · split
    · refine State.sigStep_kept _ (State.writeRecord_kept _ _ (kept_holdover _ h ?_))
      exact (dropFirst_length _ _).trans h.holdover
    · split
      · exact h
      · rename_i hs
        refine State.sigStep_kept _ (State.writeRecord_kept _ _ (State.setEq_kept _ _ h ?_))
        have : (s.eqs n).share.length ≤ 256 := hsh
        simp only [e] at hs
        rw [hs, List.length_cons] at this
        simp only
        omega

@[simp] theorem State.deliverUpTo_kept (n : ℕ) (a1 : ℕ) {a2 : State} (h : Kept q o a2) : Kept q o (State.deliverUpTo n a1 a2) := by
  induction a1 generalizing a2 with
  | zero => exact h
  | succ k ih => exact ih (State.deliver_kept _ h)

@[simp] theorem eqEnableEff_kept (src : Port) (n : ℕ) {s : State} (h : Kept q o s) : Kept q o (eqEnableEff src n s) := by
  unfold eqEnableEff
  split
  · exact h
  refine State.access_kept _ _ _ _ (fun s h => ?_) h
  split
  · exact h
  · extract_lets s1 s2
    have h1 : Kept q o s1 := by simp +contextual (maxDischargeDepth := 200) [s1, h]
    exact State.deliverUpTo_kept _ _ (State.setEq_kept _ _ h1 (h1.share n))

@[simp] theorem eqDisableEff_kept (src : Port) (n : ℕ) {s : State} (h : Kept q o s) : Kept q o (eqDisableEff src n s) := by simp +contextual (maxDischargeDepth := 200) [eqDisableEff, *]

@[simp] theorem eqHeadWriteEff_kept (src : Port) (n : ℕ) (val : ℕ) {s : State} (h : Kept q o s) : Kept q o (eqHeadWriteEff src n val s) := by simp +contextual (maxDischargeDepth := 200) [eqHeadWriteEff, *]

@[simp] theorem eventRecordProduceEff_kept (n : ℕ) (r : Rec) {s : State} (h : Kept q o s) : Kept q o (eventRecordProduceEff n r s) := by simp +contextual (maxDischargeDepth := 200) [eventRecordProduceEff, *]

@[simp] theorem eventRecordDeliverEff_kept (n : ℕ) {s : State} (h : Kept q o s) : Kept q o (eventRecordDeliverEff n s) := by simp +contextual (maxDischargeDepth := 200) [eventRecordDeliverEff, *]

@[simp] theorem imodTimerExpireEff_kept (n : ℕ) {s : State} (h : Kept q o s) : Kept q o (imodTimerExpireEff n s) := by unfold imodTimerExpireEff; (try dsimp only); split <;> simp +contextual (maxDischargeDepth := 200) [*]

@[simp] theorem State.sendPending_kept {s : State} (p : ℕ) (v : ℕ) (h : Kept q o s) : Kept q o (State.sendPending s p v) := by simp +contextual (maxDischargeDepth := 200) [State.sendPending, *]

@[simp] theorem msixUnmaskEff_kept (p : ℕ) (v : ℕ) {s : State} (h : Kept q o s) : Kept q o (msixUnmaskEff p v s) := by simp +contextual (maxDischargeDepth := 200) [msixUnmaskEff, *]

@[simp] theorem State.resumeChain_kept {s : State} (n : ℕ) (p : ℕ) (off : ℕ) (h : Kept q o s) : Kept q o (State.resumeChain s n p off) := by unfold State.resumeChain; (try dsimp only); split <;> simp +contextual (maxDischargeDepth := 200) [*]

@[simp] theorem busMasterEnableWriteEff_kept (p : ℕ) (bme : Bool) (msixEn : Bool) {s : State} (h : Kept q o s) : Kept q o (busMasterEnableWriteEff p bme msixEn s) := by simp +contextual (maxDischargeDepth := 200) [busMasterEnableWriteEff, *]

end Sys2Proof.Machine
end

