-- ==== Sys2Proof/Laws/KeptHostLink.lean ====
section
/-! SUPPORT. What the operations of HostLink.lean keep. -/

namespace Sys2Proof.Machine

set_option Elab.async false
set_option linter.unusedTactic false
set_option linter.unreachableTactic false

variable {q : List Instr} {o : List Out}

@[simp] theorem State.regsReset_kept {s : State} (a : ℕ) (b : ℕ) (h : Kept q o s) : Kept q o (State.regsReset s a b) := by simp +contextual (maxDischargeDepth := 200) [State.regsReset, *]

@[simp] theorem State.dropQueued_kept {s : State} (p : ℕ) (h : Kept q o s) : Kept q o (State.dropQueued s p) := by simp +contextual (maxDischargeDepth := 200) [State.dropQueued, *]

@[simp] theorem State.sqReset_kept {s : State} (n : ℕ) (h : Kept q o s) : Kept q o (State.sqReset s n) := by simp +contextual (maxDischargeDepth := 200) [State.sqReset, *]

theorem countP_ageIns (p : Nat × Rec → Bool) (t : Nat) (x : Nat × Rec) (l : List (Nat × Rec)) :
    (ageIns t x l).countP p = (x :: l).countP p := by
  induction l with
  | nil => rfl
  | cons y ys ih =>
    unfold ageIns
    extract_lets age
    split
    · rfl
    · rw [List.countP_cons, ih, List.countP_cons, List.countP_cons, List.countP_cons]
      omega

/-- Ordering records by age loses and adds none. -/
theorem countP_ageSort (p : Nat × Rec → Bool) (t : Nat) (l : List (Nat × Rec)) :
    (l.foldl (fun l x => ageIns t x l) []).countP p = l.countP p := by
  have gen : ∀ (l a : List (Nat × Rec)), (l.foldl (fun l x => ageIns t x l) a).countP p = l.countP p + a.countP p := by
    intro l
    induction l with
    | nil => intro a; simp
    | cons x l ih =>
      intro a
      rw [List.foldl_cons, ih, countP_ageIns, List.countP_cons, List.countP_cons]
      omega
  rw [gen l []]
  simp

/-- Of the records in the shares of different rings, those of one ring are its share. -/
theorem countP_shares {q : List Instr} {o : List Out} (s : State) (n : Nat) (h : Kept q o s) (ns : List Nat) (hn : ns.Nodup) :
    ((ns.flatMap fun m => (s.eqs m).share.map (m, ·)).countP fun x => x.1 == n) ≤ 256 := by
  have other : ∀ (m : Nat), m ≠ n → (((s.eqs m).share.map (m, ·)).countP fun x => x.1 == n) = 0 := by
    intro m hm
    rw [List.countP_eq_zero]
    intro x hx
    obtain ⟨r, -, rfl⟩ := List.mem_map.mp hx
    simpa using hm
  have zero : ∀ (ns : List Nat), n ∉ ns → ((ns.flatMap fun m => (s.eqs m).share.map (m, ·)).countP fun x => x.1 == n) = 0 := by
    intro ns
    induction ns with
    | nil => intro _; rfl
    | cons m ns ih =>
      intro hm
      rw [List.mem_cons, not_or] at hm
      rw [List.flatMap_cons, List.countP_append, other m (Ne.symm hm.1), ih hm.2]
  induction ns with
  | nil => exact Nat.zero_le _
  | cons m ns ih =>
    rw [List.nodup_cons] at hn
    rw [List.flatMap_cons, List.countP_append]
    by_cases hm : m = n
    · subst hm
      rw [zero ns hn.1]
      exact (List.countP_le_length.trans (by rw [List.length_map])).trans (h.share m)
    · rw [other m hm, Nat.zero_add]
      exact ih hn.2


@[simp] theorem State.eqReset_kept {s : State} (ns : List ℕ) (hn : ns.Nodup) (h : Kept q o s) : Kept q o (State.eqReset s ns) := by
  unfold State.eqReset
  extract_lets all room s1
  have h1 : Kept q o s1 := by
    refine kept_holdover _ h ?_
    rw [List.length_append, List.length_take]
    have := h.holdover
    omega
  have hall : ∀ n, (all.countP fun x => x.1 == n) ≤ 256 := by
    intro n
    simp only [all]
    rw [countP_ageSort]
    exact countP_shares s n h ns hn
  refine kept_foldl _ _ (fun u n hu => ?_) h1
  refine State.setEq_kept _ _ (State.regsReset_kept _ _ hu) ?_
  rw [List.length_map, ← List.countP_eq_length_filter]
  exact ((List.drop_sublist room all).countP_le).trans (hall n)

@[simp] theorem State.flrEdge_kept {s : State} (p : ℕ) (h : Kept q o s) : Kept q o (State.flrEdge s p) := by
  unfold State.flrEdge
  have hn : ((List.range 16).filter fun n => s.ownEq n == p).Nodup := List.nodup_range.filter _
  extract_lets hot s1 s2 s3 s4 s5 s6
  have h2 : Kept q o s2 := State.dropQueued_kept _ (State.setPf_kept _ _ (State.wr_kept _ _ _ _ h))
  have h3 : Kept q o s3 := kept_cfg_msixTab _ _ h2 (fun hw => trising_filter _ hw) fun hw => trising_filter _ hw
  have h4 : Kept q o s4 := kept_foldl _ _ (fun s n h => State.sqReset_kept _ h) h3
  have h5 : Kept q o s5 := State.eqReset_kept _ (List.nodup_range.filter _) h4
  split
  · exact h5
  · have h6 : Kept q o s6 :=
      kept_chartWant _ (State.regsReset_kept _ _ (State.regsReset_kept _ _ (State.regsReset_kept _ _ h5)))
    refine kept_foldl _ _ (fun s c h => ?_) h6
    split
    · exact State.pwrTake_kept (State.toDrafted_kept _ _ h)
    · exact h

@[simp] theorem State.flrAsk_kept {s : State} (p : ℕ) (hot : Bool) (h : Kept q o s) : Kept q o (State.flrAsk s p hot) := by simp +contextual (maxDischargeDepth := 200) [State.flrAsk, *]

@[simp] theorem State.flrTake_kept {s : State} (h : Kept q o s) : Kept q o (State.flrTake s) := by simp +contextual (maxDischargeDepth := 200) [State.flrTake, *]

@[simp] theorem flrRequestEff_kept {s : State} (h : Kept q o s) : Kept q o (flrRequestEff s) := by simp +contextual (maxDischargeDepth := 200) [flrRequestEff, *]

@[simp] theorem flrResetEdgeEff_kept {s : State} (h : Kept q o s) : Kept q o (flrResetEdgeEff s) := by simp +contextual (maxDischargeDepth := 200) [flrResetEdgeEff, *]

@[simp] theorem flrPf1Eff_kept {s : State} (h : Kept q o s) : Kept q o (flrPf1Eff s) := by simp +contextual (maxDischargeDepth := 200) [flrPf1Eff, *]

@[simp] theorem State.hotReset_kept {s : State} (h : Kept q o s) : Kept q o (State.hotReset s) := by simp +contextual (maxDischargeDepth := 200) [State.hotReset, *]

@[simp] theorem hotResetEff_kept {s : State} (h : Kept q o s) : Kept q o (hotResetEff s) := by simp +contextual (maxDischargeDepth := 200) [hotResetEff, *]

@[simp] theorem State.linkChange_kept {s : State} (rate : ℕ) (width : ℕ) (mps : ℕ) (h : Kept q o s) : Kept q o (State.linkChange s rate width mps) := by simp +contextual (maxDischargeDepth := 200) [State.linkChange, *]

@[simp] theorem linkChangeEff_kept (rate : ℕ) (width : ℕ) (mps : ℕ) {s : State} (h : Kept q o s) : Kept q o (linkChangeEff rate width mps s) := by simp +contextual (maxDischargeDepth := 200) [linkChangeEff, *]

@[simp] theorem State.chartStart_kept {s : State} (h : Kept q o s) : Kept q o (State.chartStart s) := by simp +contextual (maxDischargeDepth := 200) [State.chartStart, *]

@[simp] theorem chartEnableEff_kept (src : Port) {s : State} (h : Kept q o s) : Kept q o (chartEnableEff src s) := by simp +contextual (maxDischargeDepth := 200) [chartEnableEff, *]

@[simp] theorem State.releaseSlots_kept {s : State} (h : Kept q o s) : Kept q o (State.releaseSlots s) := by simp +contextual (maxDischargeDepth := 200) [State.releaseSlots, *]

@[simp] theorem chartWriteEff_kept {s : State} (h : Kept q o s) : Kept q o (chartWriteEff s) := by
  unfold chartWriteEff; (try dsimp only)
  repeat' first
    | with_reducible assumption
    | (simp +contextual (maxDischargeDepth := 200) [*]; done)
    | split
    | (with_reducible apply kept_foldl; intro _ _ _)
    | (with_reducible apply kept_ite)
    | with_reducible apply State.emit_kept
    | with_reducible apply State.releaseSlots_kept
    | with_reducible apply State.wr_kept
    | with_reducible apply kept_chartWant
    | with_reducible apply kept_chartSeq_chartWant
    | with_reducible apply kept_chartMs
    | with_reducible apply kept_chartSeq

end Sys2Proof.Machine
end

