-- ==== Sys2Proof/Laws/KeptPower.lean ====
section
/-! SUPPORT. What the operations of Power.lean keep. -/

namespace Sys2Proof.Machine

set_option Elab.async false
set_option linter.unusedTactic false
set_option linter.unreachableTactic false

variable {q : List Instr} {o : List Out}

@[simp] theorem pwrReqEff_kept (src : Port) (mode : ℕ) {s : State} (h : Kept q o s) : Kept q o (pwrReqEff src mode s) := by simp +contextual (maxDischargeDepth := 200) [pwrReqEff, *]

@[simp] theorem State.changeEnd_kept {s : State} (h : Kept q o s) : Kept q o (State.changeEnd s) := by simp +contextual (maxDischargeDepth := 200) [State.changeEnd, *]

@[simp] theorem State.pwrKept_kept {s : State} (h : Kept q o s) : Kept q o (State.pwrKept s) := by unfold State.pwrKept; (try dsimp only); split <;> simp +contextual (maxDischargeDepth := 200) [*]

@[simp] theorem State.declare__kept {s : State} (m : ℕ) (h : Kept q o s) : Kept q o (State.declare_ s m) := by simp +contextual (maxDischargeDepth := 200) [State.declare_, *]

@[simp] theorem slackDeclaredEff_kept {s : State} (h : Kept q o s) : Kept q o (slackDeclaredEff s) := by
  unfold slackDeclaredEff; (try dsimp only)
  repeat' first
    | with_reducible assumption
    | (simp +contextual (maxDischargeDepth := 200) [*]; done)
    | split
    | (with_reducible apply kept_foldl; intro _ _ _)
    | (with_reducible apply kept_ite)
    | with_reducible apply State.declare__kept
    | with_reducible apply State.pwrKept_kept
    | with_reducible apply State.pwrTake_kept
    | with_reducible apply State.spllPark_kept

@[simp] theorem State.moorOff_kept {s : State} (h : Kept q o s) : Kept q o (State.moorOff s) := by simp +contextual (maxDischargeDepth := 200) [State.moorOff, *]

@[simp] theorem State.moorEnd_kept {s : State} (h : Kept q o s) : Kept q o (State.moorEnd s) := by unfold State.moorEnd; (try dsimp only); split <;> simp +contextual (maxDischargeDepth := 200) [*]

@[simp] theorem State.moorStage_kept {s : State} (h : Kept q o s) : Kept q o (State.moorStage s) := by unfold State.moorStage; (try dsimp only); split <;> simp +contextual (maxDischargeDepth := 200) [*]

@[simp] theorem mooredEntryEff_kept {s : State} (h : Kept q o s) : Kept q o (mooredEntryEff s) := by simp +contextual (maxDischargeDepth := 200) [mooredEntryEff, *]

@[simp] theorem mooredStopTimeoutEff_kept {s : State} (h : Kept q o s) : Kept q o (mooredStopTimeoutEff s) := by simp +contextual (maxDischargeDepth := 200) [mooredStopTimeoutEff, *]

@[simp] theorem wakeEff_kept (k : ℕ) (us : ℕ) {s : State} (h : Kept q o s) : Kept q o (wakeEff k us s) := by simp +contextual (maxDischargeDepth := 200) [wakeEff, *]

@[simp] theorem State.ungate_kept {s : State} (h : Kept q o s) : Kept q o (State.ungate s) := by simp +contextual (maxDischargeDepth := 200) [State.ungate, *]

@[simp] theorem State.exitEnd_kept {s : State} (h : Kept q o s) : Kept q o (State.exitEnd s) := by simp +contextual (maxDischargeDepth := 200) [State.exitEnd, *]

@[simp] theorem mooredExitEff_kept {s : State} (h : Kept q o s) : Kept q o (mooredExitEff s) := by
  unfold mooredExitEff; (try dsimp only)
  repeat' first
    | with_reducible assumption
    | (simp +contextual (maxDischargeDepth := 200) [*]; done)
    | split
    | (with_reducible apply kept_foldl; intro _ _ _)
    | (with_reducible apply kept_ite)
    | with_reducible apply State.exitEnd_kept
    | with_reducible apply State.railsOn_kept
    | with_reducible apply kept_pwr

end Sys2Proof.Machine
end

