-- ==== Sys2Proof/Laws/KeptBarMap.lean ====
section
/-! SUPPORT. What the operations of BarMap.lean keep. -/

namespace Sys2Proof.Machine

set_option Elab.async false
set_option linter.unusedTactic false
set_option linter.unreachableTactic false

variable {q : List Instr} {o : List Out}

@[simp] theorem State.flushRead_kept {s : State} (off : ℕ) (h : Kept q o s) : Kept q o (State.flushRead s off) := by
  unfold State.flushRead; (try dsimp only)
  repeat' first
    | with_reducible assumption
    | (simp +contextual (maxDischargeDepth := 200) [*]; done)
    | split
    | (with_reducible apply kept_foldl; intro _ _ _)
    | (with_reducible apply kept_ite)
    | with_reducible apply kept_post

@[simp] theorem State.readWord_kept {s : State} (off : ℕ) (h : Kept q o s) : Kept q o (State.readWord s off).2 := by
  unfold State.readWord; (try dsimp only)
  repeat' first
    | with_reducible assumption
    | (simp +contextual (maxDischargeDepth := 200) [*]; done)
    | split
    | (with_reducible apply kept_foldl; intro _ _ _)
    | (with_reducible apply kept_ite)
    | with_reducible apply State.flushRead_kept

@[simp] theorem State.barRead_kept {s : State} (src : Port) (off : ℕ) (size : ℕ) (h : Kept q o s) : Kept q o (State.barRead s src off size).2 := by
  unfold State.barRead; (try dsimp only)
  repeat' first
    | with_reducible assumption
    | (simp +contextual (maxDischargeDepth := 200) [*]; done)
    | split
    | (with_reducible apply kept_foldl; intro _ _ _)
    | (with_reducible apply kept_ite)
    | with_reducible apply State.access_kept
    | with_reducible apply State.pfViol_kept
    | with_reducible apply State.wr_kept

end Sys2Proof.Machine
end

