-- ==== Sys2Proof/Laws/KeptBoot.lean ====
section
/-! SUPPORT. What the operations of Boot.lean keep. -/

namespace Sys2Proof.Machine

set_option Elab.async false
set_option linter.unusedTactic false
set_option linter.unreachableTactic false

variable {q : List Instr} {o : List Out}

@[simp] theorem State.resetAll_kept {s : State} (counter : ℕ) (cause : ℕ) (h : Kept q o s) : Kept q o (State.resetAll s counter cause) := by
  unfold State.resetAll
  apply State.wr_kept
  obtain ⟨hp, ho, hw, -, -⟩ := h
  refine ⟨hp, ho, ⟨⟨rfl, rfl, rfl, rfl, hw.1.2.2.2.2.1, rfl, rfl, rfl⟩, ⟨rfl, rfl, rfl, rfl, rfl, rfl, rfl, rfl⟩,
    ⟨rfl, rfl, rfl, rfl, rfl, rfl, rfl, rfl⟩, ⟨rfl, rfl, rfl, rfl, rfl, rfl, rfl, rfl⟩, ⟨rfl, rfl, rfl, rfl, rfl, rfl, rfl, rfl⟩,
    ⟨rfl, rfl, rfl, rfl, rfl, rfl, rfl, rfl⟩, ⟨rfl, rfl, rfl, rfl⟩⟩, ⟨?_, ?_, ?_, ?_, rfl, rfl, rfl⟩, Nat.zero_le _, ?_, Nat.zero_le _⟩
  · show trising State.reset.regs = true
    decide
  · rfl
  · rfl
  · rfl
  · intro e he
    cases he

@[simp] theorem powerOnResetEff_kept {s : State} (h : Kept q o s) : Kept q o (powerOnResetEff s) := by simp +contextual (maxDischargeDepth := 200) [powerOnResetEff, *]

@[simp] theorem fundamentalResetEff_kept {s : State} (h : Kept q o s) : Kept q o (fundamentalResetEff s) := by simp +contextual (maxDischargeDepth := 200) [fundamentalResetEff, *]

@[simp] theorem rstNRiseEff_kept (clksel : Bool) (banks : ℕ) {s : State} (h : Kept q o s) : Kept q o (rstNRiseEff clksel banks s) := by simp +contextual (maxDischargeDepth := 200) [rstNRiseEff, *]

@[simp] theorem State.protWrite_kept {s : State} (off : ℕ) (v : ℕ) (h : Kept q o s) : Kept q o (State.protWrite s off v) := by simp +contextual (maxDischargeDepth := 200) [State.protWrite, *]

@[simp] theorem State.gangwayClose_kept {s : State} (h : Kept q o s) : Kept q o (State.gangwayClose s) := by simp +contextual (maxDischargeDepth := 200) [State.gangwayClose, *]

@[simp] theorem gangwayCloseEff_kept (src : Port) {s : State} (h : Kept q o s) : Kept q o (gangwayCloseEff src s) := by
  unfold gangwayCloseEff; (try dsimp only)
  repeat' first
    | with_reducible assumption
    | (simp +contextual (maxDischargeDepth := 200) [*]; done)
    | split
    | (with_reducible apply kept_foldl; intro _ _ _)
    | (with_reducible apply kept_ite)
    | with_reducible apply State.gangwayClose_kept
    | with_reducible apply State.lockViol_kept

@[simp] theorem State.bootImage_kept {s : State} (slot : ℕ) (bs : List Byte) (h : Kept q o s) : Kept q o (State.bootImage s slot bs) := by simp +contextual (maxDischargeDepth := 200) [State.bootImage, *]

@[simp] theorem State.bootFails_kept {s : State} (h : Kept q o s) : Kept q o (State.bootFails s) := by simp +contextual (maxDischargeDepth := 200) [State.bootFails, *]

@[simp] theorem bootImageVerifiedEff_kept (slot : ℕ) (answers : Bool) {s : State} (h : Kept q o s) : Kept q o (bootImageVerifiedEff slot answers s) := by simp +contextual (maxDischargeDepth := 200) [bootImageVerifiedEff, *]

@[simp] theorem refLossEff_kept {s : State} (h : Kept q o s) : Kept q o (refLossEff s) := by simp +contextual (maxDischargeDepth := 200) [refLossEff, *]

@[simp] theorem pllRelockEff_kept (harbour : Bool) {s : State} (h : Kept q o s) : Kept q o (pllRelockEff harbour s) := by simp +contextual (maxDischargeDepth := 200) [pllRelockEff, *]

end Sys2Proof.Machine
end

