-- ==== Sys2Proof/Laws/KeptService.lean ====
section
/-! SUPPORT. What the operations of Service.lean keep. -/

namespace Sys2Proof.Machine

set_option Elab.async false
set_option linter.unusedTactic false
set_option linter.unreachableTactic false

variable {q : List Instr} {o : List Out}

@[simp] theorem State.service_kept {s : State} (n : ℕ) (opc : ℕ) (k : Job → State → State) (h_k : ∀ y0 y1, Kept q o y1 → Kept q o (k y0 y1)) (h : Kept q o s) : Kept q o (State.service s n opc k) := by simp +contextual (maxDischargeDepth := 200) [State.service, *]

@[simp] theorem State.setIdle_kept {s : State} (bs : List Byte) (h : Kept q o s) : Kept q o (State.setIdle s bs) := by simp +contextual (maxDischargeDepth := 200) [State.setIdle, *]

@[simp] theorem State.swapBanks_kept {s : State} (h : Kept q o s) : Kept q o (State.swapBanks s) := by simp +contextual (maxDischargeDepth := 200) [State.swapBanks, *]

@[simp] theorem imageStageEff_kept (n : ℕ) (data : ReadRes) {s0 : State} (h : Kept q o s0) : Kept q o (imageStageEff n data s0) := by
  unfold imageStageEff; (try dsimp only)
  repeat' first
    | with_reducible assumption
    | (simp +contextual (maxDischargeDepth := 200) [*]; done)
    | split
    | (with_reducible apply kept_foldl; intro _ _ _)
    | (with_reducible apply kept_ite)
    | with_reducible apply State.complete_kept
    | with_reducible apply State.loadDone_kept
    | with_reducible apply State.loadRead_kept
    | with_reducible apply State.service_kept
    | with_reducible apply State.setIdle_kept
    | with_reducible apply State.wr_kept

@[simp] theorem imageSwitchEff_kept (n : ℕ) {s : State} (h : Kept q o s) : Kept q o (imageSwitchEff n s) := by simp +contextual (maxDischargeDepth := 200) [imageSwitchEff, *]

@[simp] theorem imageHandoverEff_kept {s : State} (h : Kept q o s) : Kept q o (imageHandoverEff s) := by unfold imageHandoverEff; (try dsimp only); split <;> simp +contextual (maxDischargeDepth := 200) [*]

@[simp] theorem imageSwitchTimeoutEff_kept {s : State} (h : Kept q o s) : Kept q o (imageSwitchTimeoutEff s) := by unfold imageSwitchTimeoutEff; (try dsimp only); split <;> simp +contextual (maxDischargeDepth := 200) [*]

@[simp] theorem handoverArmTimeoutEff_kept {s : State} (h : Kept q o s) : Kept q o (handoverArmTimeoutEff s) := by
  unfold handoverArmTimeoutEff; (try dsimp only)
  repeat' first
    | with_reducible assumption
    | (simp +contextual (maxDischargeDepth := 200) [*]; done)
    | split
    | (with_reducible apply kept_foldl; intro _ _ _)
    | (with_reducible apply kept_ite)
    | with_reducible apply State.complete_kept
    | with_reducible apply State.ferryLapse_kept
    | with_reducible apply State.swapBanks_kept
    | with_reducible apply kept_boot

@[simp] theorem flashWriteEff_kept (n : ℕ) (inTime : Bool) {s : State} (h : Kept q o s) : Kept q o (flashWriteEff n inTime s) := by
  refine State.service_kept _ _ _ (fun j s h => ?_) h
  extract_lets slot put
  have hp : ∀ bs s, Kept q o s → Kept q o (put bs s) := fun bs s h => kept_ite (kept_flash0 _ h) (kept_flash1 _ h)
  refine kept_ite (State.complete_kept _ _ _ h) (kept_ite (State.complete_kept _ _ _ h) (kept_ite ?_ ?_))
  · exact State.complete_kept _ _ _ (hp _ _ h)
  · exact State.complete_kept _ _ _ (hp _ _ (kept_free _ h))

@[simp] theorem State.foreign_kept {s : State} (j : Job) (h : Kept q o s) : Kept q o (State.foreign s j) := by simp +contextual (maxDischargeDepth := 200) [State.foreign, *]

@[simp] theorem State.layupReport_kept {s : State} (u : ℕ) (a : ℕ) (kind : ℕ) (force : Bool) (h : Kept q o s) : Kept q o (State.layupReport s u a kind force) := by simp +contextual (maxDischargeDepth := 200) [State.layupReport, *]

@[simp] theorem State.layupUnit_kept {s : State} (u : ℕ) (a : ℕ) (h : Kept q o s) : Kept q o (State.layupUnit s u a) := by
  unfold State.layupUnit
  extract_lets _ _ s1 b s2 s3 c s4
  have h3 : Kept q o s3 := State.setCause_kept _ _ _ _ (State.setSpll_kept _ _ (State.setBl_kept _ _ (State.stnStop_kept _ _ (State.setLaid_kept _ _ h))))
  have h4 : Kept q o s4 := State.setLaid_kept _ _ h
  with_reducible refine kept_ite ?_ (kept_ite ?_ (kept_ite ?_ (kept_ite ?_ (kept_ite ?_ (kept_ite ?_ (kept_ite ?_ (kept_ite ?_ ?_)))))))
  · exact State.flClose_kept _ _ _ (State.flRetire_kept _ _ (kept_nodeLaid _ h fun hw => wf_tput _ _ hw))
  · exact kept_ite h3 (State.lenUpdate_kept _ (kept_ite h3 (State.blOff_kept _ h3)))
  · exact State.drvHalt_kept _ _ (State.motHalt_kept _ _ (State.setLaid_kept _ _ h))
  · exact State.stpHalt_kept _ _ (State.setLaid_kept _ _ h)
  · exact State.setLaid_kept _ _ h
  · split
    · exact State.migrateTo_kept _ _ _ _ h4
    · exact State.capRefresh_kept _ h4
  · exact State.hvLeave_kept _ (State.setLaid_kept _ _ h)
  · exact State.htrOff_kept _ (State.setLaid_kept _ _ h)
  · exact State.setLaid_kept _ _ (State.flRetireAll_kept _ (State.flFinal_kept _ h))

@[simp] theorem State.layupApply_kept {s : State} (l : Layup) (h : Kept q o s) : Kept q o (State.layupApply s l) := by simp +contextual (maxDischargeDepth := 200) [State.layupApply, *]

@[simp] theorem unitLayupEff_kept (n : ℕ) {s : State} (h : Kept q o s) : Kept q o (unitLayupEff n s) := by simp +contextual (maxDischargeDepth := 200) [unitLayupEff, *]

@[simp] theorem layupApplyEff_kept (k : ℕ) {s : State} (h : Kept q o s) : Kept q o (layupApplyEff k s) := by unfold layupApplyEff; (try dsimp only); split <;> simp +contextual (maxDischargeDepth := 200) [*]

@[simp] theorem laidUpEff_kept (k : ℕ) {s : State} (h : Kept q o s) : Kept q o (laidUpEff k s) := by unfold laidUpEff; (try dsimp only); split <;> simp +contextual (maxDischargeDepth := 200) [*]

@[simp] theorem layupTimeoutEff_kept (k : ℕ) {s : State} (h : Kept q o s) : Kept q o (layupTimeoutEff k s) := by unfold layupTimeoutEff; (try dsimp only); split <;> simp +contextual (maxDischargeDepth := 200) [*]

@[simp] theorem State.readmitTrips_kept {s : State} (u : ℕ) (h : Kept q o s) : Kept q o (State.readmitTrips s u) := by simp +contextual (maxDischargeDepth := 200) [State.readmitTrips, *]

@[simp] theorem State.readmit_kept {s : State} (u : ℕ) (a : ℕ) (h : Kept q o s) : Kept q o (State.readmit s u a) := by simp +contextual (maxDischargeDepth := 200) [State.readmit, *]

@[simp] theorem unitReadmitEff_kept (n : ℕ) {s : State} (h : Kept q o s) : Kept q o (unitReadmitEff n s) := by
  unfold unitReadmitEff; (try dsimp only)
  repeat' first
    | with_reducible assumption
    | (intro _ _ _; with_reducible assumption)
    | (with_reducible apply kept_foldl; intro _ _ _)
    | with_reducible apply kept_ite
    | with_reducible apply State.complete_kept
    | with_reducible apply State.foreign_kept
    | with_reducible apply State.layupReport_kept
    | with_reducible apply State.readmit_kept
    | with_reducible apply State.service_kept
    | split
    | intro _ _ _
    | (intro hw; simp [hw]; done)

@[simp] theorem logbookWriteEff_kept (n : ℕ) (data : ReadRes) {s0 : State} (h : Kept q o s0) : Kept q o (logbookWriteEff n data s0) := by
  unfold logbookWriteEff; (try dsimp only)
  repeat' first
    | with_reducible assumption
    | (simp +contextual (maxDischargeDepth := 200) [*]; done)
    | split
    | (with_reducible apply kept_foldl; intro _ _ _)
    | (with_reducible apply kept_ite)
    | with_reducible apply State.complete_kept
    | with_reducible apply State.lbWrite_kept
    | with_reducible apply State.loadDone_kept
    | with_reducible apply State.loadRead_kept
    | with_reducible apply State.service_kept

@[simp] theorem crossingCounterWriteEff_kept {s : State} (h : Kept q o s) : Kept q o (crossingCounterWriteEff s) := by simp +contextual (maxDischargeDepth := 200) [crossingCounterWriteEff, *]

@[simp] theorem journalEntryWriteEff_kept (kind : ℕ) (data : ℕ) {s : State} (h : Kept q o s) : Kept q o (journalEntryWriteEff kind data s) := by simp +contextual (maxDischargeDepth := 200) [journalEntryWriteEff, *]

@[simp] theorem State.lbLoad_kept {s : State} (w : ℕ) (h : Kept q o s) : Kept q o (State.lbLoad s w) := by simp +contextual (maxDischargeDepth := 200) [State.lbLoad, *]

@[simp] theorem lbAddrWriteEff_kept (src : Port) (w : ℕ) {s : State} (h : Kept q o s) : Kept q o (lbAddrWriteEff src w s) := by simp +contextual (maxDischargeDepth := 200) [lbAddrWriteEff, *]

end Sys2Proof.Machine
end

