-- ==== Sys2Proof/Laws/KeptBar.lean ====
section
/-! SUPPORT. What the operations of Bar.lean keep. -/

namespace Sys2Proof.Machine

set_option Elab.async false
set_option linter.unusedTactic false
set_option linter.unreachableTactic false

variable {q : List Instr} {o : List Out}

@[simp] theorem State.write64_kept {s : State} (h0 : Hit) (v : ℕ) (h : Kept q o s) : Kept q o (State.write64 s h0 v) := by simp +contextual (maxDischargeDepth := 200) [State.write64, *]

@[simp] theorem State.writeBase_kept {s : State} (h0 : Hit) (v : ℕ) (h : Kept q o s) : Kept q o (State.writeBase s h0 v) := by
  unfold State.writeBase; (try dsimp only)
  repeat' first
    | with_reducible assumption
    | (simp +contextual (maxDischargeDepth := 200) [*]; done)
    | split
    | (with_reducible apply kept_foldl; intro _ _ _)
    | (with_reducible apply kept_ite)
    | with_reducible apply State.swWr_kept
    | with_reducible apply kept_lowLatch

@[simp] theorem State.writeField_kept {s : State} (h0 : Hit) (v : ℕ) (h : Kept q o s) : Kept q o (State.writeField s h0 v) := by unfold State.writeField; (try dsimp only); split <;> simp +contextual (maxDischargeDepth := 200) [*]

@[simp] theorem State.writeOwn_kept {s : State} (src : Port) (h0 : Hit) (v : ℕ) (h : Kept q o s) : Kept q o (State.writeOwn s src h0 v) := by
  unfold State.writeOwn; (try dsimp only)
  repeat' first
    | with_reducible assumption
    | (intro _ _ _; with_reducible assumption)
    | (with_reducible apply kept_foldl; intro _ _ _)
    | with_reducible apply kept_ite
    | with_reducible apply State.chartStart_kept
    | with_reducible apply State.wr_kept
    | with_reducible apply drvStartEff_kept
    | with_reducible apply drvStopEff_kept
    | with_reducible apply eccInjectArmEff_kept
    | with_reducible apply eqDisableEff_kept
    | with_reducible apply eqEnableEff_kept
    | with_reducible apply eqHeadWriteEff_kept
    | with_reducible apply findAngleEff_kept
    | with_reducible apply htrRearmEff_kept
    | with_reducible apply hvRearmEff_kept
    | with_reducible apply resyncEff_kept
    | with_reducible apply seqDownEff_kept
    | with_reducible apply seqGoEff_kept
    | with_reducible apply sqDisableEff_kept
    | with_reducible apply sqEnableEff_kept
    | with_reducible apply sqRestartEff_kept
    | split
    | intro _ _ _
    | (intro hw; simp [hw]; done)

@[simp] theorem State.laneHook_kept {s : State} (old : State) (l : ℕ) (h : Kept q o s) : Kept q o (State.laneHook s old l) := by simp +contextual (maxDischargeDepth := 200) [State.laneHook, *]

@[simp] theorem State.writeHook_kept {s : State} (old : State) (off : ℕ) (h : Kept q o s) : Kept q o (State.writeHook s old off) := by simp +contextual (maxDischargeDepth := 200) [State.writeHook, *]

@[simp] theorem State.postWrite_kept {s : State} (src : Port) (base : ℕ) (off : ℕ) (v : ℕ) (h : Kept q o s) : Kept q o (State.postWrite s src base off v) := by simp +contextual (maxDischargeDepth := 200) [State.postWrite, *]

@[simp] theorem State.applyPost_kept {s : State} (h0 : Hit) (v : ℕ) (h : Kept q o s) : Kept q o (State.applyPost s h0 v) := by unfold State.applyPost; (try dsimp only); split <;> simp +contextual (maxDischargeDepth := 200) [*]

@[simp] theorem State.pairsOff_kept {s : State} (old : State) (h : Kept q o s) : Kept q o (State.pairsOff s old) := by simp +contextual (maxDischargeDepth := 200) [State.pairsOff, *]

@[simp] theorem State.applyPosted_kept {s : State} (w : Posted) (h : Kept q o s) : Kept q o (State.applyPosted s w) := by simp +contextual (maxDischargeDepth := 200) [State.applyPosted, *]

@[simp] theorem postWriteApplyEff_kept (block : ℕ) {s : State} (h : Kept q o s) : Kept q o (postWriteApplyEff block s) := by unfold postWriteApplyEff; (try dsimp only); split <;> simp +contextual (maxDischargeDepth := 200) [*]

@[simp] theorem State.writeWord_kept {s : State} (src : Port) (off : ℕ) (v : ℕ) (h : Kept q o s) : Kept q o (State.writeWord s src off v) := by
  unfold State.writeWord; (try dsimp only)
  repeat' first
    | with_reducible assumption
    | (simp +contextual (maxDischargeDepth := 200) [*]; done)
    | split
    | (with_reducible apply kept_foldl; intro _ _ _)
    | (with_reducible apply kept_ite)
    | with_reducible apply State.lockViol_kept
    | with_reducible apply State.postWrite_kept
    | with_reducible apply State.protWrite_kept
    | with_reducible apply State.writeField_kept
    | with_reducible apply State.writeHook_kept
    | with_reducible apply State.writeOwn_kept
    | with_reducible apply gangwayCloseEff_kept

@[simp] theorem State.bar0Write_kept {s : State} (src : Port) (off : ℕ) (size : ℕ) (v : ℕ) (h : Kept q o s) : Kept q o (State.bar0Write s src off size v) := by simp +contextual (maxDischargeDepth := 200) [State.bar0Write, *]

@[simp] theorem State.bar4Write_kept {s : State} (p : ℕ) (off : ℕ) (v : ℕ) (h : Kept q o s) : Kept q o (State.bar4Write s p off v) := by simp +contextual (maxDischargeDepth := 200) [State.bar4Write, *]

@[simp] theorem State.bar4_kept {s : State} (p : ℕ) (write : Bool) (off : ℕ) (size : ℕ) (v : ℕ) (h : Kept q o s) : Kept q o (State.bar4 s p write off size v) := by simp +contextual (maxDischargeDepth := 200) [State.bar4, *]

@[simp] theorem State.cfgWrite_kept {s : State} (p : ℕ) (off : ℕ) (v : ℕ) (h : Kept q o s) : Kept q o (State.cfgWrite s p off v) := by unfold State.cfgWrite; (try dsimp only); split <;> simp +contextual (maxDischargeDepth := 200) [*]

@[simp] theorem State.cfgAccess_kept {s : State} (p : ℕ) (write : Bool) (off : ℕ) (size : ℕ) (v : ℕ) (h : Kept q o s) : Kept q o (State.cfgAccess s p write off size v) := by simp +contextual (maxDischargeDepth := 200) [State.cfgAccess, *]

@[simp] theorem State.bar2Read_kept {s : State} (p : ℕ) (off : ℕ) (h : Kept q o s) : Kept q o (State.bar2Read s p off) := by simp +contextual (maxDischargeDepth := 200) [State.bar2Read, *]

@[simp] theorem registerWriteEff_kept (src : Port) (bar : ℕ) (write : Bool) (off : ℕ) (size : ℕ) (val : ℕ) {s : State} (h : Kept q o s) : Kept q o (registerWriteEff src bar write off size val s) := by
  unfold registerWriteEff; (try dsimp only)
  repeat' first
    | with_reducible assumption
    | (simp +contextual (maxDischargeDepth := 200) [*]; done)
    | split
    | (with_reducible apply kept_foldl; intro _ _ _)
    | (with_reducible apply kept_ite)
    | with_reducible apply State.access_kept
    | with_reducible apply State.bar0Write_kept
    | with_reducible apply State.bar2Read_kept
    | with_reducible apply State.bar4_kept
    | with_reducible apply State.cfgAccess_kept
    | with_reducible apply State.emit_kept
    | with_reducible apply doorbellEff_kept

end Sys2Proof.Machine
end

