-- ==== Sys2Proof/Laws/KeptMotionGrid.lean ====
section
/-! SUPPORT. What the operations of MotionGrid.lean keep. -/

namespace Sys2Proof.Machine

set_option Elab.async false
set_option linter.unusedTactic false
set_option linter.unreachableTactic false

variable {q : List Instr} {o : List Out}

@[simp] theorem State.motRefuse_kept {s : State} (src : MotSrc) (status : ℕ) (h : Kept q o s) : Kept q o (State.motRefuse s src status) := by unfold State.motRefuse; (try dsimp only); split <;> simp +contextual (maxDischargeDepth := 200) [*]

@[simp] theorem State.motTake_kept {s : State} (m : ℕ) (q0 : MotSrc × MotCmd) (h : Kept q o s) : Kept q o (State.motTake s m q0) := by
  unfold State.motTake; (try dsimp only)
  repeat' first
    | with_reducible assumption
    | (simp +contextual (maxDischargeDepth := 200) [*]; done)
    | split
    | (with_reducible apply kept_foldl; intro _ _ _)
    | (with_reducible apply kept_ite)
    | with_reducible apply State.actDone_kept
    | with_reducible apply State.homeStart_kept
    | with_reducible apply State.motRefuse_kept
    | with_reducible apply State.moveStart_kept
    | with_reducible apply State.profileStart_kept

@[simp] theorem State.motArrivals_kept {s : State} (m : ℕ) (h : Kept q o s) : Kept q o (State.motArrivals s m) := by unfold State.motArrivals; (try dsimp only); split <;> simp +contextual (maxDischargeDepth := 200) [*]

@[simp] theorem motionSampleEff_kept (m : ℕ) {s : State} (h : Kept q o s) : Kept q o (motionSampleEff m s) := by
  unfold motionSampleEff; (try dsimp only)
  repeat' first
    | with_reducible assumption
    | (intro _ _ _; with_reducible assumption)
    | (with_reducible apply kept_foldl; intro _ _ _)
    | with_reducible apply kept_ite
    | with_reducible apply State.coilSample_kept
    | with_reducible apply State.motAdvance_kept
    | with_reducible apply State.motArrivals_kept
    | with_reducible apply State.motBounds_kept
    | with_reducible apply State.motShow_kept
    | with_reducible apply State.setMot_kept
    | with_reducible apply State.stpOff_kept
    | with_reducible apply State.stpSample_kept
    | with_reducible apply State.tideSettle_kept
    | split
    | intro _ _ _
    | (intro hw; simp [hw]; done)

@[simp] theorem State.homeRezero_kept {s : State} (m : ℕ) (pos : ℕ) (h : Kept q o s) : Kept q o (State.homeRezero s m pos) := by simp +contextual (maxDischargeDepth := 200) [State.homeRezero, *]

@[simp] theorem homeEdgeEff_kept (m : ℕ) (rising : Bool) {s : State} (h : Kept q o s) : Kept q o (homeEdgeEff m rising s) := by unfold homeEdgeEff; (try dsimp only); split <;> simp +contextual (maxDischargeDepth := 200) [*]

end Sys2Proof.Machine
end

