-- ==== Sys2Proof/Laws/KeptQuay.lean ====
section
/-! SUPPORT. What the operations of Quay.lean keep. -/

namespace Sys2Proof.Machine

set_option Elab.async false
set_option linter.unusedTactic false
set_option linter.unreachableTactic false

variable {q : List Instr} {o : List Out}

theorem trising_tset {t : Tbl Nat} (e : Nat × Nat) (h : trising t = true) : trising (tset t e) = true := by
  rw [trising_iff] at h ⊢
  exact pairwise_tins (h.filter _) fun x hx => (mem_tdel.mp hx).2

theorem copyUnits_rising (s : State) (us : Nat) (src into : Tbl Nat) (h : trising into = true) :
    trising (s.copyUnits us src into) = true := by
  unfold State.copyUnits
  generalize src.filter _ = l
  have h0 := trising_filter (fun e => !s.keyIn us e.1) h
  generalize into.filter (fun e => !s.keyIn us e.1) = t at h0
  induction l generalizing t with
  | nil => exact h0
  | cons e l ih => exact ih _ (trising_tset e h0)


@[simp] theorem State.withSnap_kept {s : State} (us : ℕ) (snap : Tbl ℕ) (h : Kept q o s) : Kept q o (State.withSnap s us snap) := by
  exact kept_live _ h fun hw => copyUnits_rising _ _ _ _ hw

@[simp] theorem State.stnApplied_kept {s : State} (old : State) (n : ℕ) (h : Kept q o s) : Kept q o (State.stnApplied s old n) := by simp +contextual (maxDischargeDepth := 200) [State.stnApplied, *]

@[simp] theorem State.loopApplied_kept {s : State} (old : State) (l : ℕ) (h : Kept q o s) : Kept q o (State.loopApplied s old l) := by simp +contextual (maxDischargeDepth := 200) [State.loopApplied, *]

@[simp] theorem State.capsApplied_kept {s : State} (old : State) (us : ℕ) (h : Kept q o s) : Kept q o (State.capsApplied s old us) := by simp +contextual (maxDischargeDepth := 200) [State.capsApplied, *]

@[simp] theorem State.hvApplied_kept {s : State} (h0 : ℕ) (h : Kept q o s) : Kept q o (State.hvApplied s h0) := by simp +contextual (maxDischargeDepth := 200) [State.hvApplied, *]

@[simp] theorem State.htrApplied_kept {s : State} (k : ℕ) (h : Kept q o s) : Kept q o (State.htrApplied s k) := by simp +contextual (maxDischargeDepth := 200) [State.htrApplied, *]

@[simp] theorem State.flApplied_kept {s : State} (p : ℕ) (h : Kept q o s) : Kept q o (State.flApplied s p) := by simp +contextual (maxDischargeDepth := 200) [State.flApplied, *]

@[simp] theorem State.axesApplied_kept {s : State} (old : State) (h : Kept q o s) : Kept q o (State.axesApplied s old) := by simp +contextual (maxDischargeDepth := 200) [State.axesApplied, *]

@[simp] theorem State.applied_kept {s : State} (old : State) (us : ℕ) (h : Kept q o s) : Kept q o (State.applied s old us) := by simp +contextual (maxDischargeDepth := 200) [State.applied, *]

@[simp] theorem State.commitApply_kept {s : State} (c : Commit) (h : Kept q o s) : Kept q o (State.commitApply s c) := by
  unfold State.commitApply
  extract_lets old s1 s2
  have h1 : Kept q o s1 := by
    refine kept_edgeLive_live _ _ h (fun hw => ?_) fun hw => copyUnits_rising _ _ _ _ hw
    have hr := h.2.2.2.1
    unfold State.keysRise at hr
    cases he : s.edgeLive with
    | none => exact hr.2.2.1
    | some x => simpa [he] using hw
  have h2 : Kept q o s2 := by
    refine kept_foldl _ _ (fun s u h => ?_) h1
    exact kept_ite (State.wr_kept _ _ _ _ h) (State.wr_kept _ _ _ _ (State.wr_kept _ _ _ _ h))
  exact State.endCommit_kept _ _ _ (State.applied_kept _ _ h2)

@[simp] theorem State.setCommit_kept {s : State} (c : Commit) (h : Kept q o s) : Kept q o (State.setCommit s c) := by
  unfold State.setCommit
  refine kept_commits _ h ?_
  rw [List.length_map]
  exact h.commits

@[simp] theorem State.headsWrite_kept {s : State} (t0 : State) (c : Commit) (ns : List ℕ) (h : Kept q o s) : Kept q o (State.headsWrite s t0 c ns) := by simp +contextual (maxDischargeDepth := 200) [State.headsWrite, *]

@[simp] theorem State.commitAt_kept {s : State} (c : Commit) (h : Kept q o s) : Kept q o (State.commitAt s c) := by unfold State.commitAt; (try dsimp only); split <;> simp +contextual (maxDischargeDepth := 200) [*]

@[simp] theorem State.levelsBack_kept {s : State} (n : ℕ) (bytes : List Byte) (h : Kept q o s) : Kept q o (State.levelsBack s n bytes) := by unfold State.levelsBack; (try dsimp only); split <;> simp +contextual (maxDischargeDepth := 200) [*]

@[simp] theorem State.markTried_kept {s : State} (c : Commit) (h : Kept q o s) : Kept q o (State.markTried s c) := by
  unfold State.markTried
  refine kept_commits _ h ?_
  rw [List.length_map]
  exact h.commits

@[simp] theorem commitBoundaryEff_kept (k : ℕ) {s : State} (h : Kept q o s) : Kept q o (commitBoundaryEff k s) := by unfold commitBoundaryEff; (try dsimp only); split <;> simp +contextual (maxDischargeDepth := 200) [*]

@[simp] theorem commitTimeoutEff_kept (k : ℕ) {s : State} (h : Kept q o s) : Kept q o (commitTimeoutEff k s) := by unfold commitTimeoutEff; (try dsimp only); split <;> simp +contextual (maxDischargeDepth := 200) [*]

@[simp] theorem commitEff_kept {s : State} (h : Kept q o s) : Kept q o (commitEff s) := by
  unfold commitEff; (try dsimp only)
  repeat' first
    | with_reducible assumption
    | (intro _ _ _; with_reducible assumption)
    | (with_reducible apply kept_foldl; intro _ _ _)
    | with_reducible apply kept_ite
    | with_reducible apply State.act_kept
    | with_reducible apply State.actDone_kept
    | with_reducible apply State.actRefuse_kept
    | with_reducible apply State.commitAt_kept
    | split
    | intro _ _ _
    | (intro hw; simp [hw]; done)

@[simp] theorem quayCommitEff_kept (n : ℕ) {s : State} (h : Kept q o s) : Kept q o (quayCommitEff n s) := by
  refine State.withDesc_kept _ _ _ (fun j s h => ?_) h
  extract_lets us c
  split
  · exact State.complete_kept _ _ _ h
  split
  · exact State.foreign_kept _ h
  split
  · exact State.commitDone_kept _ _ _ _ h
  split
  · exact State.commitDone_kept _ _ _ _ h
  split
  · exact State.commitDone_kept _ _ _ _ h
  · split
    · exact State.commitDone_kept _ _ _ _ h
    · refine kept_commits _ h ?_
      rw [List.length_append, List.length_singleton]
      omega

@[simp] theorem quayDiscardEff_kept (n : ℕ) {s : State} (h : Kept q o s) : Kept q o (quayDiscardEff n s) := by
  refine State.withDesc_kept _ _ _ (fun j s h => ?_) h
  extract_lets us
  split
  · exact State.complete_kept _ _ _ h
  split
  · exact State.foreign_kept _ h
  · refine State.complete_kept _ _ _ (kept_foldl _ _ (fun s u h => State.wr_kept _ _ _ _ h) ?_)
    exact kept_quay _ h fun hw => copyUnits_rising _ _ _ _ hw

@[simp] theorem quayStageEff_kept (n : ℕ) {s : State} (h : Kept q o s) : Kept q o (quayStageEff n s) := by
  unfold quayStageEff; (try dsimp only)
  repeat' first
    | with_reducible assumption
    | (intro _ _ _; with_reducible assumption)
    | (with_reducible apply kept_foldl; intro _ _ _)
    | with_reducible apply kept_ite
    | with_reducible apply State.complete_kept
    | with_reducible apply State.lockViol_kept
    | with_reducible apply State.raise_kept
    | with_reducible apply State.withDesc_kept
    | with_reducible apply State.writeField_kept
    | split
    | intro _ _ _
    | (intro hw; simp [hw]; done)

end Sys2Proof.Machine
end

