-- ==== Sys2Proof/Laws/KeptSideband.lean ====
section
/-! SUPPORT. What the operations of Sideband.lean keep. -/

namespace Sys2Proof.Machine

set_option Elab.async false
set_option linter.unusedTactic false
set_option linter.unreachableTactic false

variable {q : List Instr} {o : List Out}

@[simp] theorem State.sbStatus_kept {s : State} (n : ℕ) (p : List Byte) (h : Kept q o s) : Kept q o (State.sbStatus s n p) := by simp +contextual (maxDischargeDepth := 200) [State.sbStatus, *]

@[simp] theorem State.sbErrors_kept {s : State} (n : ℕ) (p : List Byte) (h : Kept q o s) : Kept q o (State.sbErrors s n p) := by simp +contextual (maxDischargeDepth := 200) [State.sbErrors, *]

@[simp] theorem State.sbChar_kept {s : State} (n : ℕ) (p : List Byte) (h : Kept q o s) : Kept q o (State.sbChar s n p) := by unfold State.sbChar; (try dsimp only); split <;> simp +contextual (maxDischargeDepth := 200) [*]

@[simp] theorem State.sbSync_kept {s : State} (n : ℕ) (k : ℕ) (eq : Bool) (h : Kept q o s) : Kept q o (State.sbSync s n k eq) := by simp +contextual (maxDischargeDepth := 200) [State.sbSync, *]

@[simp] theorem State.sbHandle_kept {s : State} (n : ℕ) (q0 : SbReq) (p : List Byte) (h : Kept q o s) : Kept q o (State.sbHandle s n q0 p) := by
  unfold State.sbHandle; (try dsimp only)
  repeat' first
    | with_reducible assumption
    | (simp +contextual (maxDischargeDepth := 200) [*]; done)
    | split
    | (with_reducible apply kept_foldl; intro _ _ _)
    | (with_reducible apply kept_ite)
    | with_reducible apply State.levelsBack_kept
    | with_reducible apply State.loadBack_kept
    | with_reducible apply State.sbChar_kept
    | with_reducible apply State.sbErrors_kept
    | with_reducible apply State.sbStatus_kept
    | with_reducible apply State.sbSync_kept

@[simp] theorem sidebandReplyEff_kept (n : ℕ) (cmd : ℕ) (tid : ℕ) (p : List Byte) (crc : ℕ) {s : State} (h : Kept q o s) : Kept q o (sidebandReplyEff n cmd tid p crc s) := by unfold sidebandReplyEff; (try dsimp only); split <;> simp +contextual (maxDischargeDepth := 200) [*]

@[simp] theorem State.sbFail_kept {s : State} (n : ℕ) (q0 : SbReq) (h : Kept q o s) : Kept q o (State.sbFail s n q0) := by unfold State.sbFail; (try dsimp only); split <;> simp +contextual (maxDischargeDepth := 200) [*]

@[simp] theorem sidebandTimeoutEff_kept (n : ℕ) {s : State} (h : Kept q o s) : Kept q o (sidebandTimeoutEff n s) := by
  unfold sidebandTimeoutEff; (try dsimp only)
  repeat' first
    | with_reducible assumption
    | (simp +contextual (maxDischargeDepth := 200) [*]; done)
    | split
    | (with_reducible apply kept_foldl; intro _ _ _)
    | (with_reducible apply kept_ite)
    | with_reducible apply State.emit_kept
    | with_reducible apply State.sbFail_kept
    | with_reducible apply State.sbNext_kept
    | with_reducible apply State.setBl_kept

end Sys2Proof.Machine
end

