-- ==== Sys2Proof/WellFormed.lean ====
section
/-! DEFINITION. Which commands name something that exists: every unit, ring, port, sensor or register number of a command lies
in the range its chapter gives, and every sampled value fits its input. A command that is not well formed names nothing and
has no effect beyond what its meaning says of such a number. -/

namespace Sys2Proof

/-- An access size in bytes that a register write can have (R29). -/
def accessSize (n : Nat) : Bool := n == 1 || n == 2 || n == 4 || n == 8

/-- A record fits its fields (R45). -/
def Rec.wf (r : Rec) : Bool :=
  decide (r.typ < 2 ^ 8) && decide (r.status < 2 ^ 8) && decide (r.src < 2 ^ 16) && decide (r.tag < 2 ^ 32) &&
  decide (r.crx < 2 ^ 32) && decide (r.dseq < 2 ^ 16) && decide (r.data < 2 ^ 64)

/-- The number of a station (R12), drive or stepper channel (R206, R240), submission ring (R35), event ring (R45), lighter (R343). -/
def isStn (n : Nat) : Bool := decide (n < 6)
def is16 (n : Nat) : Bool := decide (n < 16)
def isSq (n : Nat) : Bool := decide (n < 64)
def isEq (n : Nat) : Bool := decide (n < 16)
/-- A motion axis (R226). -/
def isMot (m : Nat) : Bool := decide (m < 32)

/-- A command names what exists. -/
def Instr.wf : Instr → Bool
  | .powerOnReset => true
  | .fundamentalReset => true
  | .rstNRise _ banks => decide (banks < 2 ^ 6)
  | .bootImageVerified slot _ => decide (slot < 2)
  | .refLoss => true
  | .pllRelock _ => true
  | .registerWrite _ bar _ _ size val => (bar == 0 || bar == 2 || bar == 4) && accessSize size && decide (val < 2 ^ 64)
  | .gangwayClose _ => true
  | .postWriteApply _ => true
  | .doorbell _ off size val => decide (off < 2 ^ 16) && accessSize size && decide (val < 2 ^ 64)
  | .sqEnable _ n => isSq n
  | .sqDisable _ n => isSq n
  | .sqRestart _ n => isSq n
  | .descriptorFetch n ds => isSq n && decide (1 ≤ ds.length) && decide (ds.length ≤ 8)
  | .fetchFail n _ => isSq n
  | .chainTimeout n => isSq n
  | .nop n => isSq n
  | .eqEnable _ n => isEq n
  | .eqDisable _ n => isEq n
  | .eqHeadWrite _ n val => isEq n && decide (val < 2 ^ 16)
  | .eventRecordProduce n r => isEq n && r.wf
  | .eventRecordDeliver n => isEq n
  | .imodTimerExpire n => isEq n
  | .msixUnmask pf vec => decide (pf < 2) && decide (vec < 64)
  | .chartEnable _ => true
  | .chartWrite => true
  | .linkChange rate width mps => decide (rate < 6) && decide (mps < 3) && (rate == 0 || width == 1 || width == 2 || width == 4)
  | .flrRequest => true
  | .flrResetEdge => true
  | .flrPf1 => true
  | .hotReset => true
  | .busMasterEnableWrite pf _ _ => decide (pf < 2)
  | .quayCommit n => isSq n
  | .commitBoundary k => decide (k < 8)
  | .commitTimeout k => decide (k < 8)
  | .quayDiscard n => isSq n
  | .quayStage n => isSq n
  | .tideInsert n => isSq n
  | .tideRemove n => isSq n
  | .axisRezero n => isSq n
  | .axisConvert n => isSq n
  | .axisUpdate ax => decide (ax < 64)
  | .axisHistorySample => true
  | .tideEntryDue => true
  | .tideActionIssue => true
  | .tideNop => true
  | .pin => true
  | .pulse => true
  | .pulseEnd out => decide (out < 64)
  | .capture => true
  | .event => true
  | .commit => true
  | .rezero => true
  | .castOff => true
  | .exposeStart => true
  | .exposeEnd => true
  | .windowOpen => true
  | .windowClose => true
  | .land => true
  | .markWindow => true
  | .hvStep => true
  | .htrStep => true
  | .motionStart => true
  | .tideMotionStop => true
  | .lawParam => true
  | .emuGate => true
  | .manifestHead n => isSq n
  | .manifestStation n => isSq n
  | .manifestPath n => isSq n
  | .manifestWindow n => isSq n
  | .manifestTide n => isSq n
  | .boarded crx => decide (crx < 2 ^ 32)
  | .boardingTimeout crx => decide (crx < 2 ^ 32)
  | .crossingAbandon n => isSq n
  | .pathClear n => isSq n
  | .sheetEdge sensor _ _ => decide (sensor < 32)
  | .abandonComplete crx => decide (crx < 2 ^ 32)
  | .engineAbandon => true
  | .engineAbandonLaserCut => true
  | .engineAbandonShutdown => true
  | .sosEdge stn _ _ => isStn stn
  | .sosWindowExpire stn => isStn stn
  | .sweepStart stn => isStn stn
  | .eosEdge stn _ _ => isStn stn
  | .facetLearnEnd stn => isStn stn
  | .markEdge sensor _ _ => decide (sensor < 16)
  | .markWindowClose => true
  | .bandSearchTrial stn _ => isStn stn
  | .lockWindowEnd stn _ _ => isStn stn
  | .pllLockTimeout stn => isStn stn
  | .scanRampLoad n _ => isSq n
  | .dotSetLoad n _ => isSq n
  | .rasterRowFetch lt => decide (lt < 12)
  | .rasterReadComplete lt _ => decide (lt < 12)
  | .scrubRead _ _ => true
  | .eccInjectArm _ => true
  | .hpdChange stn _ => isStn stn
  | .identityReadDone stn _ => isStn stn
  | .linkTrainProgress stn _ => isStn stn
  | .linkTrainTimeout stn => isStn stn
  | .linkRetrain stn => isStn stn
  | .sidebandReply stn cmd tid p _ => isStn stn && decide (cmd < 2 ^ 8) && decide (tid < 2 ^ 8) && decide (p.length ≤ 1024)
  | .sidebandTimeout stn => isStn stn
  | .headStatusPoll stn => isStn stn
  | .gstat stn _ _ _ => isStn stn
  | .gstatMissing stn => isStn stn
  | .emitterFault stn emitter _ => isStn stn && decide (emitter < 40)
  | .relief stn => isStn stn
  | .wearWrite stn => isStn stn
  | .driveDecision n _ _ _ adc => is16 n && decide (adc < 4096)
  | .driveSpeedStep n _ => is16 n
  | .drvStart _ n => is16 n
  | .drvStop _ n => is16 n
  | .findAngle _ n => is16 n
  | .catchDone n _ => is16 n
  | .angleSearchDone n _ _ _ => is16 n
  | .drvOc n _ _ => is16 n
  | .drvGate n => is16 n
  | .drvStall n => is16 n
  | .drvPinLost n _ => is16 n
  | .busGroupChange g _ _ => decide (g < 4)
  | .chopSenseFail g => decide (g < 4)
  | .motionSample m => isMot m
  | .motionRun n => isSq n
  | .motionMove n => isSq n
  | .motionStop n => isSq n
  | .motionStopTimeout n => isSq n
  | .motionHome n _ => isSq n
  | .homeEdge m _ => isMot m
  | .homeTimeout m => isMot m
  | .inposTimeout m => isMot m
  | .motionSegLoad n _ => isSq n
  | .microstepLoad n _ => isSq n
  | .chopperOnEnd k _ => is16 k
  | .chopperOffEnd k _ => is16 k
  | .stepperHold k => is16 k
  | .stpShort k _ => is16 k
  | .stpOpen k _ => is16 k
  | .stpStall k => is16 k
  | .encoderCount p _ _ => decide (p < 24)
  | .indexEvent p _ => decide (p < 24)
  | .ssiRequest p _ => decide (p < 24)
  | .ssiFrameDone p _ => decide (p < 24)
  | .encoderSpeed p => decide (p < 24)
  | .encSignal p => decide (p < 24)
  | .emuEdge e => decide (e < 8)
  | .emuOverrun e => decide (e < 8)
  | .resync _ e => decide (e < 8)
  | .capstanPeriod _ _ => true
  | .loopSampleComplete l => decide (l < 128)
  | .stale c => is16 c
  | .lawLoad n _ => isSq n
  | .lawParamSet n _ => isSq n
  | .ffTableLoad n _ => isSq n
  | .hvPwmPeriod h => decide (h < 32)
  | .hvOver h _ => decide (h < 32)
  | .hvArc h => decide (h < 32)
  | .arcBlankEnd h => decide (h < 32)
  | .hvRearm _ h => decide (h < 32)
  | .heaterHalfCycle k => decide (k < 4)
  | .heaterGateEnd k => decide (k < 4)
  | .htrRearm _ k => decide (k < 4)
  | .zcrossEdge => true
  | .mainsLost => true
  | .sensorRead die adc => decide (die.length ≤ 8) && decide (adc.length ≤ 48)
  | .dieTrip sensor => decide (sensor < 8)
  | .dieHoldRelease => true
  | .htrHwtrip cmp code _ => decide (cmp < 8) && decide (code < 4096)
  | .fuserCmpRelease cmp code => decide (cmp < 8) && decide (code < 4096)
  | .coreDroop _ => true
  | .droopRecover => true
  | .seqGo _ => true
  | .seqDown _ => true
  | .seqbellStageAdvance _ => true
  | .railGood rail code => is16 rail && decide (code < 4096)
  | .stageDwellEnd => true
  | .railUpTimeout rail => is16 rail
  | .railDownTimeout rail => is16 rail
  | .railRunFault rail code _ => is16 rail && decide (code < 4096)
  | .inputFailure _ _ => true
  | .externalEbb _ => true
  | .tShutExpire => true
  | .tOffMinExpire => true
  | .pwrReq _ mode => decide (mode < 4)
  | .slackDeclared => true
  | .mooredEntry => true
  | .mooredStopTimeout => true
  | .wake by_ _ => decide (1 ≤ by_) && decide (by_ < 5)
  | .mooredExit => true
  | .fenlinkCycle port => decide (port < 4)
  | .fenlinkPoll port => decide (port < 4)
  | .reply port frame => decide (port < 4) && decide (frame.length ≤ 64)
  | .replyMissed port node => decide (port < 4) && decide (node < 256)
  | .hello port frame => decide (port < 4) && decide (frame.length ≤ 64)
  | .nodeListLoad n _ => isSq n
  | .faultRaise src unit _ _ _ => decide (src < 64) && decide (unit < 256)
  | .faultLatchClear _ mask => decide (mask < 2 ^ 64)
  | .faultPairChange pair _ _ _ => decide (pair < 8)
  | .interlockChange input _ _ => decide (input < 8)
  | .lanternToggle => true
  | .ferryWd => true
  | .ferrymanReArm => true
  | .lighterCopy n => isSq n
  | .lighterTransferComplete lt => decide (14 ≤ lt) && decide (lt < 32)
  | .lighterReadFail lt _ => decide (14 ≤ lt) && decide (lt < 32)
  | .drainTimeout lt => decide (14 ≤ lt) && decide (lt < 32)
  | .imageStage n _ => isSq n
  | .imageSwitch n => isSq n
  | .imageHandover => true
  | .imageSwitchTimeout => true
  | .handoverArmTimeout => true
  | .flashWrite n _ => isSq n
  | .unitLayup n => isSq n
  | .layupApply _ => true
  | .laidUp _ => true
  | .layupTimeout _ => true
  | .unitReadmit n => isSq n
  | .logbookWrite n _ => isSq n
  | .crossingCounterWrite => true
  | .journalEntryWrite _ _ => true
  | .lbAddrWrite _ word => decide (word < 2 ^ 32)
  | .inputGood _ => true
  | .ebbNRelease => true
  | .seqbellGlitch => true
  | .beamLinkTrainRetry stn => isStn stn
  | .scanPllRetry stn => isStn stn
  | .angleSearchRetry n => is16 n
  | .encSignalRestored p => decide (p < 24)
  | .dfltRelease n => is16 n
  | .busReactionEnd g => decide (g < 4)
  | .lighterReadComplete lt _ => decide (14 ≤ lt) && decide (lt < 32)

/-- The submission ring whose front descriptor a command starts (R39), `none` for a command that starts none. -/
def Instr.ring : Instr → Option Nat
  | .powerOnReset => none
  | .fundamentalReset => none
  | .rstNRise _ _ => none
  | .bootImageVerified _ _ => none
  | .refLoss => none
  | .pllRelock _ => none
  | .registerWrite _ _ _ _ _ _ => none
  | .gangwayClose _ => none
  | .postWriteApply _ => none
  | .doorbell _ _ _ _ => none
  | .sqEnable _ _ => none
  | .sqDisable _ _ => none
  | .sqRestart _ _ => none
  | .descriptorFetch _ _ => none
  | .fetchFail _ _ => none
  | .chainTimeout _ => none
  | .nop n => some n
  | .eqEnable _ _ => none
  | .eqDisable _ _ => none
  | .eqHeadWrite _ _ _ => none
  | .eventRecordProduce _ _ => none
  | .eventRecordDeliver _ => none
  | .imodTimerExpire _ => none
  | .msixUnmask _ _ => none
  | .chartEnable _ => none
  | .chartWrite => none
  | .linkChange _ _ _ => none
  | .flrRequest => none
  | .flrResetEdge => none
  | .flrPf1 => none
  | .hotReset => none
  | .busMasterEnableWrite _ _ _ => none
  | .quayCommit n => some n
  | .commitBoundary _ => none
  | .commitTimeout _ => none
  | .quayDiscard n => some n
  | .quayStage n => some n
  | .tideInsert n => some n
  | .tideRemove n => some n
  | .axisRezero n => some n
  | .axisConvert n => some n
  | .axisUpdate _ => none
  | .axisHistorySample => none
  | .tideEntryDue => none
  | .tideActionIssue => none
  | .tideNop => none
  | .pin => none
  | .pulse => none
  | .pulseEnd _ => none
  | .capture => none
  | .event => none
  | .commit => none
  | .rezero => none
  | .castOff => none
  | .exposeStart => none
  | .exposeEnd => none
  | .windowOpen => none
  | .windowClose => none
  | .land => none
  | .markWindow => none
  | .hvStep => none
  | .htrStep => none
  | .motionStart => none
  | .tideMotionStop => none
  | .lawParam => none
  | .emuGate => none
  | .manifestHead n => some n
  | .manifestStation n => some n
  | .manifestPath n => some n
  | .manifestWindow n => some n
  | .manifestTide n => some n
  | .boarded _ => none
  | .boardingTimeout _ => none
  | .crossingAbandon n => some n
  | .pathClear n => some n
  | .sheetEdge _ _ _ => none
  | .abandonComplete _ => none
  | .engineAbandon => none
  | .engineAbandonLaserCut => none
  | .engineAbandonShutdown => none
  | .sosEdge _ _ _ => none
  | .sosWindowExpire _ => none
  | .sweepStart _ => none
  | .eosEdge _ _ _ => none
  | .facetLearnEnd _ => none
  | .markEdge _ _ _ => none
  | .markWindowClose => none
  | .bandSearchTrial _ _ => none
  | .lockWindowEnd _ _ _ => none
  | .pllLockTimeout _ => none
  | .scanRampLoad n _ => some n
  | .dotSetLoad n _ => some n
  | .rasterRowFetch _ => none
  | .rasterReadComplete _ _ => none
  | .scrubRead _ _ => none
  | .eccInjectArm _ => none
  | .hpdChange _ _ => none
  | .identityReadDone _ _ => none
  | .linkTrainProgress _ _ => none
  | .linkTrainTimeout _ => none
  | .linkRetrain _ => none
  | .sidebandReply _ _ _ _ _ => none
  | .sidebandTimeout _ => none
  | .headStatusPoll _ => none
  | .gstat _ _ _ _ => none
  | .gstatMissing _ => none
  | .emitterFault _ _ _ => none
  | .relief _ => none
  | .wearWrite _ => none
  | .driveDecision _ _ _ _ _ => none
  | .driveSpeedStep _ _ => none
  | .drvStart _ _ => none
  | .drvStop _ _ => none
  | .findAngle _ _ => none
  | .catchDone _ _ => none
  | .angleSearchDone _ _ _ _ => none
  | .drvOc _ _ _ => none
  | .drvGate _ => none
  | .drvStall _ => none
  | .drvPinLost _ _ => none
  | .busGroupChange _ _ _ => none
  | .chopSenseFail _ => none
  | .motionSample _ => none
  | .motionRun n => some n
  | .motionMove n => some n
  | .motionStop n => some n
  | .motionStopTimeout _ => none
  | .motionHome n _ => some n
  | .homeEdge _ _ => none
  | .homeTimeout _ => none
  | .inposTimeout _ => none
  | .motionSegLoad n _ => some n
  | .microstepLoad n _ => some n
  | .chopperOnEnd _ _ => none
  | .chopperOffEnd _ _ => none
  | .stepperHold _ => none
  | .stpShort _ _ => none
  | .stpOpen _ _ => none
  | .stpStall _ => none
  | .encoderCount _ _ _ => none
  | .indexEvent _ _ => none
  | .ssiRequest _ _ => none
  | .ssiFrameDone _ _ => none
  | .encoderSpeed _ => none
  | .encSignal _ => none
  | .emuEdge _ => none
  | .emuOverrun _ => none
  | .resync _ _ => none
  | .capstanPeriod _ _ => none
  | .loopSampleComplete _ => none
  | .stale _ => none
  | .lawLoad n _ => some n
  | .lawParamSet n _ => some n
  | .ffTableLoad n _ => some n
  | .hvPwmPeriod _ => none
  | .hvOver _ _ => none
  | .hvArc _ => none
  | .arcBlankEnd _ => none
  | .hvRearm _ _ => none
  | .heaterHalfCycle _ => none
  | .heaterGateEnd _ => none
  | .htrRearm _ _ => none
  | .zcrossEdge => none
  | .mainsLost => none
  | .sensorRead _ _ => none
  | .dieTrip _ => none
  | .dieHoldRelease => none
  | .htrHwtrip _ _ _ => none
  | .fuserCmpRelease _ _ => none
  | .coreDroop _ => none
  | .droopRecover => none
  | .seqGo _ => none
  | .seqDown _ => none
  | .seqbellStageAdvance _ => none
  | .railGood _ _ => none
  | .stageDwellEnd => none
  | .railUpTimeout _ => none
  | .railDownTimeout _ => none
  | .railRunFault _ _ _ => none
  | .inputFailure _ _ => none
  | .externalEbb _ => none
  | .tShutExpire => none
  | .tOffMinExpire => none
  | .pwrReq _ _ => none
  | .slackDeclared => none
  | .mooredEntry => none
  | .mooredStopTimeout => none
  | .wake _ _ => none
  | .mooredExit => none
  | .fenlinkCycle _ => none
  | .fenlinkPoll _ => none
  | .reply _ _ => none
  | .replyMissed _ _ => none
  | .hello _ _ => none
  | .nodeListLoad n _ => some n
  | .faultRaise _ _ _ _ _ => none
  | .faultLatchClear _ _ => none
  | .faultPairChange _ _ _ _ => none
  | .interlockChange _ _ _ => none
  | .lanternToggle => none
  | .ferryWd => none
  | .ferrymanReArm => none
  | .lighterCopy n => some n
  | .lighterTransferComplete _ => none
  | .lighterReadFail _ _ => none
  | .drainTimeout _ => none
  | .imageStage n _ => some n
  | .imageSwitch n => some n
  | .imageHandover => none
  | .imageSwitchTimeout => none
  | .handoverArmTimeout => none
  | .flashWrite n _ => some n
  | .unitLayup n => some n
  | .layupApply _ => none
  | .laidUp _ => none
  | .layupTimeout _ => none
  | .unitReadmit n => some n
  | .logbookWrite n _ => some n
  | .crossingCounterWrite => none
  | .journalEntryWrite _ _ => none
  | .lbAddrWrite _ _ => none
  | .inputGood _ => none
  | .ebbNRelease => none
  | .seqbellGlitch => none
  | .beamLinkTrainRetry _ => none
  | .scanPllRetry _ => none
  | .angleSearchRetry _ => none
  | .encSignalRestored _ => none
  | .dfltRelease _ => none
  | .busReactionEnd _ => none
  | .lighterReadComplete _ _ => none

end Sys2Proof
end

