-- ==== Sys2Proof/Laws/PerInstr.lean ====
section
/-! SUPPORT. One lemma per command for the families of statements about commands as syntax. Family `RingRange`: a well-formed
command that starts a descriptor names one of the 64 submission rings (R35). -/

namespace Sys2Proof.Laws

set_option Elab.async false

/-- A well-formed command that starts a descriptor names one of the 64 submission rings. -/
def RingRange.Statement (i : Instr) : Prop := i.wf = true → ∀ n, i.ring = some n → n < 64

theorem RingRange.powerOnReset : RingRange.Statement (.powerOnReset) := fun _ _ e => nomatch e
theorem RingRange.fundamentalReset : RingRange.Statement (.fundamentalReset) := fun _ _ e => nomatch e
theorem RingRange.rstNRise x0 x1 : RingRange.Statement (.rstNRise x0 x1) := fun _ _ e => nomatch e
theorem RingRange.bootImageVerified x0 x1 : RingRange.Statement (.bootImageVerified x0 x1) := fun _ _ e => nomatch e
theorem RingRange.refLoss : RingRange.Statement (.refLoss) := fun _ _ e => nomatch e
theorem RingRange.pllRelock x0 : RingRange.Statement (.pllRelock x0) := fun _ _ e => nomatch e
theorem RingRange.registerWrite x0 x1 x2 x3 x4 x5 : RingRange.Statement (.registerWrite x0 x1 x2 x3 x4 x5) := fun _ _ e => nomatch e
theorem RingRange.gangwayClose x0 : RingRange.Statement (.gangwayClose x0) := fun _ _ e => nomatch e
theorem RingRange.postWriteApply x0 : RingRange.Statement (.postWriteApply x0) := fun _ _ e => nomatch e
theorem RingRange.doorbell x0 x1 x2 x3 : RingRange.Statement (.doorbell x0 x1 x2 x3) := fun _ _ e => nomatch e
theorem RingRange.sqEnable x0 x1 : RingRange.Statement (.sqEnable x0 x1) := fun _ _ e => nomatch e
theorem RingRange.sqDisable x0 x1 : RingRange.Statement (.sqDisable x0 x1) := fun _ _ e => nomatch e
theorem RingRange.sqRestart x0 x1 : RingRange.Statement (.sqRestart x0 x1) := fun _ _ e => nomatch e
theorem RingRange.descriptorFetch x0 x1 : RingRange.Statement (.descriptorFetch x0 x1) := fun _ _ e => nomatch e
theorem RingRange.fetchFail x0 x1 : RingRange.Statement (.fetchFail x0 x1) := fun _ _ e => nomatch e
theorem RingRange.chainTimeout x0 : RingRange.Statement (.chainTimeout x0) := fun _ _ e => nomatch e
theorem RingRange.nop x0 : RingRange.Statement (.nop x0) := fun h n e => by cases e; simpa [Instr.wf, isSq] using h
theorem RingRange.eqEnable x0 x1 : RingRange.Statement (.eqEnable x0 x1) := fun _ _ e => nomatch e
theorem RingRange.eqDisable x0 x1 : RingRange.Statement (.eqDisable x0 x1) := fun _ _ e => nomatch e
theorem RingRange.eqHeadWrite x0 x1 x2 : RingRange.Statement (.eqHeadWrite x0 x1 x2) := fun _ _ e => nomatch e
theorem RingRange.eventRecordProduce x0 x1 : RingRange.Statement (.eventRecordProduce x0 x1) := fun _ _ e => nomatch e
theorem RingRange.eventRecordDeliver x0 : RingRange.Statement (.eventRecordDeliver x0) := fun _ _ e => nomatch e
theorem RingRange.imodTimerExpire x0 : RingRange.Statement (.imodTimerExpire x0) := fun _ _ e => nomatch e
theorem RingRange.msixUnmask x0 x1 : RingRange.Statement (.msixUnmask x0 x1) := fun _ _ e => nomatch e
theorem RingRange.chartEnable x0 : RingRange.Statement (.chartEnable x0) := fun _ _ e => nomatch e
theorem RingRange.chartWrite : RingRange.Statement (.chartWrite) := fun _ _ e => nomatch e
theorem RingRange.linkChange x0 x1 x2 : RingRange.Statement (.linkChange x0 x1 x2) := fun _ _ e => nomatch e
theorem RingRange.flrRequest : RingRange.Statement (.flrRequest) := fun _ _ e => nomatch e
theorem RingRange.flrResetEdge : RingRange.Statement (.flrResetEdge) := fun _ _ e => nomatch e
theorem RingRange.flrPf1 : RingRange.Statement (.flrPf1) := fun _ _ e => nomatch e
theorem RingRange.hotReset : RingRange.Statement (.hotReset) := fun _ _ e => nomatch e
theorem RingRange.busMasterEnableWrite x0 x1 x2 : RingRange.Statement (.busMasterEnableWrite x0 x1 x2) := fun _ _ e => nomatch e
theorem RingRange.quayCommit x0 : RingRange.Statement (.quayCommit x0) := fun h n e => by cases e; simpa [Instr.wf, isSq] using h
theorem RingRange.commitBoundary x0 : RingRange.Statement (.commitBoundary x0) := fun _ _ e => nomatch e
theorem RingRange.commitTimeout x0 : RingRange.Statement (.commitTimeout x0) := fun _ _ e => nomatch e
theorem RingRange.quayDiscard x0 : RingRange.Statement (.quayDiscard x0) := fun h n e => by cases e; simpa [Instr.wf, isSq] using h
theorem RingRange.quayStage x0 : RingRange.Statement (.quayStage x0) := fun h n e => by cases e; simpa [Instr.wf, isSq] using h
theorem RingRange.tideInsert x0 : RingRange.Statement (.tideInsert x0) := fun h n e => by cases e; simpa [Instr.wf, isSq] using h
theorem RingRange.tideRemove x0 : RingRange.Statement (.tideRemove x0) := fun h n e => by cases e; simpa [Instr.wf, isSq] using h
theorem RingRange.axisRezero x0 : RingRange.Statement (.axisRezero x0) := fun h n e => by cases e; simpa [Instr.wf, isSq] using h
theorem RingRange.axisConvert x0 : RingRange.Statement (.axisConvert x0) := fun h n e => by cases e; simpa [Instr.wf, isSq] using h
theorem RingRange.axisUpdate x0 : RingRange.Statement (.axisUpdate x0) := fun _ _ e => nomatch e
theorem RingRange.axisHistorySample : RingRange.Statement (.axisHistorySample) := fun _ _ e => nomatch e
theorem RingRange.tideEntryDue : RingRange.Statement (.tideEntryDue) := fun _ _ e => nomatch e
theorem RingRange.tideActionIssue : RingRange.Statement (.tideActionIssue) := fun _ _ e => nomatch e
theorem RingRange.tideNop : RingRange.Statement (.tideNop) := fun _ _ e => nomatch e
theorem RingRange.pin : RingRange.Statement (.pin) := fun _ _ e => nomatch e
theorem RingRange.pulse : RingRange.Statement (.pulse) := fun _ _ e => nomatch e
theorem RingRange.pulseEnd x0 : RingRange.Statement (.pulseEnd x0) := fun _ _ e => nomatch e
theorem RingRange.capture : RingRange.Statement (.capture) := fun _ _ e => nomatch e
theorem RingRange.event : RingRange.Statement (.event) := fun _ _ e => nomatch e
theorem RingRange.commit : RingRange.Statement (.commit) := fun _ _ e => nomatch e
theorem RingRange.rezero : RingRange.Statement (.rezero) := fun _ _ e => nomatch e
theorem RingRange.castOff : RingRange.Statement (.castOff) := fun _ _ e => nomatch e
theorem RingRange.exposeStart : RingRange.Statement (.exposeStart) := fun _ _ e => nomatch e
theorem RingRange.exposeEnd : RingRange.Statement (.exposeEnd) := fun _ _ e => nomatch e
theorem RingRange.windowOpen : RingRange.Statement (.windowOpen) := fun _ _ e => nomatch e
theorem RingRange.windowClose : RingRange.Statement (.windowClose) := fun _ _ e => nomatch e
theorem RingRange.land : RingRange.Statement (.land) := fun _ _ e => nomatch e
theorem RingRange.markWindow : RingRange.Statement (.markWindow) := fun _ _ e => nomatch e
theorem RingRange.hvStep : RingRange.Statement (.hvStep) := fun _ _ e => nomatch e
theorem RingRange.htrStep : RingRange.Statement (.htrStep) := fun _ _ e => nomatch e
theorem RingRange.motionStart : RingRange.Statement (.motionStart) := fun _ _ e => nomatch e
theorem RingRange.tideMotionStop : RingRange.Statement (.tideMotionStop) := fun _ _ e => nomatch e
theorem RingRange.lawParam : RingRange.Statement (.lawParam) := fun _ _ e => nomatch e
theorem RingRange.emuGate : RingRange.Statement (.emuGate) := fun _ _ e => nomatch e
theorem RingRange.manifestHead x0 : RingRange.Statement (.manifestHead x0) := fun h n e => by cases e; simpa [Instr.wf, isSq] using h
theorem RingRange.manifestStation x0 : RingRange.Statement (.manifestStation x0) := fun h n e => by cases e; simpa [Instr.wf, isSq] using h
theorem RingRange.manifestPath x0 : RingRange.Statement (.manifestPath x0) := fun h n e => by cases e; simpa [Instr.wf, isSq] using h
theorem RingRange.manifestWindow x0 : RingRange.Statement (.manifestWindow x0) := fun h n e => by cases e; simpa [Instr.wf, isSq] using h
theorem RingRange.manifestTide x0 : RingRange.Statement (.manifestTide x0) := fun h n e => by cases e; simpa [Instr.wf, isSq] using h
theorem RingRange.boarded x0 : RingRange.Statement (.boarded x0) := fun _ _ e => nomatch e
theorem RingRange.boardingTimeout x0 : RingRange.Statement (.boardingTimeout x0) := fun _ _ e => nomatch e
theorem RingRange.crossingAbandon x0 : RingRange.Statement (.crossingAbandon x0) := fun h n e => by cases e; simpa [Instr.wf, isSq] using h
theorem RingRange.pathClear x0 : RingRange.Statement (.pathClear x0) := fun h n e => by cases e; simpa [Instr.wf, isSq] using h
theorem RingRange.sheetEdge x0 x1 x2 : RingRange.Statement (.sheetEdge x0 x1 x2) := fun _ _ e => nomatch e
theorem RingRange.abandonComplete x0 : RingRange.Statement (.abandonComplete x0) := fun _ _ e => nomatch e
theorem RingRange.engineAbandon : RingRange.Statement (.engineAbandon) := fun _ _ e => nomatch e
theorem RingRange.engineAbandonLaserCut : RingRange.Statement (.engineAbandonLaserCut) := fun _ _ e => nomatch e
theorem RingRange.engineAbandonShutdown : RingRange.Statement (.engineAbandonShutdown) := fun _ _ e => nomatch e
theorem RingRange.sosEdge x0 x1 x2 : RingRange.Statement (.sosEdge x0 x1 x2) := fun _ _ e => nomatch e
theorem RingRange.sosWindowExpire x0 : RingRange.Statement (.sosWindowExpire x0) := fun _ _ e => nomatch e
theorem RingRange.sweepStart x0 : RingRange.Statement (.sweepStart x0) := fun _ _ e => nomatch e
theorem RingRange.eosEdge x0 x1 x2 : RingRange.Statement (.eosEdge x0 x1 x2) := fun _ _ e => nomatch e
theorem RingRange.facetLearnEnd x0 : RingRange.Statement (.facetLearnEnd x0) := fun _ _ e => nomatch e
theorem RingRange.markEdge x0 x1 x2 : RingRange.Statement (.markEdge x0 x1 x2) := fun _ _ e => nomatch e
theorem RingRange.markWindowClose : RingRange.Statement (.markWindowClose) := fun _ _ e => nomatch e
theorem RingRange.bandSearchTrial x0 x1 : RingRange.Statement (.bandSearchTrial x0 x1) := fun _ _ e => nomatch e
theorem RingRange.lockWindowEnd x0 x1 x2 : RingRange.Statement (.lockWindowEnd x0 x1 x2) := fun _ _ e => nomatch e
theorem RingRange.pllLockTimeout x0 : RingRange.Statement (.pllLockTimeout x0) := fun _ _ e => nomatch e
theorem RingRange.scanRampLoad x0 x1 : RingRange.Statement (.scanRampLoad x0 x1) := fun h n e => by cases e; simpa [Instr.wf, isSq] using h
theorem RingRange.dotSetLoad x0 x1 : RingRange.Statement (.dotSetLoad x0 x1) := fun h n e => by cases e; simpa [Instr.wf, isSq] using h
theorem RingRange.rasterRowFetch x0 : RingRange.Statement (.rasterRowFetch x0) := fun _ _ e => nomatch e
theorem RingRange.rasterReadComplete x0 x1 : RingRange.Statement (.rasterReadComplete x0 x1) := fun _ _ e => nomatch e
theorem RingRange.scrubRead x0 x1 : RingRange.Statement (.scrubRead x0 x1) := fun _ _ e => nomatch e
theorem RingRange.eccInjectArm x0 : RingRange.Statement (.eccInjectArm x0) := fun _ _ e => nomatch e
theorem RingRange.hpdChange x0 x1 : RingRange.Statement (.hpdChange x0 x1) := fun _ _ e => nomatch e
theorem RingRange.identityReadDone x0 x1 : RingRange.Statement (.identityReadDone x0 x1) := fun _ _ e => nomatch e
theorem RingRange.linkTrainProgress x0 x1 : RingRange.Statement (.linkTrainProgress x0 x1) := fun _ _ e => nomatch e
theorem RingRange.linkTrainTimeout x0 : RingRange.Statement (.linkTrainTimeout x0) := fun _ _ e => nomatch e
theorem RingRange.linkRetrain x0 : RingRange.Statement (.linkRetrain x0) := fun _ _ e => nomatch e
theorem RingRange.sidebandReply x0 x1 x2 x3 x4 : RingRange.Statement (.sidebandReply x0 x1 x2 x3 x4) := fun _ _ e => nomatch e
theorem RingRange.sidebandTimeout x0 : RingRange.Statement (.sidebandTimeout x0) := fun _ _ e => nomatch e
theorem RingRange.headStatusPoll x0 : RingRange.Statement (.headStatusPoll x0) := fun _ _ e => nomatch e
theorem RingRange.gstat x0 x1 x2 x3 : RingRange.Statement (.gstat x0 x1 x2 x3) := fun _ _ e => nomatch e
theorem RingRange.gstatMissing x0 : RingRange.Statement (.gstatMissing x0) := fun _ _ e => nomatch e
theorem RingRange.emitterFault x0 x1 x2 : RingRange.Statement (.emitterFault x0 x1 x2) := fun _ _ e => nomatch e
theorem RingRange.relief x0 : RingRange.Statement (.relief x0) := fun _ _ e => nomatch e
theorem RingRange.wearWrite x0 : RingRange.Statement (.wearWrite x0) := fun _ _ e => nomatch e
theorem RingRange.driveDecision x0 x1 x2 x3 x4 : RingRange.Statement (.driveDecision x0 x1 x2 x3 x4) := fun _ _ e => nomatch e
theorem RingRange.driveSpeedStep x0 x1 : RingRange.Statement (.driveSpeedStep x0 x1) := fun _ _ e => nomatch e
theorem RingRange.drvStart x0 x1 : RingRange.Statement (.drvStart x0 x1) := fun _ _ e => nomatch e
theorem RingRange.drvStop x0 x1 : RingRange.Statement (.drvStop x0 x1) := fun _ _ e => nomatch e
theorem RingRange.findAngle x0 x1 : RingRange.Statement (.findAngle x0 x1) := fun _ _ e => nomatch e
theorem RingRange.catchDone x0 x1 : RingRange.Statement (.catchDone x0 x1) := fun _ _ e => nomatch e
theorem RingRange.angleSearchDone x0 x1 x2 x3 : RingRange.Statement (.angleSearchDone x0 x1 x2 x3) := fun _ _ e => nomatch e
theorem RingRange.drvOc x0 x1 x2 : RingRange.Statement (.drvOc x0 x1 x2) := fun _ _ e => nomatch e
theorem RingRange.drvGate x0 : RingRange.Statement (.drvGate x0) := fun _ _ e => nomatch e
theorem RingRange.drvStall x0 : RingRange.Statement (.drvStall x0) := fun _ _ e => nomatch e
theorem RingRange.drvPinLost x0 x1 : RingRange.Statement (.drvPinLost x0 x1) := fun _ _ e => nomatch e
theorem RingRange.busGroupChange x0 x1 x2 : RingRange.Statement (.busGroupChange x0 x1 x2) := fun _ _ e => nomatch e
theorem RingRange.chopSenseFail x0 : RingRange.Statement (.chopSenseFail x0) := fun _ _ e => nomatch e
theorem RingRange.motionSample x0 : RingRange.Statement (.motionSample x0) := fun _ _ e => nomatch e
theorem RingRange.motionRun x0 : RingRange.Statement (.motionRun x0) := fun h n e => by cases e; simpa [Instr.wf, isSq] using h
theorem RingRange.motionMove x0 : RingRange.Statement (.motionMove x0) := fun h n e => by cases e; simpa [Instr.wf, isSq] using h
theorem RingRange.motionStop x0 : RingRange.Statement (.motionStop x0) := fun h n e => by cases e; simpa [Instr.wf, isSq] using h
theorem RingRange.motionStopTimeout x0 : RingRange.Statement (.motionStopTimeout x0) := fun _ _ e => nomatch e
theorem RingRange.motionHome x0 x1 : RingRange.Statement (.motionHome x0 x1) := fun h n e => by cases e; simpa [Instr.wf, isSq] using h
theorem RingRange.homeEdge x0 x1 : RingRange.Statement (.homeEdge x0 x1) := fun _ _ e => nomatch e
theorem RingRange.homeTimeout x0 : RingRange.Statement (.homeTimeout x0) := fun _ _ e => nomatch e
theorem RingRange.inposTimeout x0 : RingRange.Statement (.inposTimeout x0) := fun _ _ e => nomatch e
theorem RingRange.motionSegLoad x0 x1 : RingRange.Statement (.motionSegLoad x0 x1) := fun h n e => by cases e; simpa [Instr.wf, isSq] using h
theorem RingRange.microstepLoad x0 x1 : RingRange.Statement (.microstepLoad x0 x1) := fun h n e => by cases e; simpa [Instr.wf, isSq] using h
theorem RingRange.chopperOnEnd x0 x1 : RingRange.Statement (.chopperOnEnd x0 x1) := fun _ _ e => nomatch e
theorem RingRange.chopperOffEnd x0 x1 : RingRange.Statement (.chopperOffEnd x0 x1) := fun _ _ e => nomatch e
theorem RingRange.stepperHold x0 : RingRange.Statement (.stepperHold x0) := fun _ _ e => nomatch e
theorem RingRange.stpShort x0 x1 : RingRange.Statement (.stpShort x0 x1) := fun _ _ e => nomatch e
theorem RingRange.stpOpen x0 x1 : RingRange.Statement (.stpOpen x0 x1) := fun _ _ e => nomatch e
theorem RingRange.stpStall x0 : RingRange.Statement (.stpStall x0) := fun _ _ e => nomatch e
theorem RingRange.encoderCount x0 x1 x2 : RingRange.Statement (.encoderCount x0 x1 x2) := fun _ _ e => nomatch e
theorem RingRange.indexEvent x0 x1 : RingRange.Statement (.indexEvent x0 x1) := fun _ _ e => nomatch e
theorem RingRange.ssiRequest x0 x1 : RingRange.Statement (.ssiRequest x0 x1) := fun _ _ e => nomatch e
theorem RingRange.ssiFrameDone x0 x1 : RingRange.Statement (.ssiFrameDone x0 x1) := fun _ _ e => nomatch e
theorem RingRange.encoderSpeed x0 : RingRange.Statement (.encoderSpeed x0) := fun _ _ e => nomatch e
theorem RingRange.encSignal x0 : RingRange.Statement (.encSignal x0) := fun _ _ e => nomatch e
theorem RingRange.emuEdge x0 : RingRange.Statement (.emuEdge x0) := fun _ _ e => nomatch e
theorem RingRange.emuOverrun x0 : RingRange.Statement (.emuOverrun x0) := fun _ _ e => nomatch e
theorem RingRange.resync x0 x1 : RingRange.Statement (.resync x0 x1) := fun _ _ e => nomatch e
theorem RingRange.capstanPeriod x0 x1 : RingRange.Statement (.capstanPeriod x0 x1) := fun _ _ e => nomatch e
theorem RingRange.loopSampleComplete x0 : RingRange.Statement (.loopSampleComplete x0) := fun _ _ e => nomatch e
theorem RingRange.stale x0 : RingRange.Statement (.stale x0) := fun _ _ e => nomatch e
theorem RingRange.lawLoad x0 x1 : RingRange.Statement (.lawLoad x0 x1) := fun h n e => by cases e; simpa [Instr.wf, isSq] using h
theorem RingRange.lawParamSet x0 x1 : RingRange.Statement (.lawParamSet x0 x1) := fun h n e => by cases e; simpa [Instr.wf, isSq] using h
theorem RingRange.ffTableLoad x0 x1 : RingRange.Statement (.ffTableLoad x0 x1) := fun h n e => by cases e; simpa [Instr.wf, isSq] using h
theorem RingRange.hvPwmPeriod x0 : RingRange.Statement (.hvPwmPeriod x0) := fun _ _ e => nomatch e
theorem RingRange.hvOver x0 x1 : RingRange.Statement (.hvOver x0 x1) := fun _ _ e => nomatch e
theorem RingRange.hvArc x0 : RingRange.Statement (.hvArc x0) := fun _ _ e => nomatch e
theorem RingRange.arcBlankEnd x0 : RingRange.Statement (.arcBlankEnd x0) := fun _ _ e => nomatch e
theorem RingRange.hvRearm x0 x1 : RingRange.Statement (.hvRearm x0 x1) := fun _ _ e => nomatch e
theorem RingRange.heaterHalfCycle x0 : RingRange.Statement (.heaterHalfCycle x0) := fun _ _ e => nomatch e
theorem RingRange.heaterGateEnd x0 : RingRange.Statement (.heaterGateEnd x0) := fun _ _ e => nomatch e
theorem RingRange.htrRearm x0 x1 : RingRange.Statement (.htrRearm x0 x1) := fun _ _ e => nomatch e
theorem RingRange.zcrossEdge : RingRange.Statement (.zcrossEdge) := fun _ _ e => nomatch e
theorem RingRange.mainsLost : RingRange.Statement (.mainsLost) := fun _ _ e => nomatch e
theorem RingRange.sensorRead x0 x1 : RingRange.Statement (.sensorRead x0 x1) := fun _ _ e => nomatch e
theorem RingRange.dieTrip x0 : RingRange.Statement (.dieTrip x0) := fun _ _ e => nomatch e
theorem RingRange.dieHoldRelease : RingRange.Statement (.dieHoldRelease) := fun _ _ e => nomatch e
theorem RingRange.htrHwtrip x0 x1 x2 : RingRange.Statement (.htrHwtrip x0 x1 x2) := fun _ _ e => nomatch e
theorem RingRange.fuserCmpRelease x0 x1 : RingRange.Statement (.fuserCmpRelease x0 x1) := fun _ _ e => nomatch e
theorem RingRange.coreDroop x0 : RingRange.Statement (.coreDroop x0) := fun _ _ e => nomatch e
theorem RingRange.droopRecover : RingRange.Statement (.droopRecover) := fun _ _ e => nomatch e
theorem RingRange.seqGo x0 : RingRange.Statement (.seqGo x0) := fun _ _ e => nomatch e
theorem RingRange.seqDown x0 : RingRange.Statement (.seqDown x0) := fun _ _ e => nomatch e
theorem RingRange.seqbellStageAdvance x0 : RingRange.Statement (.seqbellStageAdvance x0) := fun _ _ e => nomatch e
theorem RingRange.railGood x0 x1 : RingRange.Statement (.railGood x0 x1) := fun _ _ e => nomatch e
theorem RingRange.stageDwellEnd : RingRange.Statement (.stageDwellEnd) := fun _ _ e => nomatch e
theorem RingRange.railUpTimeout x0 : RingRange.Statement (.railUpTimeout x0) := fun _ _ e => nomatch e
theorem RingRange.railDownTimeout x0 : RingRange.Statement (.railDownTimeout x0) := fun _ _ e => nomatch e
theorem RingRange.railRunFault x0 x1 x2 : RingRange.Statement (.railRunFault x0 x1 x2) := fun _ _ e => nomatch e
theorem RingRange.inputFailure x0 x1 : RingRange.Statement (.inputFailure x0 x1) := fun _ _ e => nomatch e
theorem RingRange.externalEbb x0 : RingRange.Statement (.externalEbb x0) := fun _ _ e => nomatch e
theorem RingRange.tShutExpire : RingRange.Statement (.tShutExpire) := fun _ _ e => nomatch e
theorem RingRange.tOffMinExpire : RingRange.Statement (.tOffMinExpire) := fun _ _ e => nomatch e
theorem RingRange.pwrReq x0 x1 : RingRange.Statement (.pwrReq x0 x1) := fun _ _ e => nomatch e
theorem RingRange.slackDeclared : RingRange.Statement (.slackDeclared) := fun _ _ e => nomatch e
theorem RingRange.mooredEntry : RingRange.Statement (.mooredEntry) := fun _ _ e => nomatch e
theorem RingRange.mooredStopTimeout : RingRange.Statement (.mooredStopTimeout) := fun _ _ e => nomatch e
theorem RingRange.wake x0 x1 : RingRange.Statement (.wake x0 x1) := fun _ _ e => nomatch e
theorem RingRange.mooredExit : RingRange.Statement (.mooredExit) := fun _ _ e => nomatch e
theorem RingRange.fenlinkCycle x0 : RingRange.Statement (.fenlinkCycle x0) := fun _ _ e => nomatch e
theorem RingRange.fenlinkPoll x0 : RingRange.Statement (.fenlinkPoll x0) := fun _ _ e => nomatch e
theorem RingRange.reply x0 x1 : RingRange.Statement (.reply x0 x1) := fun _ _ e => nomatch e
theorem RingRange.replyMissed x0 x1 : RingRange.Statement (.replyMissed x0 x1) := fun _ _ e => nomatch e
theorem RingRange.hello x0 x1 : RingRange.Statement (.hello x0 x1) := fun _ _ e => nomatch e
theorem RingRange.nodeListLoad x0 x1 : RingRange.Statement (.nodeListLoad x0 x1) := fun h n e => by cases e; simpa [Instr.wf, isSq] using h
theorem RingRange.faultRaise x0 x1 x2 x3 x4 : RingRange.Statement (.faultRaise x0 x1 x2 x3 x4) := fun _ _ e => nomatch e
theorem RingRange.faultLatchClear x0 x1 : RingRange.Statement (.faultLatchClear x0 x1) := fun _ _ e => nomatch e
theorem RingRange.faultPairChange x0 x1 x2 x3 : RingRange.Statement (.faultPairChange x0 x1 x2 x3) := fun _ _ e => nomatch e
theorem RingRange.interlockChange x0 x1 x2 : RingRange.Statement (.interlockChange x0 x1 x2) := fun _ _ e => nomatch e
theorem RingRange.lanternToggle : RingRange.Statement (.lanternToggle) := fun _ _ e => nomatch e
theorem RingRange.ferryWd : RingRange.Statement (.ferryWd) := fun _ _ e => nomatch e
theorem RingRange.ferrymanReArm : RingRange.Statement (.ferrymanReArm) := fun _ _ e => nomatch e
theorem RingRange.lighterCopy x0 : RingRange.Statement (.lighterCopy x0) := fun h n e => by cases e; simpa [Instr.wf, isSq] using h
theorem RingRange.lighterTransferComplete x0 : RingRange.Statement (.lighterTransferComplete x0) := fun _ _ e => nomatch e
theorem RingRange.lighterReadFail x0 x1 : RingRange.Statement (.lighterReadFail x0 x1) := fun _ _ e => nomatch e
theorem RingRange.drainTimeout x0 : RingRange.Statement (.drainTimeout x0) := fun _ _ e => nomatch e
theorem RingRange.imageStage x0 x1 : RingRange.Statement (.imageStage x0 x1) := fun h n e => by cases e; simpa [Instr.wf, isSq] using h
theorem RingRange.imageSwitch x0 : RingRange.Statement (.imageSwitch x0) := fun h n e => by cases e; simpa [Instr.wf, isSq] using h
theorem RingRange.imageHandover : RingRange.Statement (.imageHandover) := fun _ _ e => nomatch e
theorem RingRange.imageSwitchTimeout : RingRange.Statement (.imageSwitchTimeout) := fun _ _ e => nomatch e
theorem RingRange.handoverArmTimeout : RingRange.Statement (.handoverArmTimeout) := fun _ _ e => nomatch e
theorem RingRange.flashWrite x0 x1 : RingRange.Statement (.flashWrite x0 x1) := fun h n e => by cases e; simpa [Instr.wf, isSq] using h
theorem RingRange.unitLayup x0 : RingRange.Statement (.unitLayup x0) := fun h n e => by cases e; simpa [Instr.wf, isSq] using h
theorem RingRange.layupApply x0 : RingRange.Statement (.layupApply x0) := fun _ _ e => nomatch e
theorem RingRange.laidUp x0 : RingRange.Statement (.laidUp x0) := fun _ _ e => nomatch e
theorem RingRange.layupTimeout x0 : RingRange.Statement (.layupTimeout x0) := fun _ _ e => nomatch e
theorem RingRange.unitReadmit x0 : RingRange.Statement (.unitReadmit x0) := fun h n e => by cases e; simpa [Instr.wf, isSq] using h
theorem RingRange.logbookWrite x0 x1 : RingRange.Statement (.logbookWrite x0 x1) := fun h n e => by cases e; simpa [Instr.wf, isSq] using h
theorem RingRange.crossingCounterWrite : RingRange.Statement (.crossingCounterWrite) := fun _ _ e => nomatch e
theorem RingRange.journalEntryWrite x0 x1 : RingRange.Statement (.journalEntryWrite x0 x1) := fun _ _ e => nomatch e
theorem RingRange.lbAddrWrite x0 x1 : RingRange.Statement (.lbAddrWrite x0 x1) := fun _ _ e => nomatch e
theorem RingRange.inputGood x0 : RingRange.Statement (.inputGood x0) := fun _ _ e => nomatch e
theorem RingRange.ebbNRelease : RingRange.Statement (.ebbNRelease) := fun _ _ e => nomatch e
theorem RingRange.seqbellGlitch : RingRange.Statement (.seqbellGlitch) := fun _ _ e => nomatch e
theorem RingRange.beamLinkTrainRetry x0 : RingRange.Statement (.beamLinkTrainRetry x0) := fun _ _ e => nomatch e
theorem RingRange.scanPllRetry x0 : RingRange.Statement (.scanPllRetry x0) := fun _ _ e => nomatch e
theorem RingRange.angleSearchRetry x0 : RingRange.Statement (.angleSearchRetry x0) := fun _ _ e => nomatch e
theorem RingRange.encSignalRestored x0 : RingRange.Statement (.encSignalRestored x0) := fun _ _ e => nomatch e
theorem RingRange.dfltRelease x0 : RingRange.Statement (.dfltRelease x0) := fun _ _ e => nomatch e
theorem RingRange.busReactionEnd x0 : RingRange.Statement (.busReactionEnd x0) := fun _ _ e => nomatch e
theorem RingRange.lighterReadComplete x0 x1 : RingRange.Statement (.lighterReadComplete x0 x1) := fun _ _ e => nomatch e

end Sys2Proof.Laws
end

