-- ==== Sys2Proof/Laws/Reacts.lean ====
section
/-! SUPPORT. What the shared operations can change: a completion, a record, a refused access and the whole reaction to a fault
touch no part of the state but those that `State.Reacts` names. -/

namespace Sys2Proof.Machine

set_option Elab.async false
set_option linter.unusedTactic false
set_option linter.unreachableTactic false

variable {s0 : State}

theorem State.Reacts.refl (s : State) : State.Reacts s s := rfl
@[simp] theorem reacts_ite {c : Prop} [Decidable c] {a b : State} (ha : State.Reacts s0 a) (hb : State.Reacts s0 b) : State.Reacts s0 (if c then a else b) := by
  split <;> assumption
@[simp] theorem reacts_foldl {β : Type} (f : State → β → State) (l : List β) {s : State} (hf : ∀ s b, State.Reacts s0 s → State.Reacts s0 (f s b)) (h : State.Reacts s0 s) :
    State.Reacts s0 (l.foldl f s) := by
  induction l generalizing s with
  | nil => exact h
  | cons b l ih => exact ih (hf s b h)

@[simp] theorem reacts_regs (v : Tbl Nat) {t : State} (h : State.Reacts s0 t) : State.Reacts s0 { t with regs := v } := by
  have e := congrArg (fun x : State => { x with regs := v }) (id h : t = _)
  exact e
@[simp] theorem reacts_quay (v : Tbl Nat) {t : State} (h : State.Reacts s0 t) : State.Reacts s0 { t with quay := v } := by
  have e := congrArg (fun x : State => { x with quay := v }) (id h : t = _)
  exact e
@[simp] theorem reacts_live (v : Tbl Nat) {t : State} (h : State.Reacts s0 t) : State.Reacts s0 { t with live := v } := by
  have e := congrArg (fun x : State => { x with live := v }) (id h : t = _)
  exact e
@[simp] theorem reacts_pf0 (v : PfSt) {t : State} (h : State.Reacts s0 t) : State.Reacts s0 { t with pf0 := v } := by
  have e := congrArg (fun x : State => { x with pf0 := v }) (id h : t = _)
  exact e
@[simp] theorem reacts_pf1 (v : PfSt) {t : State} (h : State.Reacts s0 t) : State.Reacts s0 { t with pf1 := v } := by
  have e := congrArg (fun x : State => { x with pf1 := v }) (id h : t = _)
  exact e
@[simp] theorem reacts_sq (v : Tbl SqSt) {t : State} (h : State.Reacts s0 t) : State.Reacts s0 { t with sq := v } := by
  have e := congrArg (fun x : State => { x with sq := v }) (id h : t = _)
  exact e
@[simp] theorem reacts_eq (v : Tbl EqSt) {t : State} (h : State.Reacts s0 t) : State.Reacts s0 { t with eq := v } := by
  have e := congrArg (fun x : State => { x with eq := v }) (id h : t = _)
  exact e
@[simp] theorem reacts_holdover (v : List (Nat × Rec)) {t : State} (h : State.Reacts s0 t) : State.Reacts s0 { t with holdover := v } := by
  have e := congrArg (fun x : State => { x with holdover := v }) (id h : t = _)
  exact e
@[simp] theorem reacts_commits (v : List Commit) {t : State} (h : State.Reacts s0 t) : State.Reacts s0 { t with commits := v } := by
  have e := congrArg (fun x : State => { x with commits := v }) (id h : t = _)
  exact e
@[simp] theorem reacts_out (v : List Out) {t : State} (h : State.Reacts s0 t) : State.Reacts s0 { t with out := v } := by
  have e := congrArg (fun x : State => { x with out := v }) (id h : t = _)
  exact e
@[simp] theorem reacts_free (v : Nat) {t : State} (h : State.Reacts s0 t) : State.Reacts s0 { t with free := v } := by
  have e := congrArg (fun x : State => { x with free := v }) (id h : t = _)
  exact e
@[simp] theorem reacts_lbDue (v : List Nat) {t : State} (h : State.Reacts s0 t) : State.Reacts s0 { t with lbDue := v } := by
  have e := congrArg (fun x : State => { x with lbDue := v }) (id h : t = _)
  exact e
@[simp] theorem reacts_causes (v : Tbl Bool) {t : State} (h : State.Reacts s0 t) : State.Reacts s0 { t with causes := v } := by
  have e := congrArg (fun x : State => { x with causes := v }) (id h : t = _)
  exact e
@[simp] theorem reacts_lastRec (v : Tbl (Option (Nat × Nat))) {t : State} (h : State.Reacts s0 t) : State.Reacts s0 { t with lastRec := v } := by
  have e := congrArg (fun x : State => { x with lastRec := v }) (id h : t = _)
  exact e
@[simp] theorem reacts_boomed (v : Tbl Bool) {t : State} (h : State.Reacts s0 t) : State.Reacts s0 { t with boomed := v } := by
  have e := congrArg (fun x : State => { x with boomed := v }) (id h : t = _)
  exact e
@[simp] theorem reacts_abCauses (v : Nat) {t : State} (h : State.Reacts s0 t) : State.Reacts s0 { t with abCauses := v } := by
  have e := congrArg (fun x : State => { x with abCauses := v }) (id h : t = _)
  exact e
@[simp] theorem reacts_stn (v : Tbl Stn) {t : State} (h : State.Reacts s0 t) : State.Reacts s0 { t with stn := v } := by
  have e := congrArg (fun x : State => { x with stn := v }) (id h : t = _)
  exact e
@[simp] theorem reacts_fnode (v : Tbl FNode) {t : State} (h : State.Reacts s0 t) : State.Reacts s0 { t with fnode := v } := by
  have e := congrArg (fun x : State => { x with fnode := v }) (id h : t = _)
  exact e
@[simp] theorem reacts_drv (v : Tbl Drv) {t : State} (h : State.Reacts s0 t) : State.Reacts s0 { t with drv := v } := by
  have e := congrArg (fun x : State => { x with drv := v }) (id h : t = _)
  exact e
@[simp] theorem reacts_mot (v : Tbl Mot) {t : State} (h : State.Reacts s0 t) : State.Reacts s0 { t with mot := v } := by
  have e := congrArg (fun x : State => { x with mot := v }) (id h : t = _)
  exact e
@[simp] theorem reacts_stopWaits (v : List StopWait) {t : State} (h : State.Reacts s0 t) : State.Reacts s0 { t with stopWaits := v } := by
  have e := congrArg (fun x : State => { x with stopWaits := v }) (id h : t = _)
  exact e
@[simp] theorem reacts_stp (v : Tbl Stp) {t : State} (h : State.Reacts s0 t) : State.Reacts s0 { t with stp := v } := by
  have e := congrArg (fun x : State => { x with stp := v }) (id h : t = _)
  exact e
@[simp] theorem reacts_hv (v : Tbl Hv) {t : State} (h : State.Reacts s0 t) : State.Reacts s0 { t with hv := v } := by
  have e := congrArg (fun x : State => { x with hv := v }) (id h : t = _)
  exact e
@[simp] theorem reacts_htr (v : Tbl Htr) {t : State} (h : State.Reacts s0 t) : State.Reacts s0 { t with htr := v } := by
  have e := congrArg (fun x : State => { x with htr := v }) (id h : t = _)
  exact e
@[simp] theorem reacts_loop (v : Tbl Loop) {t : State} (h : State.Reacts s0 t) : State.Reacts s0 { t with loop := v } := by
  have e := congrArg (fun x : State => { x with loop := v }) (id h : t = _)
  exact e
@[simp] theorem reacts_bl (v : Tbl Bl) {t : State} (h : State.Reacts s0 t) : State.Reacts s0 { t with bl := v } := by
  have e := congrArg (fun x : State => { x with bl := v }) (id h : t = _)
  exact e
@[simp] theorem reacts_raisedAt (v : Tbl Nat) {t : State} (h : State.Reacts s0 t) : State.Reacts s0 { t with raisedAt := v } := by
  have e := congrArg (fun x : State => { x with raisedAt := v }) (id h : t = _)
  exact e
@[simp] theorem reacts_live_quay (v w : Tbl Nat) {t : State} (h : State.Reacts s0 t) : State.Reacts s0 { t with live := v, quay := w } :=
  reacts_live v (reacts_quay w h)

@[simp] theorem State.wr_reacts {s : State} (f : Fld) (v : ℕ) (i : ℕ) (j : ℕ) (h : State.Reacts s0 s) : State.Reacts s0 (State.wr s f v i j) := reacts_regs _ h

@[simp] theorem State.wb_reacts {s : State} (f : Fld) (b : Bool) (i : ℕ) (j : ℕ) (h : State.Reacts s0 s) : State.Reacts s0 (State.wb s f b i j) := by simp +contextual (maxDischargeDepth := 200) [State.wb, *]

@[simp] theorem State.cnt_reacts {s : State} (f : Fld) (i : ℕ) (j : ℕ) (n : ℕ) (h : State.Reacts s0 s) : State.Reacts s0 (State.cnt s f i j n) := by simp +contextual (maxDischargeDepth := 200) [State.cnt, *]

@[simp] theorem State.wrI_reacts {s : State} (f : Fld) (v : ℤ) (i : ℕ) (j : ℕ) (h : State.Reacts s0 s) : State.Reacts s0 (State.wrI s f v i j) := by simp +contextual (maxDischargeDepth := 200) [State.wrI, *]

@[simp] theorem State.takeFree_reacts {s : State} (m : ℕ) (h : State.Reacts s0 s) : State.Reacts s0 (State.takeFree s m).2 := by simp +contextual (maxDischargeDepth := 200) [State.takeFree, *]

@[simp] theorem State.emit_reacts {s : State} (o0 : Out) (h : State.Reacts s0 s) : State.Reacts s0 (State.emit s o0) := reacts_out _ h

@[simp] theorem State.setPf_reacts {s : State} (p : ℕ) (f : PfSt) (h : State.Reacts s0 s) : State.Reacts s0 (State.setPf s p f) := by simp +contextual (maxDischargeDepth := 200) [State.setPf, *]

@[simp] theorem State.emitReads_reacts {s : State} (p : ℕ) (addr : ℕ) (len : ℕ) (h : State.Reacts s0 s) : State.Reacts s0 (State.emitReads s p addr len) := by simp +contextual (maxDischargeDepth := 200) [State.emitReads, *]

@[simp] theorem State.setSq_reacts {s : State} (n : ℕ) (q0 : SqSt) (h : State.Reacts s0 s) : State.Reacts s0 (State.setSq s n q0) := reacts_sq _ h

@[simp] theorem State.setEq_reacts {s : State} (n : ℕ) (q0 : EqSt) (h : State.Reacts s0 s) (hq : q0.share.length ≤ 256) : State.Reacts s0 (State.setEq s n q0) := reacts_eq _ h

@[simp] theorem State.setBoomed_reacts {s : State} (u : ℕ) (b : Bool) (h : State.Reacts s0 s) : State.Reacts s0 (State.setBoomed s u b) := by simp +contextual (maxDischargeDepth := 200) [State.setBoomed, *]

@[simp] theorem State.signal_reacts {s : State} (p : ℕ) (v : ℕ) (h : State.Reacts s0 s) : State.Reacts s0 (State.signal s p v) := by simp +contextual (maxDischargeDepth := 200) [State.signal, *]

@[simp] theorem State.produce_reacts {s : State} (n : ℕ) (r : Rec) (h : State.Reacts s0 s) : State.Reacts s0 (State.produce s n r) := by
  unfold State.produce
  dsimp only
  split
  · exact reacts_holdover _ h
  · split
    · exact reacts_eq _ h
    · have h' := State.cnt_reacts Reg.EQ_STAT_LOST n 0 1 (reacts_eq (tput EqSt.init s.eq n { s.eqs n with owed := (s.eqs n).owed + 1 }) h)
      split
      · exact State.cnt_reacts _ _ _ _ h'
      · exact h'


@[simp] theorem State.complete_reacts {s : State} (j : Job) (status : ℕ) (data : ℕ) (h : State.Reacts s0 s) : State.Reacts s0 (State.complete s j status data) := by simp +contextual (maxDischargeDepth := 200) [State.complete, *]

@[simp] theorem State.signalAfter_reacts {s : State} (n : ℕ) (p : ℕ) (v : ℕ) (h : State.Reacts s0 s) : State.Reacts s0 (State.signalAfter s n p v) := by
  unfold State.signalAfter
  dsimp only
  split <;> simp (maxDischargeDepth := 200) [State.setEq, h]

@[simp] theorem State.sigStep_reacts {s : State} (n : ℕ) (h : State.Reacts s0 s) : State.Reacts s0 (State.sigStep s n) := by
  exact reacts_foldl _ _ (fun s b h => by simp [h]) (reacts_eq _ h)

theorem State.start_reacts {s : State} (n : ℕ) (opc : ℕ) (h : State.Reacts s0 s) {j : Job} {u : State} (e : s.start n opc = some (j, u)) :
    State.Reacts s0 u := by
  unfold State.start at e
  dsimp only at e
  split at e
  · cases e
  · split at e
    · cases e
      simp [h]
    · cases e

@[simp] theorem State.withDesc_reacts {s : State} (n : ℕ) (opc : ℕ) (k : Job → State → State) (h_k : ∀ y0 y1, State.Reacts s0 y1 → State.Reacts s0 (k y0 y1)) (h : State.Reacts s0 s) : State.Reacts s0 (State.withDesc s n opc k) := by
  unfold State.withDesc
  split
  · exact h
  · rename_i e
    exact h_k _ _ (State.start_reacts n opc h e)

@[simp] theorem State.staged_reacts {s : State} (base : ℕ) (k : State → State) (h_k : ∀ y0, State.Reacts s0 y0 → State.Reacts s0 (k y0)) (h : State.Reacts s0 s) : State.Reacts s0 (State.staged s base k) := by simp +contextual (maxDischargeDepth := 200) [State.staged, *]

@[simp] theorem State.qset_reacts {s : State} (f : Fld) (v : ℕ) (i : ℕ) (j : ℕ) (h : State.Reacts s0 s) : State.Reacts s0 (State.qset s f v i j) := by
  unfold State.qset
  exact reacts_commits _ (State.wr_reacts _ _ _ _ (reacts_quay _ h))

@[simp] theorem State.setDrv_reacts {s : State} (n : ℕ) (d : Drv) (h : State.Reacts s0 s) : State.Reacts s0 (State.setDrv s n d) := by simp +contextual (maxDischargeDepth := 200) [State.setDrv, *]

@[simp] theorem State.setMot_reacts {s : State} (m : ℕ) (x : Mot) (h : State.Reacts s0 s) : State.Reacts s0 (State.setMot s m x) := by simp +contextual (maxDischargeDepth := 200) [State.setMot, *]

@[simp] theorem State.setStp_reacts {s : State} (k : ℕ) (x : Stp) (h : State.Reacts s0 s) : State.Reacts s0 (State.setStp s k x) := by simp +contextual (maxDischargeDepth := 200) [State.setStp, *]

@[simp] theorem State.takeThr_reacts {s : State} (u : ℕ) (h : State.Reacts s0 s) : State.Reacts s0 (State.takeThr s u) := by simp +contextual (maxDischargeDepth := 200) [State.takeThr, *]

@[simp] theorem State.motComplete_reacts {s : State} (m : ℕ) (reason : ℕ) (h : State.Reacts s0 s) : State.Reacts s0 (State.motComplete s m reason) := by unfold State.motComplete; (try dsimp only); split <;> simp +contextual (maxDischargeDepth := 200) [*]

@[simp] theorem State.checkStops_reacts {s : State} (h : State.Reacts s0 s) : State.Reacts s0 (State.checkStops s) := by simp +contextual (maxDischargeDepth := 200) [State.checkStops, *]

@[simp] theorem State.motIdle_reacts {s : State} (m : ℕ) (reason : ℕ) (h : State.Reacts s0 s) : State.Reacts s0 (State.motIdle s m reason) := by simp +contextual (maxDischargeDepth := 200) [State.motIdle, *]

@[simp] theorem State.motHalt_reacts {s : State} (m : ℕ) (reason : ℕ) (h : State.Reacts s0 s) : State.Reacts s0 (State.motHalt s m reason) := by simp +contextual (maxDischargeDepth := 200) [State.motHalt, *]

@[simp] theorem State.motStopping_reacts {s : State} (m : ℕ) (reason : ℕ) (h : State.Reacts s0 s) : State.Reacts s0 (State.motStopping s m reason) := by simp +contextual (maxDischargeDepth := 200) [State.motStopping, *]

@[simp] theorem State.drvOff_reacts {s : State} (n : ℕ) (h : State.Reacts s0 s) : State.Reacts s0 (State.drvOff s n) := by simp +contextual (maxDischargeDepth := 200) [State.drvOff, *]

@[simp] theorem State.drvHalt_reacts {s : State} (n : ℕ) (off : Bool) (h : State.Reacts s0 s) : State.Reacts s0 (State.drvHalt s n off) := by simp +contextual (maxDischargeDepth := 200) [State.drvHalt, *]

@[simp] theorem State.drvTrip_reacts {s : State} (n : ℕ) (src : ℕ) (h : State.Reacts s0 s) : State.Reacts s0 (State.drvTrip s n src) := by simp +contextual (maxDischargeDepth := 200) [State.drvTrip, *]

@[simp] theorem State.motStop_reacts {s : State} (m : ℕ) (reason : ℕ) (h : State.Reacts s0 s) : State.Reacts s0 (State.motStop s m reason) := by simp +contextual (maxDischargeDepth := 200) [State.motStop, *]

@[simp] theorem State.motStopNow_reacts {s : State} (m : ℕ) (reason : ℕ) (h : State.Reacts s0 s) : State.Reacts s0 (State.motStopNow s m reason) := by simp +contextual (maxDischargeDepth := 200) [State.motStopNow, *]

@[simp] theorem State.stpOff_reacts {s : State} (k : ℕ) (h : State.Reacts s0 s) : State.Reacts s0 (State.stpOff s k) := by simp +contextual (maxDischargeDepth := 200) [State.stpOff, *]

@[simp] theorem State.stpHalt_reacts {s : State} (k : ℕ) (reason : ℕ) (h : State.Reacts s0 s) : State.Reacts s0 (State.stpHalt s k reason) := by simp +contextual (maxDischargeDepth := 200) [State.stpHalt, *]

@[simp] theorem State.stpTrip_reacts {s : State} (k : ℕ) (src : ℕ) (h : State.Reacts s0 s) : State.Reacts s0 (State.stpTrip s k src) := by simp +contextual (maxDischargeDepth := 200) [State.stpTrip, *]

@[simp] theorem State.setStn_reacts {s : State} (n : ℕ) (x : Stn) (h : State.Reacts s0 s) : State.Reacts s0 (State.setStn s n x) := by simp +contextual (maxDischargeDepth := 200) [State.setStn, *]

@[simp] theorem State.setBl_reacts {s : State} (n : ℕ) (x : Bl) (h : State.Reacts s0 s) : State.Reacts s0 (State.setBl s n x) := by simp +contextual (maxDischargeDepth := 200) [State.setBl, *]

@[simp] theorem State.baseLost_reacts {s : State} (n : ℕ) (h : State.Reacts s0 s) : State.Reacts s0 (State.baseLost s n) := by simp +contextual (maxDischargeDepth := 200) [State.baseLost, *]

@[simp] theorem State.stnStop_reacts {s : State} (n : ℕ) (cause : ℕ) (h : State.Reacts s0 s) : State.Reacts s0 (State.stnStop s n cause) := by simp +contextual (maxDischargeDepth := 200) [State.stnStop, *]

@[simp] theorem State.setHv_reacts {s : State} (h0 : ℕ) (x : Hv) (h : State.Reacts s0 s) : State.Reacts s0 (State.setHv s h0 x) := by simp +contextual (maxDischargeDepth := 200) [State.setHv, *]

@[simp] theorem State.setHst_reacts {s : State} (h0 : ℕ) (st : ℕ) (h : State.Reacts s0 s) : State.Reacts s0 (State.setHst s h0 st) := by simp +contextual (maxDischargeDepth := 200) [State.setHst, *]

@[simp] theorem State.hvOff_reacts {s : State} (h0 : ℕ) (h : State.Reacts s0 s) : State.Reacts s0 (State.hvOff s h0) := by simp +contextual (maxDischargeDepth := 200) [State.hvOff, *]

@[simp] theorem State.hvTrip_reacts {s : State} (h0 : ℕ) (src : ℕ) (h : State.Reacts s0 s) : State.Reacts s0 (State.hvTrip s h0 src) := by simp +contextual (maxDischargeDepth := 200) [State.hvTrip, *]

@[simp] theorem State.hvRest_reacts {s : State} (h0 : ℕ) (h : State.Reacts s0 s) : State.Reacts s0 (State.hvRest s h0) := by simp +contextual (maxDischargeDepth := 200) [State.hvRest, *]

@[simp] theorem State.hvZero_reacts {s : State} (h0 : ℕ) (h : State.Reacts s0 s) : State.Reacts s0 (State.hvZero s h0) := by simp +contextual (maxDischargeDepth := 200) [State.hvZero, *]

@[simp] theorem State.hvLeave_reacts {s : State} (h0 : ℕ) (h : State.Reacts s0 s) : State.Reacts s0 (State.hvLeave s h0) := by simp +contextual (maxDischargeDepth := 200) [State.hvLeave, *]

@[simp] theorem State.hvStart_reacts {s : State} (h0 : ℕ) (h : State.Reacts s0 s) : State.Reacts s0 (State.hvStart s h0) := by simp +contextual (maxDischargeDepth := 200) [State.hvStart, *]

@[simp] theorem State.hvClear_reacts {s : State} (h0 : ℕ) (src : ℕ) (h : State.Reacts s0 s) : State.Reacts s0 (State.hvClear s h0 src) := by simp +contextual (maxDischargeDepth := 200) [State.hvClear, *]

@[simp] theorem State.setHtr_reacts {s : State} (k : ℕ) (x : Htr) (h : State.Reacts s0 s) : State.Reacts s0 (State.setHtr s k x) := by simp +contextual (maxDischargeDepth := 200) [State.setHtr, *]

@[simp] theorem State.htrQuiet_reacts {s : State} (k : ℕ) (h : State.Reacts s0 s) : State.Reacts s0 (State.htrQuiet s k) := by simp +contextual (maxDischargeDepth := 200) [State.htrQuiet, *]

@[simp] theorem State.htrOff_reacts {s : State} (k : ℕ) (h : State.Reacts s0 s) : State.Reacts s0 (State.htrOff s k) := by simp +contextual (maxDischargeDepth := 200) [State.htrOff, *]

@[simp] theorem State.htrDown_reacts {s : State} (k : ℕ) (h : State.Reacts s0 s) : State.Reacts s0 (State.htrDown s k) := by simp +contextual (maxDischargeDepth := 200) [State.htrDown, *]

@[simp] theorem State.htrTrip_reacts {s : State} (k : ℕ) (src : ℕ) (h : State.Reacts s0 s) : State.Reacts s0 (State.htrTrip s k src) := by simp +contextual (maxDischargeDepth := 200) [State.htrTrip, *]

@[simp] theorem State.htrStart_reacts {s : State} (k : ℕ) (h : State.Reacts s0 s) : State.Reacts s0 (State.htrStart s k) := by simp +contextual (maxDischargeDepth := 200) [State.htrStart, *]

@[simp] theorem State.htrClear_reacts {s : State} (k : ℕ) (src : ℕ) (h : State.Reacts s0 s) : State.Reacts s0 (State.htrClear s k src) := by simp +contextual (maxDischargeDepth := 200) [State.htrClear, *]

@[simp] theorem State.setCause_reacts {s : State} (src : ℕ) (unit : ℕ) (on : Bool) (inst : ℕ) (h : State.Reacts s0 s) : State.Reacts s0 (State.setCause s src unit on inst) := by simp +contextual (maxDischargeDepth := 200) [State.setCause, *]

@[simp] theorem State.faultRecord_reacts {s : State} (src : ℕ) (unit : ℕ) (inst : ℕ) (info : ℕ) (h : State.Reacts s0 s) : State.Reacts s0 (State.faultRecord s src unit inst info) := by unfold State.faultRecord; (try dsimp only); split <;> simp +contextual (maxDischargeDepth := 200) [*]

@[simp] theorem State.powerRec_reacts {s : State} (kind : ℕ) (status : ℕ) (data : ℕ) (h : State.Reacts s0 s) : State.Reacts s0 (State.powerRec s kind status data) := by simp +contextual (maxDischargeDepth := 200) [State.powerRec, *]

@[simp] theorem State.collect_reacts {s : State} (src : ℕ) (unit : ℕ) (inst : ℕ) (info : ℕ) (h : State.Reacts s0 s) : State.Reacts s0 (State.collect s src unit inst info) := by
  unfold State.collect; (try dsimp only)
  repeat' first
    | with_reducible assumption
    | (simp +contextual (maxDischargeDepth := 200) [*]; done)
    | split
    | (with_reducible apply reacts_foldl; intro _ _ _)
    | (with_reducible apply reacts_ite)
    | with_reducible apply State.faultRecord_reacts
    | with_reducible apply State.raise_reacts
    | with_reducible apply State.signal_reacts
    | with_reducible apply State.wr_reacts
    | with_reducible apply reacts_lbDue
    | with_reducible apply reacts_raisedAt
    | with_reducible apply reacts_abCauses

@[simp] theorem State.setLoop_reacts {s : State} (l : ℕ) (x : Loop) (h : State.Reacts s0 s) : State.Reacts s0 (State.setLoop s l x) := by simp +contextual (maxDischargeDepth := 200) [State.setLoop, *]

@[simp] theorem State.capRefresh_reacts {s : State} (c : ℕ) (h : State.Reacts s0 s) : State.Reacts s0 (State.capRefresh s c) := by simp +contextual (maxDischargeDepth := 200) [State.capRefresh, *]

@[simp] theorem State.giveTally_reacts {s : State} (c : ℕ) (h : State.Reacts s0 s) : State.Reacts s0 (State.giveTally s c) := by simp +contextual (maxDischargeDepth := 200) [State.giveTally, *]

@[simp] theorem State.capReport_reacts {s : State} (c : ℕ) (kind : ℕ) (status : ℕ) (data : ℕ) (h : State.Reacts s0 s) : State.Reacts s0 (State.capReport s c kind status data) := by simp +contextual (maxDischargeDepth := 200) [State.capReport, *]

@[simp] theorem State.orphan_reacts {s : State} (l : ℕ) (h : State.Reacts s0 s) : State.Reacts s0 (State.orphan s l) := by simp +contextual (maxDischargeDepth := 200) [State.orphan, *]

@[simp] theorem State.migrateTo_reacts {s : State} (c : ℕ) (r : ℕ) (layup : Bool) (byBeats : Bool) (h : State.Reacts s0 s) : State.Reacts s0 (State.migrateTo s c r layup byBeats) := by simp +contextual (maxDischargeDepth := 200) [State.migrateTo, *]

@[simp] theorem State.migrate_reacts {s : State} (c : ℕ) (byBeats : Bool) (h : State.Reacts s0 s) : State.Reacts s0 (State.migrate s c byBeats) := by
  unfold State.migrate; (try dsimp only)
  repeat' first
    | with_reducible assumption
    | (simp +contextual (maxDischargeDepth := 200) [*]; done)
    | split
    | (with_reducible apply reacts_foldl; intro _ _ _)
    | (with_reducible apply reacts_ite)
    | with_reducible apply State.capRefresh_reacts
    | with_reducible apply State.capReport_reacts
    | with_reducible apply State.collect_reacts
    | with_reducible apply State.migrateTo_reacts
    | with_reducible apply State.orphan_reacts

@[simp] theorem State.commitDone_reacts {s : State} (j : Job) (us : ℕ) (status : ℕ) (data : ℕ) (h : State.Reacts s0 s) : State.Reacts s0 (State.commitDone s j us status data) := by simp +contextual (maxDischargeDepth := 200) [State.commitDone, *]

@[simp] theorem State.endCommit_reacts {s : State} (c : Commit) (status : ℕ) (data : ℕ) (h : State.Reacts s0 s) : State.Reacts s0 (State.endCommit s c status data) := by
  unfold State.endCommit
  dsimp only
  generalize hs : (if status = St.ok then s else _) = s'
  have h' : State.Reacts s0 s' := by subst hs; simp +contextual (maxDischargeDepth := 200) [*]
  exact State.commitDone_reacts _ _ _ _ (reacts_commits _ h')

@[simp] theorem State.fenceCommits_reacts {s : State} (u : ℕ) (h : State.Reacts s0 s) : State.Reacts s0 (State.fenceCommits s u) := by simp +contextual (maxDischargeDepth := 200) [State.fenceCommits, *]

@[simp] theorem State.boomOutputs_reacts {s : State} (u : ℕ) (h : State.Reacts s0 s) : State.Reacts s0 (State.boomOutputs s u) := by simp +contextual (maxDischargeDepth := 200) [State.boomOutputs, *]

@[simp] theorem State.boom_reacts {s : State} (u : ℕ) (h : State.Reacts s0 s) : State.Reacts s0 (State.boom s u) := by simp +contextual (maxDischargeDepth := 200) [State.boom, *]

@[simp] theorem State.setFnode_reacts {s : State} (p : ℕ) (a : ℕ) (x : FNode) (h : State.Reacts s0 s) : State.Reacts s0 (State.setFnode s p a x) := by simp +contextual (maxDischargeDepth := 200) [State.setFnode, *]

@[simp] theorem State.flRec_reacts {s : State} (p : ℕ) (a : ℕ) (kind : ℕ) (status : ℕ) (data : ℕ) (h : State.Reacts s0 s) : State.Reacts s0 (State.flRec s p a kind status data) := by simp +contextual (maxDischargeDepth := 200) [State.flRec, *]

@[simp] theorem State.flRetire_reacts {s : State} (p : ℕ) (a : ℕ) (h : State.Reacts s0 s) : State.Reacts s0 (State.flRetire s p a) := by simp +contextual (maxDischargeDepth := 200) [State.flRetire, *]

@[simp] theorem State.boomNode_reacts {s : State} (port : ℕ) (node : ℕ) (h : State.Reacts s0 s) : State.Reacts s0 (State.boomNode s port node) := by simp +contextual (maxDischargeDepth := 200) [State.boomNode, *]

@[simp] theorem State.lenFall_reacts {s : State} (n : ℕ) (h : State.Reacts s0 s) : State.Reacts s0 (State.lenFall s n) := by simp +contextual (maxDischargeDepth := 200) [State.lenFall, *]

@[simp] theorem State.lenOne_reacts {s : State} (n : ℕ) (h : State.Reacts s0 s) : State.Reacts s0 (State.lenOne s n) := by simp +contextual (maxDischargeDepth := 200) [State.lenOne, *]

@[simp] theorem State.lensUpdate_reacts {s : State} (h : State.Reacts s0 s) : State.Reacts s0 (State.lensUpdate s) := by simp +contextual (maxDischargeDepth := 200) [State.lensUpdate, *]

@[simp] theorem State.lenUpdate_reacts {s : State} (n : ℕ) (h : State.Reacts s0 s) : State.Reacts s0 (State.lenUpdate s n) := by simp +contextual (maxDischargeDepth := 200) [State.lenUpdate, *]

@[simp] theorem State.tripsClear_reacts {s : State} (src : ℕ) (h : State.Reacts s0 s) : State.Reacts s0 (State.tripsClear s src) := by simp +contextual (maxDischargeDepth := 200) [State.tripsClear, *]

@[simp] theorem State.faultStop_reacts {s : State} (src : ℕ) (unit : ℕ) (h : State.Reacts s0 s) : State.Reacts s0 (State.faultStop s src unit) := by simp +contextual (maxDischargeDepth := 200) [State.faultStop, *]

@[simp] theorem State.raise_reacts {s : State} (src : ℕ) (unit : ℕ) (inst : ℕ) (info : ℕ) (h : State.Reacts s0 s) : State.Reacts s0 (State.raise s src unit inst info) := by simp +contextual (maxDischargeDepth := 200) [State.raise, *]

@[simp] theorem State.raiseLive_reacts {s : State} (src : ℕ) (unit : ℕ) (inst : ℕ) (info : ℕ) (h : State.Reacts s0 s) : State.Reacts s0 (State.raiseLive s src unit inst info) := by simp +contextual (maxDischargeDepth := 200) [State.raiseLive, *]

@[simp] theorem State.lockViol_reacts {s : State} (off : ℕ) (src : ℕ) (h : State.Reacts s0 s) : State.Reacts s0 (State.lockViol s off src) := by simp +contextual (maxDischargeDepth := 200) [State.lockViol, *]

@[simp] theorem State.pfViol_reacts {s : State} (off : ℕ) (bar : ℕ) (pf : ℕ) (write : Bool) (h : State.Reacts s0 s) : State.Reacts s0 (State.pfViol s off bar pf write) := by simp +contextual (maxDischargeDepth := 200) [State.pfViol, *]

@[simp] theorem State.access_reacts {s : State} (src : Port) (off : ℕ) (write : Bool) (k : State → State) (h_k : ∀ y0, State.Reacts s0 y0 → State.Reacts s0 (k y0)) (h : State.Reacts s0 s) : State.Reacts s0 (State.access s src off write k) := by
  unfold State.access; (try dsimp only)
  repeat' first
    | with_reducible assumption
    | (simp +contextual (maxDischargeDepth := 200) [*]; done)
    | split
    | (with_reducible apply reacts_foldl; intro _ _ _)
    | (with_reducible apply reacts_ite)
    | with_reducible apply State.pfViol_reacts
    | with_reducible apply State.wr_reacts

end Sys2Proof.Machine
end

