-- ==== Sys2Proof/Laws/State.lean ====
section
/-! SUPPORT. The fields and readings of the state after each primitive update: a write of a register or of one entry of a store
changes that one field, and a read of it gives what was written. -/

namespace Sys2Proof.Machine

set_option Elab.async false
set_option linter.unusedTactic false
set_option linter.unreachableTactic false

variable (s : State)

/-! ### Registers -/

@[simp] theorem State.rd_wr_self (f : Fld) (v i j : Nat) : (s.wr f v i j).rd f i j = v % 2 ^ f.width := tget_tput_self ..
/-- A write leaves every other key alone, whatever it reads as where unlisted. -/
theorem tget_tput_default {α : Type} [DecidableEq α] (d e : α) (t : Tbl α) {i j : Nat} (v : α) (h : j ≠ i) :
    tget d (tput e t i v) j = tget d t j := by
  unfold tput
  split
  · exact tget_tdel_other d t h
  · rw [tget_tins_other d _ v h, tget_tdel_other d t h]
theorem State.rd_wr_other (f g : Fld) (v i j k l : Nat) (h : f.key i j ≠ g.key k l) : (s.wr g v k l).rd f i j = s.rd f i j :=
  tget_tput_default _ _ _ _ h
@[simp] theorem State.on_wb_self (f : Fld) (b : Bool) (i j : Nat) (h : f.width = 1) : (s.wb f b i j).on f i j = b := by
  cases b <;> simp [State.on, State.wb, h]
theorem State.on_wb_other (f g : Fld) (b : Bool) (i j k l : Nat) (h : f.key i j ≠ g.key k l) : (s.wb g b k l).on f i j = s.on f i j := by
  simp only [State.on, State.wb, State.rd_wr_other s f g _ i j k l h]
/-- Two writes of one register: the second stands. -/
theorem State.rd_cnt_self (f : Fld) (i j n : Nat) : (s.cnt f i j n).rd f i j = satAdd f.width (s.rd f i j) n := by
  rw [State.cnt, State.rd_wr_self, Nat.mod_eq_of_lt]
  have := Nat.two_pow_pos f.width
  unfold satAdd
  omega
/-- Fields whose lowest bits differ within a 64-bit stride are never the same register. -/
theorem Fld.key_ne {f g : Fld} (i j k l : Nat) (hf : f.bit j < 64) (hg : g.bit l < 64) (h : f.bit j ≠ g.bit l) :
    f.key i j ≠ g.key k l := by
  unfold Fld.key
  omega
/-- Fields at different offsets are never the same register. -/
theorem Fld.key_ne_addr {f g : Fld} (i j k l : Nat) (hf : f.bit j < 64) (hg : g.bit l < 64) (h : f.addr i j ≠ g.addr k l) :
    f.key i j ≠ g.key k l := by
  unfold Fld.key
  omega

/-! ### Other updates -/
@[simp] theorem State.wr_fields1 (f : Fld) (v i j : Nat) :
    (s.wr f v i j).pending = s.pending ∧ (s.wr f v i j).now = s.now ∧ (s.wr f v i j).free = s.free ∧
    (s.wr f v i j).out = s.out ∧ (s.wr f v i j).edgeRegs = s.edgeRegs ∧ (s.wr f v i j).edgeSw = s.edgeSw ∧
    (s.wr f v i j).quay = s.quay ∧ (s.wr f v i j).live = s.live ∧ (s.wr f v i j).wlDone = s.wlDone ∧
    (s.wr f v i j).post = s.post ∧ (s.wr f v i j).lowLatch = s.lowLatch ∧ (s.wr f v i j).cfg = s.cfg ∧
    (s.wr f v i j).msixTab = s.msixTab ∧ (s.wr f v i j).pf0 = s.pf0 ∧ (s.wr f v i j).pf1 = s.pf1 ∧
    (s.wr f v i j).sq = s.sq ∧ (s.wr f v i j).eq = s.eq ∧ (s.wr f v i j).rrSq = s.rrSq ∧
    (s.wr f v i j).holdover = s.holdover ∧ (s.wr f v i j).chartSeq = s.chartSeq ∧ (s.wr f v i j).chartWant = s.chartWant ∧
    (s.wr f v i j).chartMs = s.chartMs ∧ (s.wr f v i j).commits = s.commits ∧ (s.wr f v i j).boot = s.boot := by
  refine ⟨?_, ?_, ?_, ?_, ?_, ?_, ?_, ?_, ?_, ?_, ?_, ?_, ?_, ?_, ?_, ?_, ?_, ?_, ?_, ?_, ?_, ?_, ?_, ?_⟩ <;> rfl
@[simp] theorem State.wr_fields2 (f : Fld) (v i j : Nat) :
    (s.wr f v i j).flash0 = s.flash0 ∧ (s.wr f v i j).flash1 = s.flash1 ∧ (s.wr f v i j).otp = s.otp ∧
    (s.wr f v i j).logbook = s.logbook ∧ (s.wr f v i j).causes = s.causes ∧ (s.wr f v i j).lastRec = s.lastRec ∧
    (s.wr f v i j).boomed = s.boomed ∧ (s.wr f v i j).laid = s.laid ∧ (s.wr f v i j).flips = s.flips ∧
    (s.wr f v i j).poison = s.poison ∧ (s.wr f v i j).unitBad = s.unitBad ∧ (s.wr f v i j).scrubPos = s.scrubPos ∧
    (s.wr f v i j).scrubDue = s.scrubDue ∧ (s.wr f v i j).scrubAt = s.scrubAt ∧ (s.wr f v i j).lantern = s.lantern ∧
    (s.wr f v i j).lanternAt = s.lanternAt ∧ (s.wr f v i j).tide = s.tide ∧ (s.wr f v i j).tideArmed = s.tideArmed ∧
    (s.wr f v i j).tideOwner = s.tideOwner ∧ (s.wr f v i j).decided = s.decided ∧ (s.wr f v i j).issued = s.issued ∧
    (s.wr f v i j).issueLog = s.issueLog ∧ (s.wr f v i j).tideFresh = s.tideFresh ∧ (s.wr f v i j).tideWaits = s.tideWaits := by
  refine ⟨?_, ?_, ?_, ?_, ?_, ?_, ?_, ?_, ?_, ?_, ?_, ?_, ?_, ?_, ?_, ?_, ?_, ?_, ?_, ?_, ?_, ?_, ?_, ?_⟩ <;> rfl
@[simp] theorem State.wr_fields3 (f : Fld) (v i j : Nat) :
    (s.wr f v i j).axDisc = s.axDisc ∧ (s.wr f v i j).hist = s.hist ∧ (s.wr f v i j).histK = s.histK ∧
    (s.wr f v i j).io = s.io ∧ (s.wr f v i j).pulses = s.pulses ∧ (s.wr f v i j).crossings = s.crossings ∧
    (s.wr f v i j).castCount = s.castCount ∧ (s.wr f v i j).jams = s.jams ∧ (s.wr f v i j).abCauses = s.abCauses ∧
    (s.wr f v i j).eng = s.eng ∧ (s.wr f v i j).graveHold = s.graveHold ∧ (s.wr f v i j).nodeLaid = s.nodeLaid ∧
    (s.wr f v i j).stn = s.stn ∧ (s.wr f v i j).rlt = s.rlt ∧ (s.wr f v i j).marks = s.marks ∧
    (s.wr f v i j).hold = s.hold ∧ (s.wr f v i j).spll = s.spll ∧ (s.wr f v i j).ramps = s.ramps ∧
    (s.wr f v i j).bl = s.bl ∧ (s.wr f v i j).drv = s.drv ∧ (s.wr f v i j).bus = s.bus ∧
    (s.wr f v i j).edgeLive = s.edgeLive ∧ (s.wr f v i j).mot = s.mot ∧ (s.wr f v i j).segs = s.segs := by
  refine ⟨?_, ?_, ?_, ?_, ?_, ?_, ?_, ?_, ?_, ?_, ?_, ?_, ?_, ?_, ?_, ?_, ?_, ?_, ?_, ?_, ?_, ?_, ?_, ?_⟩ <;> rfl
@[simp] theorem State.wr_fields4 (f : Fld) (v i j : Nat) :
    (s.wr f v i j).stopWaits = s.stopWaits ∧ (s.wr f v i j).stp = s.stp ∧ (s.wr f v i j).ustep = s.ustep ∧
    (s.wr f v i j).enc = s.enc ∧ (s.wr f v i j).emu = s.emu ∧ (s.wr f v i j).loop = s.loop ∧
    (s.wr f v i j).lparam = s.lparam ∧ (s.wr f v i j).lword = s.lword ∧ (s.wr f v i j).block = s.block ∧
    (s.wr f v i j).ff = s.ff ∧ (s.wr f v i j).cap = s.cap ∧ (s.wr f v i j).capAt = s.capAt ∧ (s.wr f v i j).hv = s.hv ∧
    (s.wr f v i j).htr = s.htr ∧ (s.wr f v i j).mains = s.mains ∧ (s.wr f v i j).tEff = s.tEff ∧
    (s.wr f v i j).thermMs = s.thermMs ∧ (s.wr f v i j).hbTherm = s.hbTherm ∧ (s.wr f v i j).thrWant = s.thrWant ∧
    (s.wr f v i j).thrAt = s.thrAt ∧ (s.wr f v i j).fusAt = s.fusAt ∧ (s.wr f v i j).droopAt = s.droopAt ∧
    (s.wr f v i j).hbDroop = s.hbDroop ∧ (s.wr f v i j).sequ = s.sequ := by
  refine ⟨?_, ?_, ?_, ?_, ?_, ?_, ?_, ?_, ?_, ?_, ?_, ?_, ?_, ?_, ?_, ?_, ?_, ?_, ?_, ?_, ?_, ?_, ?_, ?_⟩ <;> rfl
@[simp] theorem State.wr_fields5 (f : Fld) (v i j : Nat) :
    (s.wr f v i j).pwr = s.pwr ∧ (s.wr f v i j).xfer = s.xfer ∧ (s.wr f v i j).fport = s.fport ∧
    (s.wr f v i j).fnode = s.fnode ∧ (s.wr f v i j).flWait = s.flWait ∧ (s.wr f v i j).raisedAt = s.raisedAt ∧
    (s.wr f v i j).layups = s.layups ∧ (s.wr f v i j).lbDue = s.lbDue := by
  refine ⟨?_, ?_, ?_, ?_, ?_, ?_, ?_, ?_⟩ <;> rfl
@[simp] theorem State.wr_reads (f : Fld) (v i j : Nat) :
    (∀ g i0 j0, (s.wr f v i j).lv g i0 j0 = s.lv g i0 j0) ∧ (∀ g i0 j0, (s.wr f v i j).qv g i0 j0 = s.qv g i0 j0) ∧
    (∀ g i0 j0, (s.wr f v i j).lon g i0 j0 = s.lon g i0 j0) ∧ (∀ i0, (s.wr f v i j).isBoomed i0 = s.isBoomed i0) ∧
    (∀ i0, (s.wr f v i j).isLaid i0 = s.isLaid i0) ∧ (∀ i0, (s.wr f v i j).sqs i0 = s.sqs i0) ∧
    (∀ i0, (s.wr f v i j).eqs i0 = s.eqs i0) ∧ (∀ i0, (s.wr f v i j).drvs i0 = s.drvs i0) ∧
    (∀ i0, (s.wr f v i j).mots i0 = s.mots i0) ∧ (∀ i0, (s.wr f v i j).stps i0 = s.stps i0) ∧
    (∀ i0, (s.wr f v i j).stns i0 = s.stns i0) ∧ (∀ i0, (s.wr f v i j).bls i0 = s.bls i0) ∧
    (∀ i0, (s.wr f v i j).htrs i0 = s.htrs i0) ∧ (∀ i0, (s.wr f v i j).hvs i0 = s.hvs i0) ∧
    (∀ i0, (s.wr f v i j).xfers i0 = s.xfers i0) ∧ (∀ i0, (s.wr f v i j).loops i0 = s.loops i0) ∧
    (∀ i0, (s.wr f v i j).encs i0 = s.encs i0) ∧ (∀ i0, (s.wr f v i j).splls i0 = s.splls i0) ∧
    (∀ i0, (s.wr f v i j).fports i0 = s.fports i0) ∧ (∀ i0, (s.wr f v i j).rlts i0 = s.rlts i0) := by
  refine ⟨?_, ?_, ?_, ?_, ?_, ?_, ?_, ?_, ?_, ?_, ?_, ?_, ?_, ?_, ?_, ?_, ?_, ?_, ?_, ?_⟩ <;> intros <;> rfl

@[simp] theorem State.emit_fields1 (o : Out) :
    (s.emit o).pending = s.pending ∧ (s.emit o).now = s.now ∧ (s.emit o).free = s.free ∧ (s.emit o).regs = s.regs ∧
    (s.emit o).edgeRegs = s.edgeRegs ∧ (s.emit o).edgeSw = s.edgeSw ∧ (s.emit o).quay = s.quay ∧ (s.emit o).live = s.live ∧
    (s.emit o).wlDone = s.wlDone ∧ (s.emit o).post = s.post ∧ (s.emit o).lowLatch = s.lowLatch ∧ (s.emit o).cfg = s.cfg ∧
    (s.emit o).msixTab = s.msixTab ∧ (s.emit o).pf0 = s.pf0 ∧ (s.emit o).pf1 = s.pf1 ∧ (s.emit o).sq = s.sq ∧
    (s.emit o).eq = s.eq ∧ (s.emit o).rrSq = s.rrSq ∧ (s.emit o).holdover = s.holdover ∧ (s.emit o).chartSeq = s.chartSeq ∧
    (s.emit o).chartWant = s.chartWant ∧ (s.emit o).chartMs = s.chartMs ∧ (s.emit o).commits = s.commits ∧
    (s.emit o).boot = s.boot := by
  refine ⟨?_, ?_, ?_, ?_, ?_, ?_, ?_, ?_, ?_, ?_, ?_, ?_, ?_, ?_, ?_, ?_, ?_, ?_, ?_, ?_, ?_, ?_, ?_, ?_⟩ <;> rfl
@[simp] theorem State.emit_fields2 (o : Out) :
    (s.emit o).flash0 = s.flash0 ∧ (s.emit o).flash1 = s.flash1 ∧ (s.emit o).otp = s.otp ∧ (s.emit o).logbook = s.logbook ∧
    (s.emit o).causes = s.causes ∧ (s.emit o).lastRec = s.lastRec ∧ (s.emit o).boomed = s.boomed ∧
    (s.emit o).laid = s.laid ∧ (s.emit o).flips = s.flips ∧ (s.emit o).poison = s.poison ∧ (s.emit o).unitBad = s.unitBad ∧
    (s.emit o).scrubPos = s.scrubPos ∧ (s.emit o).scrubDue = s.scrubDue ∧ (s.emit o).scrubAt = s.scrubAt ∧
    (s.emit o).lantern = s.lantern ∧ (s.emit o).lanternAt = s.lanternAt ∧ (s.emit o).tide = s.tide ∧
    (s.emit o).tideArmed = s.tideArmed ∧ (s.emit o).tideOwner = s.tideOwner ∧ (s.emit o).decided = s.decided ∧
    (s.emit o).issued = s.issued ∧ (s.emit o).issueLog = s.issueLog ∧ (s.emit o).tideFresh = s.tideFresh ∧
    (s.emit o).tideWaits = s.tideWaits := by
  refine ⟨?_, ?_, ?_, ?_, ?_, ?_, ?_, ?_, ?_, ?_, ?_, ?_, ?_, ?_, ?_, ?_, ?_, ?_, ?_, ?_, ?_, ?_, ?_, ?_⟩ <;> rfl
@[simp] theorem State.emit_fields3 (o : Out) :
    (s.emit o).axDisc = s.axDisc ∧ (s.emit o).hist = s.hist ∧ (s.emit o).histK = s.histK ∧ (s.emit o).io = s.io ∧
    (s.emit o).pulses = s.pulses ∧ (s.emit o).crossings = s.crossings ∧ (s.emit o).castCount = s.castCount ∧
    (s.emit o).jams = s.jams ∧ (s.emit o).abCauses = s.abCauses ∧ (s.emit o).eng = s.eng ∧
    (s.emit o).graveHold = s.graveHold ∧ (s.emit o).nodeLaid = s.nodeLaid ∧ (s.emit o).stn = s.stn ∧
    (s.emit o).rlt = s.rlt ∧ (s.emit o).marks = s.marks ∧ (s.emit o).hold = s.hold ∧ (s.emit o).spll = s.spll ∧
    (s.emit o).ramps = s.ramps ∧ (s.emit o).bl = s.bl ∧ (s.emit o).drv = s.drv ∧ (s.emit o).bus = s.bus ∧
    (s.emit o).edgeLive = s.edgeLive ∧ (s.emit o).mot = s.mot ∧ (s.emit o).segs = s.segs := by
  refine ⟨?_, ?_, ?_, ?_, ?_, ?_, ?_, ?_, ?_, ?_, ?_, ?_, ?_, ?_, ?_, ?_, ?_, ?_, ?_, ?_, ?_, ?_, ?_, ?_⟩ <;> rfl
@[simp] theorem State.emit_fields4 (o : Out) :
    (s.emit o).stopWaits = s.stopWaits ∧ (s.emit o).stp = s.stp ∧ (s.emit o).ustep = s.ustep ∧ (s.emit o).enc = s.enc ∧
    (s.emit o).emu = s.emu ∧ (s.emit o).loop = s.loop ∧ (s.emit o).lparam = s.lparam ∧ (s.emit o).lword = s.lword ∧
    (s.emit o).block = s.block ∧ (s.emit o).ff = s.ff ∧ (s.emit o).cap = s.cap ∧ (s.emit o).capAt = s.capAt ∧
    (s.emit o).hv = s.hv ∧ (s.emit o).htr = s.htr ∧ (s.emit o).mains = s.mains ∧ (s.emit o).tEff = s.tEff ∧
    (s.emit o).thermMs = s.thermMs ∧ (s.emit o).hbTherm = s.hbTherm ∧ (s.emit o).thrWant = s.thrWant ∧
    (s.emit o).thrAt = s.thrAt ∧ (s.emit o).fusAt = s.fusAt ∧ (s.emit o).droopAt = s.droopAt ∧
    (s.emit o).hbDroop = s.hbDroop ∧ (s.emit o).sequ = s.sequ := by
  refine ⟨?_, ?_, ?_, ?_, ?_, ?_, ?_, ?_, ?_, ?_, ?_, ?_, ?_, ?_, ?_, ?_, ?_, ?_, ?_, ?_, ?_, ?_, ?_, ?_⟩ <;> rfl
@[simp] theorem State.emit_fields5 (o : Out) :
    (s.emit o).pwr = s.pwr ∧ (s.emit o).xfer = s.xfer ∧ (s.emit o).fport = s.fport ∧ (s.emit o).fnode = s.fnode ∧
    (s.emit o).flWait = s.flWait ∧ (s.emit o).raisedAt = s.raisedAt ∧ (s.emit o).layups = s.layups ∧
    (s.emit o).lbDue = s.lbDue := by
  refine ⟨?_, ?_, ?_, ?_, ?_, ?_, ?_, ?_⟩ <;> rfl
@[simp] theorem State.emit_reads (o : Out) :
    (∀ g i0 j0, (s.emit o).rd g i0 j0 = s.rd g i0 j0) ∧ (∀ g i0 j0, (s.emit o).lv g i0 j0 = s.lv g i0 j0) ∧
    (∀ g i0 j0, (s.emit o).qv g i0 j0 = s.qv g i0 j0) ∧ (∀ g i0 j0, (s.emit o).on g i0 j0 = s.on g i0 j0) ∧
    (∀ g i0 j0, (s.emit o).lon g i0 j0 = s.lon g i0 j0) ∧ (∀ i0, (s.emit o).isBoomed i0 = s.isBoomed i0) ∧
    (∀ i0, (s.emit o).isLaid i0 = s.isLaid i0) ∧ (∀ i0, (s.emit o).sqs i0 = s.sqs i0) ∧
    (∀ i0, (s.emit o).eqs i0 = s.eqs i0) ∧ (∀ i0, (s.emit o).drvs i0 = s.drvs i0) ∧ (∀ i0, (s.emit o).mots i0 = s.mots i0) ∧
    (∀ i0, (s.emit o).stps i0 = s.stps i0) ∧ (∀ i0, (s.emit o).stns i0 = s.stns i0) ∧ (∀ i0, (s.emit o).bls i0 = s.bls i0) ∧
    (∀ i0, (s.emit o).htrs i0 = s.htrs i0) ∧ (∀ i0, (s.emit o).hvs i0 = s.hvs i0) ∧
    (∀ i0, (s.emit o).xfers i0 = s.xfers i0) ∧ (∀ i0, (s.emit o).loops i0 = s.loops i0) ∧
    (∀ i0, (s.emit o).encs i0 = s.encs i0) ∧ (∀ i0, (s.emit o).splls i0 = s.splls i0) ∧
    (∀ i0, (s.emit o).fports i0 = s.fports i0) ∧ (∀ i0, (s.emit o).rlts i0 = s.rlts i0) := by
  refine ⟨?_, ?_, ?_, ?_, ?_, ?_, ?_, ?_, ?_, ?_, ?_, ?_, ?_, ?_, ?_, ?_, ?_, ?_, ?_, ?_, ?_, ?_⟩ <;> intros <;> rfl

@[simp] theorem State.setSq_fields1 (n : Nat) (x : SqSt) :
    (s.setSq n x).pending = s.pending ∧ (s.setSq n x).now = s.now ∧ (s.setSq n x).free = s.free ∧
    (s.setSq n x).out = s.out ∧ (s.setSq n x).regs = s.regs ∧ (s.setSq n x).edgeRegs = s.edgeRegs ∧
    (s.setSq n x).edgeSw = s.edgeSw ∧ (s.setSq n x).quay = s.quay ∧ (s.setSq n x).live = s.live ∧
    (s.setSq n x).wlDone = s.wlDone ∧ (s.setSq n x).post = s.post ∧ (s.setSq n x).lowLatch = s.lowLatch ∧
    (s.setSq n x).cfg = s.cfg ∧ (s.setSq n x).msixTab = s.msixTab ∧ (s.setSq n x).pf0 = s.pf0 ∧ (s.setSq n x).pf1 = s.pf1 ∧
    (s.setSq n x).eq = s.eq ∧ (s.setSq n x).rrSq = s.rrSq ∧ (s.setSq n x).holdover = s.holdover ∧
    (s.setSq n x).chartSeq = s.chartSeq ∧ (s.setSq n x).chartWant = s.chartWant ∧ (s.setSq n x).chartMs = s.chartMs ∧
    (s.setSq n x).commits = s.commits ∧ (s.setSq n x).boot = s.boot := by
  refine ⟨?_, ?_, ?_, ?_, ?_, ?_, ?_, ?_, ?_, ?_, ?_, ?_, ?_, ?_, ?_, ?_, ?_, ?_, ?_, ?_, ?_, ?_, ?_, ?_⟩ <;> rfl
@[simp] theorem State.setSq_fields2 (n : Nat) (x : SqSt) :
    (s.setSq n x).flash0 = s.flash0 ∧ (s.setSq n x).flash1 = s.flash1 ∧ (s.setSq n x).otp = s.otp ∧
    (s.setSq n x).logbook = s.logbook ∧ (s.setSq n x).causes = s.causes ∧ (s.setSq n x).lastRec = s.lastRec ∧
    (s.setSq n x).boomed = s.boomed ∧ (s.setSq n x).laid = s.laid ∧ (s.setSq n x).flips = s.flips ∧
    (s.setSq n x).poison = s.poison ∧ (s.setSq n x).unitBad = s.unitBad ∧ (s.setSq n x).scrubPos = s.scrubPos ∧
    (s.setSq n x).scrubDue = s.scrubDue ∧ (s.setSq n x).scrubAt = s.scrubAt ∧ (s.setSq n x).lantern = s.lantern ∧
    (s.setSq n x).lanternAt = s.lanternAt ∧ (s.setSq n x).tide = s.tide ∧ (s.setSq n x).tideArmed = s.tideArmed ∧
    (s.setSq n x).tideOwner = s.tideOwner ∧ (s.setSq n x).decided = s.decided ∧ (s.setSq n x).issued = s.issued ∧
    (s.setSq n x).issueLog = s.issueLog ∧ (s.setSq n x).tideFresh = s.tideFresh ∧ (s.setSq n x).tideWaits = s.tideWaits := by
  refine ⟨?_, ?_, ?_, ?_, ?_, ?_, ?_, ?_, ?_, ?_, ?_, ?_, ?_, ?_, ?_, ?_, ?_, ?_, ?_, ?_, ?_, ?_, ?_, ?_⟩ <;> rfl
@[simp] theorem State.setSq_fields3 (n : Nat) (x : SqSt) :
    (s.setSq n x).axDisc = s.axDisc ∧ (s.setSq n x).hist = s.hist ∧ (s.setSq n x).histK = s.histK ∧
    (s.setSq n x).io = s.io ∧ (s.setSq n x).pulses = s.pulses ∧ (s.setSq n x).crossings = s.crossings ∧
    (s.setSq n x).castCount = s.castCount ∧ (s.setSq n x).jams = s.jams ∧ (s.setSq n x).abCauses = s.abCauses ∧
    (s.setSq n x).eng = s.eng ∧ (s.setSq n x).graveHold = s.graveHold ∧ (s.setSq n x).nodeLaid = s.nodeLaid ∧
    (s.setSq n x).stn = s.stn ∧ (s.setSq n x).rlt = s.rlt ∧ (s.setSq n x).marks = s.marks ∧ (s.setSq n x).hold = s.hold ∧
    (s.setSq n x).spll = s.spll ∧ (s.setSq n x).ramps = s.ramps ∧ (s.setSq n x).bl = s.bl ∧ (s.setSq n x).drv = s.drv ∧
    (s.setSq n x).bus = s.bus ∧ (s.setSq n x).edgeLive = s.edgeLive ∧ (s.setSq n x).mot = s.mot ∧ (s.setSq n x).segs = s.segs := by
  refine ⟨?_, ?_, ?_, ?_, ?_, ?_, ?_, ?_, ?_, ?_, ?_, ?_, ?_, ?_, ?_, ?_, ?_, ?_, ?_, ?_, ?_, ?_, ?_, ?_⟩ <;> rfl
@[simp] theorem State.setSq_fields4 (n : Nat) (x : SqSt) :
    (s.setSq n x).stopWaits = s.stopWaits ∧ (s.setSq n x).stp = s.stp ∧ (s.setSq n x).ustep = s.ustep ∧
    (s.setSq n x).enc = s.enc ∧ (s.setSq n x).emu = s.emu ∧ (s.setSq n x).loop = s.loop ∧ (s.setSq n x).lparam = s.lparam ∧
    (s.setSq n x).lword = s.lword ∧ (s.setSq n x).block = s.block ∧ (s.setSq n x).ff = s.ff ∧ (s.setSq n x).cap = s.cap ∧
    (s.setSq n x).capAt = s.capAt ∧ (s.setSq n x).hv = s.hv ∧ (s.setSq n x).htr = s.htr ∧ (s.setSq n x).mains = s.mains ∧
    (s.setSq n x).tEff = s.tEff ∧ (s.setSq n x).thermMs = s.thermMs ∧ (s.setSq n x).hbTherm = s.hbTherm ∧
    (s.setSq n x).thrWant = s.thrWant ∧ (s.setSq n x).thrAt = s.thrAt ∧ (s.setSq n x).fusAt = s.fusAt ∧
    (s.setSq n x).droopAt = s.droopAt ∧ (s.setSq n x).hbDroop = s.hbDroop ∧ (s.setSq n x).sequ = s.sequ := by
  refine ⟨?_, ?_, ?_, ?_, ?_, ?_, ?_, ?_, ?_, ?_, ?_, ?_, ?_, ?_, ?_, ?_, ?_, ?_, ?_, ?_, ?_, ?_, ?_, ?_⟩ <;> rfl
@[simp] theorem State.setSq_fields5 (n : Nat) (x : SqSt) :
    (s.setSq n x).pwr = s.pwr ∧ (s.setSq n x).xfer = s.xfer ∧ (s.setSq n x).fport = s.fport ∧
    (s.setSq n x).fnode = s.fnode ∧ (s.setSq n x).flWait = s.flWait ∧ (s.setSq n x).raisedAt = s.raisedAt ∧
    (s.setSq n x).layups = s.layups ∧ (s.setSq n x).lbDue = s.lbDue := by
  refine ⟨?_, ?_, ?_, ?_, ?_, ?_, ?_, ?_⟩ <;> rfl
@[simp] theorem State.setSq_reads (n : Nat) (x : SqSt) :
    (∀ g i0 j0, (s.setSq n x).rd g i0 j0 = s.rd g i0 j0) ∧ (∀ g i0 j0, (s.setSq n x).lv g i0 j0 = s.lv g i0 j0) ∧
    (∀ g i0 j0, (s.setSq n x).qv g i0 j0 = s.qv g i0 j0) ∧ (∀ g i0 j0, (s.setSq n x).on g i0 j0 = s.on g i0 j0) ∧
    (∀ g i0 j0, (s.setSq n x).lon g i0 j0 = s.lon g i0 j0) ∧ (∀ i0, (s.setSq n x).isBoomed i0 = s.isBoomed i0) ∧
    (∀ i0, (s.setSq n x).isLaid i0 = s.isLaid i0) ∧ (∀ i0, (s.setSq n x).eqs i0 = s.eqs i0) ∧
    (∀ i0, (s.setSq n x).drvs i0 = s.drvs i0) ∧ (∀ i0, (s.setSq n x).mots i0 = s.mots i0) ∧
    (∀ i0, (s.setSq n x).stps i0 = s.stps i0) ∧ (∀ i0, (s.setSq n x).stns i0 = s.stns i0) ∧
    (∀ i0, (s.setSq n x).bls i0 = s.bls i0) ∧ (∀ i0, (s.setSq n x).htrs i0 = s.htrs i0) ∧
    (∀ i0, (s.setSq n x).hvs i0 = s.hvs i0) ∧ (∀ i0, (s.setSq n x).xfers i0 = s.xfers i0) ∧
    (∀ i0, (s.setSq n x).loops i0 = s.loops i0) ∧ (∀ i0, (s.setSq n x).encs i0 = s.encs i0) ∧
    (∀ i0, (s.setSq n x).splls i0 = s.splls i0) ∧ (∀ i0, (s.setSq n x).fports i0 = s.fports i0) ∧
    (∀ i0, (s.setSq n x).rlts i0 = s.rlts i0) := by
  refine ⟨?_, ?_, ?_, ?_, ?_, ?_, ?_, ?_, ?_, ?_, ?_, ?_, ?_, ?_, ?_, ?_, ?_, ?_, ?_, ?_, ?_⟩ <;> intros <;> rfl
@[simp] theorem State.sqs_setSq_self (n : Nat) (x : SqSt) : (s.setSq n x).sqs n = x := tget_tput_self ..
@[simp] theorem State.sqs_setSq_other (n : Nat) (x : SqSt) (m : Nat) (h : m ≠ n) : (s.setSq n x).sqs m = s.sqs m := tget_tput_other _ _ _ h

@[simp] theorem State.setEq_fields1 (n : Nat) (x : EqSt) :
    (s.setEq n x).pending = s.pending ∧ (s.setEq n x).now = s.now ∧ (s.setEq n x).free = s.free ∧
    (s.setEq n x).out = s.out ∧ (s.setEq n x).regs = s.regs ∧ (s.setEq n x).edgeRegs = s.edgeRegs ∧
    (s.setEq n x).edgeSw = s.edgeSw ∧ (s.setEq n x).quay = s.quay ∧ (s.setEq n x).live = s.live ∧
    (s.setEq n x).wlDone = s.wlDone ∧ (s.setEq n x).post = s.post ∧ (s.setEq n x).lowLatch = s.lowLatch ∧
    (s.setEq n x).cfg = s.cfg ∧ (s.setEq n x).msixTab = s.msixTab ∧ (s.setEq n x).pf0 = s.pf0 ∧ (s.setEq n x).pf1 = s.pf1 ∧
    (s.setEq n x).sq = s.sq ∧ (s.setEq n x).rrSq = s.rrSq ∧ (s.setEq n x).holdover = s.holdover ∧
    (s.setEq n x).chartSeq = s.chartSeq ∧ (s.setEq n x).chartWant = s.chartWant ∧ (s.setEq n x).chartMs = s.chartMs ∧
    (s.setEq n x).commits = s.commits ∧ (s.setEq n x).boot = s.boot := by
  refine ⟨?_, ?_, ?_, ?_, ?_, ?_, ?_, ?_, ?_, ?_, ?_, ?_, ?_, ?_, ?_, ?_, ?_, ?_, ?_, ?_, ?_, ?_, ?_, ?_⟩ <;> rfl
@[simp] theorem State.setEq_fields2 (n : Nat) (x : EqSt) :
    (s.setEq n x).flash0 = s.flash0 ∧ (s.setEq n x).flash1 = s.flash1 ∧ (s.setEq n x).otp = s.otp ∧
    (s.setEq n x).logbook = s.logbook ∧ (s.setEq n x).causes = s.causes ∧ (s.setEq n x).lastRec = s.lastRec ∧
    (s.setEq n x).boomed = s.boomed ∧ (s.setEq n x).laid = s.laid ∧ (s.setEq n x).flips = s.flips ∧
    (s.setEq n x).poison = s.poison ∧ (s.setEq n x).unitBad = s.unitBad ∧ (s.setEq n x).scrubPos = s.scrubPos ∧
    (s.setEq n x).scrubDue = s.scrubDue ∧ (s.setEq n x).scrubAt = s.scrubAt ∧ (s.setEq n x).lantern = s.lantern ∧
    (s.setEq n x).lanternAt = s.lanternAt ∧ (s.setEq n x).tide = s.tide ∧ (s.setEq n x).tideArmed = s.tideArmed ∧
    (s.setEq n x).tideOwner = s.tideOwner ∧ (s.setEq n x).decided = s.decided ∧ (s.setEq n x).issued = s.issued ∧
    (s.setEq n x).issueLog = s.issueLog ∧ (s.setEq n x).tideFresh = s.tideFresh ∧ (s.setEq n x).tideWaits = s.tideWaits := by
  refine ⟨?_, ?_, ?_, ?_, ?_, ?_, ?_, ?_, ?_, ?_, ?_, ?_, ?_, ?_, ?_, ?_, ?_, ?_, ?_, ?_, ?_, ?_, ?_, ?_⟩ <;> rfl
@[simp] theorem State.setEq_fields3 (n : Nat) (x : EqSt) :
    (s.setEq n x).axDisc = s.axDisc ∧ (s.setEq n x).hist = s.hist ∧ (s.setEq n x).histK = s.histK ∧
    (s.setEq n x).io = s.io ∧ (s.setEq n x).pulses = s.pulses ∧ (s.setEq n x).crossings = s.crossings ∧
    (s.setEq n x).castCount = s.castCount ∧ (s.setEq n x).jams = s.jams ∧ (s.setEq n x).abCauses = s.abCauses ∧
    (s.setEq n x).eng = s.eng ∧ (s.setEq n x).graveHold = s.graveHold ∧ (s.setEq n x).nodeLaid = s.nodeLaid ∧
    (s.setEq n x).stn = s.stn ∧ (s.setEq n x).rlt = s.rlt ∧ (s.setEq n x).marks = s.marks ∧ (s.setEq n x).hold = s.hold ∧
    (s.setEq n x).spll = s.spll ∧ (s.setEq n x).ramps = s.ramps ∧ (s.setEq n x).bl = s.bl ∧ (s.setEq n x).drv = s.drv ∧
    (s.setEq n x).bus = s.bus ∧ (s.setEq n x).edgeLive = s.edgeLive ∧ (s.setEq n x).mot = s.mot ∧ (s.setEq n x).segs = s.segs := by
  refine ⟨?_, ?_, ?_, ?_, ?_, ?_, ?_, ?_, ?_, ?_, ?_, ?_, ?_, ?_, ?_, ?_, ?_, ?_, ?_, ?_, ?_, ?_, ?_, ?_⟩ <;> rfl
@[simp] theorem State.setEq_fields4 (n : Nat) (x : EqSt) :
    (s.setEq n x).stopWaits = s.stopWaits ∧ (s.setEq n x).stp = s.stp ∧ (s.setEq n x).ustep = s.ustep ∧
    (s.setEq n x).enc = s.enc ∧ (s.setEq n x).emu = s.emu ∧ (s.setEq n x).loop = s.loop ∧ (s.setEq n x).lparam = s.lparam ∧
    (s.setEq n x).lword = s.lword ∧ (s.setEq n x).block = s.block ∧ (s.setEq n x).ff = s.ff ∧ (s.setEq n x).cap = s.cap ∧
    (s.setEq n x).capAt = s.capAt ∧ (s.setEq n x).hv = s.hv ∧ (s.setEq n x).htr = s.htr ∧ (s.setEq n x).mains = s.mains ∧
    (s.setEq n x).tEff = s.tEff ∧ (s.setEq n x).thermMs = s.thermMs ∧ (s.setEq n x).hbTherm = s.hbTherm ∧
    (s.setEq n x).thrWant = s.thrWant ∧ (s.setEq n x).thrAt = s.thrAt ∧ (s.setEq n x).fusAt = s.fusAt ∧
    (s.setEq n x).droopAt = s.droopAt ∧ (s.setEq n x).hbDroop = s.hbDroop ∧ (s.setEq n x).sequ = s.sequ := by
  refine ⟨?_, ?_, ?_, ?_, ?_, ?_, ?_, ?_, ?_, ?_, ?_, ?_, ?_, ?_, ?_, ?_, ?_, ?_, ?_, ?_, ?_, ?_, ?_, ?_⟩ <;> rfl
@[simp] theorem State.setEq_fields5 (n : Nat) (x : EqSt) :
    (s.setEq n x).pwr = s.pwr ∧ (s.setEq n x).xfer = s.xfer ∧ (s.setEq n x).fport = s.fport ∧
    (s.setEq n x).fnode = s.fnode ∧ (s.setEq n x).flWait = s.flWait ∧ (s.setEq n x).raisedAt = s.raisedAt ∧
    (s.setEq n x).layups = s.layups ∧ (s.setEq n x).lbDue = s.lbDue := by
  refine ⟨?_, ?_, ?_, ?_, ?_, ?_, ?_, ?_⟩ <;> rfl
@[simp] theorem State.setEq_reads (n : Nat) (x : EqSt) :
    (∀ g i0 j0, (s.setEq n x).rd g i0 j0 = s.rd g i0 j0) ∧ (∀ g i0 j0, (s.setEq n x).lv g i0 j0 = s.lv g i0 j0) ∧
    (∀ g i0 j0, (s.setEq n x).qv g i0 j0 = s.qv g i0 j0) ∧ (∀ g i0 j0, (s.setEq n x).on g i0 j0 = s.on g i0 j0) ∧
    (∀ g i0 j0, (s.setEq n x).lon g i0 j0 = s.lon g i0 j0) ∧ (∀ i0, (s.setEq n x).isBoomed i0 = s.isBoomed i0) ∧
    (∀ i0, (s.setEq n x).isLaid i0 = s.isLaid i0) ∧ (∀ i0, (s.setEq n x).sqs i0 = s.sqs i0) ∧
    (∀ i0, (s.setEq n x).drvs i0 = s.drvs i0) ∧ (∀ i0, (s.setEq n x).mots i0 = s.mots i0) ∧
    (∀ i0, (s.setEq n x).stps i0 = s.stps i0) ∧ (∀ i0, (s.setEq n x).stns i0 = s.stns i0) ∧
    (∀ i0, (s.setEq n x).bls i0 = s.bls i0) ∧ (∀ i0, (s.setEq n x).htrs i0 = s.htrs i0) ∧
    (∀ i0, (s.setEq n x).hvs i0 = s.hvs i0) ∧ (∀ i0, (s.setEq n x).xfers i0 = s.xfers i0) ∧
    (∀ i0, (s.setEq n x).loops i0 = s.loops i0) ∧ (∀ i0, (s.setEq n x).encs i0 = s.encs i0) ∧
    (∀ i0, (s.setEq n x).splls i0 = s.splls i0) ∧ (∀ i0, (s.setEq n x).fports i0 = s.fports i0) ∧
    (∀ i0, (s.setEq n x).rlts i0 = s.rlts i0) := by
  refine ⟨?_, ?_, ?_, ?_, ?_, ?_, ?_, ?_, ?_, ?_, ?_, ?_, ?_, ?_, ?_, ?_, ?_, ?_, ?_, ?_, ?_⟩ <;> intros <;> rfl
@[simp] theorem State.eqs_setEq_self (n : Nat) (x : EqSt) : (s.setEq n x).eqs n = x := tget_tput_self ..
@[simp] theorem State.eqs_setEq_other (n : Nat) (x : EqSt) (m : Nat) (h : m ≠ n) : (s.setEq n x).eqs m = s.eqs m := tget_tput_other _ _ _ h

@[simp] theorem State.setBoomed_reads (n : Nat) (x : Bool) :
    (∀ g i0 j0, (s.setBoomed n x).rd g i0 j0 = s.rd g i0 j0) ∧ (∀ g i0 j0, (s.setBoomed n x).lv g i0 j0 = s.lv g i0 j0) ∧
    (∀ g i0 j0, (s.setBoomed n x).qv g i0 j0 = s.qv g i0 j0) ∧ (∀ g i0 j0, (s.setBoomed n x).on g i0 j0 = s.on g i0 j0) ∧
    (∀ g i0 j0, (s.setBoomed n x).lon g i0 j0 = s.lon g i0 j0) ∧ (∀ i0, (s.setBoomed n x).isLaid i0 = s.isLaid i0) ∧
    (∀ i0, (s.setBoomed n x).sqs i0 = s.sqs i0) ∧ (∀ i0, (s.setBoomed n x).eqs i0 = s.eqs i0) ∧
    (∀ i0, (s.setBoomed n x).drvs i0 = s.drvs i0) ∧ (∀ i0, (s.setBoomed n x).mots i0 = s.mots i0) ∧
    (∀ i0, (s.setBoomed n x).stps i0 = s.stps i0) ∧ (∀ i0, (s.setBoomed n x).stns i0 = s.stns i0) ∧
    (∀ i0, (s.setBoomed n x).bls i0 = s.bls i0) ∧ (∀ i0, (s.setBoomed n x).htrs i0 = s.htrs i0) ∧
    (∀ i0, (s.setBoomed n x).hvs i0 = s.hvs i0) ∧ (∀ i0, (s.setBoomed n x).xfers i0 = s.xfers i0) ∧
    (∀ i0, (s.setBoomed n x).loops i0 = s.loops i0) ∧ (∀ i0, (s.setBoomed n x).encs i0 = s.encs i0) ∧
    (∀ i0, (s.setBoomed n x).splls i0 = s.splls i0) ∧ (∀ i0, (s.setBoomed n x).fports i0 = s.fports i0) ∧
    (∀ i0, (s.setBoomed n x).rlts i0 = s.rlts i0) := by
  refine ⟨?_, ?_, ?_, ?_, ?_, ?_, ?_, ?_, ?_, ?_, ?_, ?_, ?_, ?_, ?_, ?_, ?_, ?_, ?_, ?_, ?_⟩ <;> intros <;> rfl
@[simp] theorem State.isBoomed_setBoomed_self (n : Nat) (x : Bool) : (s.setBoomed n x).isBoomed n = x := tget_tput_self ..
@[simp] theorem State.isBoomed_setBoomed_other (n : Nat) (x : Bool) (m : Nat) (h : m ≠ n) : (s.setBoomed n x).isBoomed m = s.isBoomed m := tget_tput_other _ _ _ h

@[simp] theorem State.setLaid_reads (n : Nat) (x : Bool) :
    (∀ g i0 j0, (s.setLaid n x).rd g i0 j0 = s.rd g i0 j0) ∧ (∀ g i0 j0, (s.setLaid n x).lv g i0 j0 = s.lv g i0 j0) ∧
    (∀ g i0 j0, (s.setLaid n x).qv g i0 j0 = s.qv g i0 j0) ∧ (∀ g i0 j0, (s.setLaid n x).on g i0 j0 = s.on g i0 j0) ∧
    (∀ g i0 j0, (s.setLaid n x).lon g i0 j0 = s.lon g i0 j0) ∧ (∀ i0, (s.setLaid n x).isBoomed i0 = s.isBoomed i0) ∧
    (∀ i0, (s.setLaid n x).sqs i0 = s.sqs i0) ∧ (∀ i0, (s.setLaid n x).eqs i0 = s.eqs i0) ∧
    (∀ i0, (s.setLaid n x).drvs i0 = s.drvs i0) ∧ (∀ i0, (s.setLaid n x).mots i0 = s.mots i0) ∧
    (∀ i0, (s.setLaid n x).stps i0 = s.stps i0) ∧ (∀ i0, (s.setLaid n x).stns i0 = s.stns i0) ∧
    (∀ i0, (s.setLaid n x).bls i0 = s.bls i0) ∧ (∀ i0, (s.setLaid n x).htrs i0 = s.htrs i0) ∧
    (∀ i0, (s.setLaid n x).hvs i0 = s.hvs i0) ∧ (∀ i0, (s.setLaid n x).xfers i0 = s.xfers i0) ∧
    (∀ i0, (s.setLaid n x).loops i0 = s.loops i0) ∧ (∀ i0, (s.setLaid n x).encs i0 = s.encs i0) ∧
    (∀ i0, (s.setLaid n x).splls i0 = s.splls i0) ∧ (∀ i0, (s.setLaid n x).fports i0 = s.fports i0) ∧
    (∀ i0, (s.setLaid n x).rlts i0 = s.rlts i0) := by
  refine ⟨?_, ?_, ?_, ?_, ?_, ?_, ?_, ?_, ?_, ?_, ?_, ?_, ?_, ?_, ?_, ?_, ?_, ?_, ?_, ?_, ?_⟩ <;> intros <;> rfl
@[simp] theorem State.isLaid_setLaid_self (n : Nat) (x : Bool) : (s.setLaid n x).isLaid n = x := tget_tput_self ..
@[simp] theorem State.isLaid_setLaid_other (n : Nat) (x : Bool) (m : Nat) (h : m ≠ n) : (s.setLaid n x).isLaid m = s.isLaid m := tget_tput_other _ _ _ h

@[simp] theorem State.setDrv_fields1 (n : Nat) (x : Drv) :
    (s.setDrv n x).pending = s.pending ∧ (s.setDrv n x).now = s.now ∧ (s.setDrv n x).free = s.free ∧
    (s.setDrv n x).out = s.out ∧ (s.setDrv n x).regs = s.regs ∧ (s.setDrv n x).edgeRegs = s.edgeRegs ∧
    (s.setDrv n x).edgeSw = s.edgeSw ∧ (s.setDrv n x).quay = s.quay ∧ (s.setDrv n x).live = s.live ∧
    (s.setDrv n x).wlDone = s.wlDone ∧ (s.setDrv n x).post = s.post ∧ (s.setDrv n x).lowLatch = s.lowLatch ∧
    (s.setDrv n x).cfg = s.cfg ∧ (s.setDrv n x).msixTab = s.msixTab ∧ (s.setDrv n x).pf0 = s.pf0 ∧
    (s.setDrv n x).pf1 = s.pf1 ∧ (s.setDrv n x).sq = s.sq ∧ (s.setDrv n x).eq = s.eq ∧ (s.setDrv n x).rrSq = s.rrSq ∧
    (s.setDrv n x).holdover = s.holdover ∧ (s.setDrv n x).chartSeq = s.chartSeq ∧ (s.setDrv n x).chartWant = s.chartWant ∧
    (s.setDrv n x).chartMs = s.chartMs ∧ (s.setDrv n x).commits = s.commits := by
  refine ⟨?_, ?_, ?_, ?_, ?_, ?_, ?_, ?_, ?_, ?_, ?_, ?_, ?_, ?_, ?_, ?_, ?_, ?_, ?_, ?_, ?_, ?_, ?_, ?_⟩ <;> rfl
@[simp] theorem State.setDrv_fields2 (n : Nat) (x : Drv) :
    (s.setDrv n x).boot = s.boot ∧ (s.setDrv n x).flash0 = s.flash0 ∧ (s.setDrv n x).flash1 = s.flash1 ∧
    (s.setDrv n x).otp = s.otp ∧ (s.setDrv n x).logbook = s.logbook ∧ (s.setDrv n x).causes = s.causes ∧
    (s.setDrv n x).lastRec = s.lastRec ∧ (s.setDrv n x).boomed = s.boomed ∧ (s.setDrv n x).laid = s.laid ∧
    (s.setDrv n x).flips = s.flips ∧ (s.setDrv n x).poison = s.poison ∧ (s.setDrv n x).unitBad = s.unitBad ∧
    (s.setDrv n x).scrubPos = s.scrubPos ∧ (s.setDrv n x).scrubDue = s.scrubDue ∧ (s.setDrv n x).scrubAt = s.scrubAt ∧
    (s.setDrv n x).lantern = s.lantern ∧ (s.setDrv n x).lanternAt = s.lanternAt ∧ (s.setDrv n x).tide = s.tide ∧
    (s.setDrv n x).tideArmed = s.tideArmed ∧ (s.setDrv n x).tideOwner = s.tideOwner ∧ (s.setDrv n x).decided = s.decided ∧
    (s.setDrv n x).issued = s.issued ∧ (s.setDrv n x).issueLog = s.issueLog ∧ (s.setDrv n x).tideFresh = s.tideFresh := by
  refine ⟨?_, ?_, ?_, ?_, ?_, ?_, ?_, ?_, ?_, ?_, ?_, ?_, ?_, ?_, ?_, ?_, ?_, ?_, ?_, ?_, ?_, ?_, ?_, ?_⟩ <;> rfl
@[simp] theorem State.setDrv_fields3 (n : Nat) (x : Drv) :
    (s.setDrv n x).tideWaits = s.tideWaits ∧ (s.setDrv n x).axDisc = s.axDisc ∧ (s.setDrv n x).hist = s.hist ∧
    (s.setDrv n x).histK = s.histK ∧ (s.setDrv n x).io = s.io ∧ (s.setDrv n x).pulses = s.pulses ∧
    (s.setDrv n x).crossings = s.crossings ∧ (s.setDrv n x).castCount = s.castCount ∧ (s.setDrv n x).jams = s.jams ∧
    (s.setDrv n x).abCauses = s.abCauses ∧ (s.setDrv n x).eng = s.eng ∧ (s.setDrv n x).graveHold = s.graveHold ∧
    (s.setDrv n x).nodeLaid = s.nodeLaid ∧ (s.setDrv n x).stn = s.stn ∧ (s.setDrv n x).rlt = s.rlt ∧
    (s.setDrv n x).marks = s.marks ∧ (s.setDrv n x).hold = s.hold ∧ (s.setDrv n x).spll = s.spll ∧
    (s.setDrv n x).ramps = s.ramps ∧ (s.setDrv n x).bl = s.bl ∧ (s.setDrv n x).bus = s.bus ∧
    (s.setDrv n x).edgeLive = s.edgeLive ∧ (s.setDrv n x).mot = s.mot ∧ (s.setDrv n x).segs = s.segs := by
  refine ⟨?_, ?_, ?_, ?_, ?_, ?_, ?_, ?_, ?_, ?_, ?_, ?_, ?_, ?_, ?_, ?_, ?_, ?_, ?_, ?_, ?_, ?_, ?_, ?_⟩ <;> rfl
@[simp] theorem State.setDrv_fields4 (n : Nat) (x : Drv) :
    (s.setDrv n x).stopWaits = s.stopWaits ∧ (s.setDrv n x).stp = s.stp ∧ (s.setDrv n x).ustep = s.ustep ∧
    (s.setDrv n x).enc = s.enc ∧ (s.setDrv n x).emu = s.emu ∧ (s.setDrv n x).loop = s.loop ∧
    (s.setDrv n x).lparam = s.lparam ∧ (s.setDrv n x).lword = s.lword ∧ (s.setDrv n x).block = s.block ∧
    (s.setDrv n x).ff = s.ff ∧ (s.setDrv n x).cap = s.cap ∧ (s.setDrv n x).capAt = s.capAt ∧ (s.setDrv n x).hv = s.hv ∧
    (s.setDrv n x).htr = s.htr ∧ (s.setDrv n x).mains = s.mains ∧ (s.setDrv n x).tEff = s.tEff ∧
    (s.setDrv n x).thermMs = s.thermMs ∧ (s.setDrv n x).hbTherm = s.hbTherm ∧ (s.setDrv n x).thrWant = s.thrWant ∧
    (s.setDrv n x).thrAt = s.thrAt ∧ (s.setDrv n x).fusAt = s.fusAt ∧ (s.setDrv n x).droopAt = s.droopAt ∧
    (s.setDrv n x).hbDroop = s.hbDroop ∧ (s.setDrv n x).sequ = s.sequ := by
  refine ⟨?_, ?_, ?_, ?_, ?_, ?_, ?_, ?_, ?_, ?_, ?_, ?_, ?_, ?_, ?_, ?_, ?_, ?_, ?_, ?_, ?_, ?_, ?_, ?_⟩ <;> rfl
@[simp] theorem State.setDrv_fields5 (n : Nat) (x : Drv) :
    (s.setDrv n x).pwr = s.pwr ∧ (s.setDrv n x).xfer = s.xfer ∧ (s.setDrv n x).fport = s.fport ∧
    (s.setDrv n x).fnode = s.fnode ∧ (s.setDrv n x).flWait = s.flWait ∧ (s.setDrv n x).raisedAt = s.raisedAt ∧
    (s.setDrv n x).layups = s.layups ∧ (s.setDrv n x).lbDue = s.lbDue := by
  refine ⟨?_, ?_, ?_, ?_, ?_, ?_, ?_, ?_⟩ <;> rfl
@[simp] theorem State.setDrv_reads (n : Nat) (x : Drv) :
    (∀ g i0 j0, (s.setDrv n x).rd g i0 j0 = s.rd g i0 j0) ∧ (∀ g i0 j0, (s.setDrv n x).lv g i0 j0 = s.lv g i0 j0) ∧
    (∀ g i0 j0, (s.setDrv n x).qv g i0 j0 = s.qv g i0 j0) ∧ (∀ g i0 j0, (s.setDrv n x).on g i0 j0 = s.on g i0 j0) ∧
    (∀ g i0 j0, (s.setDrv n x).lon g i0 j0 = s.lon g i0 j0) ∧ (∀ i0, (s.setDrv n x).isBoomed i0 = s.isBoomed i0) ∧
    (∀ i0, (s.setDrv n x).isLaid i0 = s.isLaid i0) ∧ (∀ i0, (s.setDrv n x).sqs i0 = s.sqs i0) ∧
    (∀ i0, (s.setDrv n x).eqs i0 = s.eqs i0) ∧ (∀ i0, (s.setDrv n x).mots i0 = s.mots i0) ∧
    (∀ i0, (s.setDrv n x).stps i0 = s.stps i0) ∧ (∀ i0, (s.setDrv n x).stns i0 = s.stns i0) ∧
    (∀ i0, (s.setDrv n x).bls i0 = s.bls i0) ∧ (∀ i0, (s.setDrv n x).htrs i0 = s.htrs i0) ∧
    (∀ i0, (s.setDrv n x).hvs i0 = s.hvs i0) ∧ (∀ i0, (s.setDrv n x).xfers i0 = s.xfers i0) ∧
    (∀ i0, (s.setDrv n x).loops i0 = s.loops i0) ∧ (∀ i0, (s.setDrv n x).encs i0 = s.encs i0) ∧
    (∀ i0, (s.setDrv n x).splls i0 = s.splls i0) ∧ (∀ i0, (s.setDrv n x).fports i0 = s.fports i0) ∧
    (∀ i0, (s.setDrv n x).rlts i0 = s.rlts i0) := by
  refine ⟨?_, ?_, ?_, ?_, ?_, ?_, ?_, ?_, ?_, ?_, ?_, ?_, ?_, ?_, ?_, ?_, ?_, ?_, ?_, ?_, ?_⟩ <;> intros <;> rfl
@[simp] theorem State.drvs_setDrv_self (n : Nat) (x : Drv) : (s.setDrv n x).drvs n = x := tget_tput_self ..
@[simp] theorem State.drvs_setDrv_other (n : Nat) (x : Drv) (m : Nat) (h : m ≠ n) : (s.setDrv n x).drvs m = s.drvs m := tget_tput_other _ _ _ h

@[simp] theorem State.setBus_reads (n : Nat) (x : BusGrp) :
    (∀ g i0 j0, (s.setBus n x).rd g i0 j0 = s.rd g i0 j0) ∧ (∀ g i0 j0, (s.setBus n x).lv g i0 j0 = s.lv g i0 j0) ∧
    (∀ g i0 j0, (s.setBus n x).qv g i0 j0 = s.qv g i0 j0) ∧ (∀ g i0 j0, (s.setBus n x).on g i0 j0 = s.on g i0 j0) ∧
    (∀ g i0 j0, (s.setBus n x).lon g i0 j0 = s.lon g i0 j0) ∧ (∀ i0, (s.setBus n x).isBoomed i0 = s.isBoomed i0) ∧
    (∀ i0, (s.setBus n x).isLaid i0 = s.isLaid i0) ∧ (∀ i0, (s.setBus n x).sqs i0 = s.sqs i0) ∧
    (∀ i0, (s.setBus n x).eqs i0 = s.eqs i0) ∧ (∀ i0, (s.setBus n x).drvs i0 = s.drvs i0) ∧
    (∀ i0, (s.setBus n x).mots i0 = s.mots i0) ∧ (∀ i0, (s.setBus n x).stps i0 = s.stps i0) ∧
    (∀ i0, (s.setBus n x).stns i0 = s.stns i0) ∧ (∀ i0, (s.setBus n x).bls i0 = s.bls i0) ∧
    (∀ i0, (s.setBus n x).htrs i0 = s.htrs i0) ∧ (∀ i0, (s.setBus n x).hvs i0 = s.hvs i0) ∧
    (∀ i0, (s.setBus n x).xfers i0 = s.xfers i0) ∧ (∀ i0, (s.setBus n x).loops i0 = s.loops i0) ∧
    (∀ i0, (s.setBus n x).encs i0 = s.encs i0) ∧ (∀ i0, (s.setBus n x).splls i0 = s.splls i0) ∧
    (∀ i0, (s.setBus n x).fports i0 = s.fports i0) ∧ (∀ i0, (s.setBus n x).rlts i0 = s.rlts i0) := by
  refine ⟨?_, ?_, ?_, ?_, ?_, ?_, ?_, ?_, ?_, ?_, ?_, ?_, ?_, ?_, ?_, ?_, ?_, ?_, ?_, ?_, ?_, ?_⟩ <;> intros <;> rfl
@[simp] theorem State.buss_setBus_self (n : Nat) (x : BusGrp) : (s.setBus n x).buss n = x := tget_tput_self ..
@[simp] theorem State.buss_setBus_other (n : Nat) (x : BusGrp) (m : Nat) (h : m ≠ n) : (s.setBus n x).buss m = s.buss m := tget_tput_other _ _ _ h

@[simp] theorem State.setMot_fields1 (n : Nat) (x : Mot) :
    (s.setMot n x).pending = s.pending ∧ (s.setMot n x).now = s.now ∧ (s.setMot n x).free = s.free ∧
    (s.setMot n x).out = s.out ∧ (s.setMot n x).regs = s.regs ∧ (s.setMot n x).edgeRegs = s.edgeRegs ∧
    (s.setMot n x).edgeSw = s.edgeSw ∧ (s.setMot n x).quay = s.quay ∧ (s.setMot n x).live = s.live ∧
    (s.setMot n x).wlDone = s.wlDone ∧ (s.setMot n x).post = s.post ∧ (s.setMot n x).lowLatch = s.lowLatch ∧
    (s.setMot n x).cfg = s.cfg ∧ (s.setMot n x).msixTab = s.msixTab ∧ (s.setMot n x).pf0 = s.pf0 ∧
    (s.setMot n x).pf1 = s.pf1 ∧ (s.setMot n x).sq = s.sq ∧ (s.setMot n x).eq = s.eq ∧ (s.setMot n x).rrSq = s.rrSq ∧
    (s.setMot n x).holdover = s.holdover ∧ (s.setMot n x).chartSeq = s.chartSeq ∧ (s.setMot n x).chartWant = s.chartWant ∧
    (s.setMot n x).chartMs = s.chartMs ∧ (s.setMot n x).commits = s.commits := by
  refine ⟨?_, ?_, ?_, ?_, ?_, ?_, ?_, ?_, ?_, ?_, ?_, ?_, ?_, ?_, ?_, ?_, ?_, ?_, ?_, ?_, ?_, ?_, ?_, ?_⟩ <;> rfl
@[simp] theorem State.setMot_fields2 (n : Nat) (x : Mot) :
    (s.setMot n x).boot = s.boot ∧ (s.setMot n x).flash0 = s.flash0 ∧ (s.setMot n x).flash1 = s.flash1 ∧
    (s.setMot n x).otp = s.otp ∧ (s.setMot n x).logbook = s.logbook ∧ (s.setMot n x).causes = s.causes ∧
    (s.setMot n x).lastRec = s.lastRec ∧ (s.setMot n x).boomed = s.boomed ∧ (s.setMot n x).laid = s.laid ∧
    (s.setMot n x).flips = s.flips ∧ (s.setMot n x).poison = s.poison ∧ (s.setMot n x).unitBad = s.unitBad ∧
    (s.setMot n x).scrubPos = s.scrubPos ∧ (s.setMot n x).scrubDue = s.scrubDue ∧ (s.setMot n x).scrubAt = s.scrubAt ∧
    (s.setMot n x).lantern = s.lantern ∧ (s.setMot n x).lanternAt = s.lanternAt ∧ (s.setMot n x).tide = s.tide ∧
    (s.setMot n x).tideArmed = s.tideArmed ∧ (s.setMot n x).tideOwner = s.tideOwner ∧ (s.setMot n x).decided = s.decided ∧
    (s.setMot n x).issued = s.issued ∧ (s.setMot n x).issueLog = s.issueLog ∧ (s.setMot n x).tideFresh = s.tideFresh := by
  refine ⟨?_, ?_, ?_, ?_, ?_, ?_, ?_, ?_, ?_, ?_, ?_, ?_, ?_, ?_, ?_, ?_, ?_, ?_, ?_, ?_, ?_, ?_, ?_, ?_⟩ <;> rfl
@[simp] theorem State.setMot_fields3 (n : Nat) (x : Mot) :
    (s.setMot n x).tideWaits = s.tideWaits ∧ (s.setMot n x).axDisc = s.axDisc ∧ (s.setMot n x).hist = s.hist ∧
    (s.setMot n x).histK = s.histK ∧ (s.setMot n x).io = s.io ∧ (s.setMot n x).pulses = s.pulses ∧
    (s.setMot n x).crossings = s.crossings ∧ (s.setMot n x).castCount = s.castCount ∧ (s.setMot n x).jams = s.jams ∧
    (s.setMot n x).abCauses = s.abCauses ∧ (s.setMot n x).eng = s.eng ∧ (s.setMot n x).graveHold = s.graveHold ∧
    (s.setMot n x).nodeLaid = s.nodeLaid ∧ (s.setMot n x).stn = s.stn ∧ (s.setMot n x).rlt = s.rlt ∧
    (s.setMot n x).marks = s.marks ∧ (s.setMot n x).hold = s.hold ∧ (s.setMot n x).spll = s.spll ∧
    (s.setMot n x).ramps = s.ramps ∧ (s.setMot n x).bl = s.bl ∧ (s.setMot n x).drv = s.drv ∧ (s.setMot n x).bus = s.bus ∧
    (s.setMot n x).edgeLive = s.edgeLive ∧ (s.setMot n x).segs = s.segs := by
  refine ⟨?_, ?_, ?_, ?_, ?_, ?_, ?_, ?_, ?_, ?_, ?_, ?_, ?_, ?_, ?_, ?_, ?_, ?_, ?_, ?_, ?_, ?_, ?_, ?_⟩ <;> rfl
@[simp] theorem State.setMot_fields4 (n : Nat) (x : Mot) :
    (s.setMot n x).stopWaits = s.stopWaits ∧ (s.setMot n x).stp = s.stp ∧ (s.setMot n x).ustep = s.ustep ∧
    (s.setMot n x).enc = s.enc ∧ (s.setMot n x).emu = s.emu ∧ (s.setMot n x).loop = s.loop ∧
    (s.setMot n x).lparam = s.lparam ∧ (s.setMot n x).lword = s.lword ∧ (s.setMot n x).block = s.block ∧
    (s.setMot n x).ff = s.ff ∧ (s.setMot n x).cap = s.cap ∧ (s.setMot n x).capAt = s.capAt ∧ (s.setMot n x).hv = s.hv ∧
    (s.setMot n x).htr = s.htr ∧ (s.setMot n x).mains = s.mains ∧ (s.setMot n x).tEff = s.tEff ∧
    (s.setMot n x).thermMs = s.thermMs ∧ (s.setMot n x).hbTherm = s.hbTherm ∧ (s.setMot n x).thrWant = s.thrWant ∧
    (s.setMot n x).thrAt = s.thrAt ∧ (s.setMot n x).fusAt = s.fusAt ∧ (s.setMot n x).droopAt = s.droopAt ∧
    (s.setMot n x).hbDroop = s.hbDroop ∧ (s.setMot n x).sequ = s.sequ := by
  refine ⟨?_, ?_, ?_, ?_, ?_, ?_, ?_, ?_, ?_, ?_, ?_, ?_, ?_, ?_, ?_, ?_, ?_, ?_, ?_, ?_, ?_, ?_, ?_, ?_⟩ <;> rfl
@[simp] theorem State.setMot_fields5 (n : Nat) (x : Mot) :
    (s.setMot n x).pwr = s.pwr ∧ (s.setMot n x).xfer = s.xfer ∧ (s.setMot n x).fport = s.fport ∧
    (s.setMot n x).fnode = s.fnode ∧ (s.setMot n x).flWait = s.flWait ∧ (s.setMot n x).raisedAt = s.raisedAt ∧
    (s.setMot n x).layups = s.layups ∧ (s.setMot n x).lbDue = s.lbDue := by
  refine ⟨?_, ?_, ?_, ?_, ?_, ?_, ?_, ?_⟩ <;> rfl
@[simp] theorem State.setMot_reads (n : Nat) (x : Mot) :
    (∀ g i0 j0, (s.setMot n x).rd g i0 j0 = s.rd g i0 j0) ∧ (∀ g i0 j0, (s.setMot n x).lv g i0 j0 = s.lv g i0 j0) ∧
    (∀ g i0 j0, (s.setMot n x).qv g i0 j0 = s.qv g i0 j0) ∧ (∀ g i0 j0, (s.setMot n x).on g i0 j0 = s.on g i0 j0) ∧
    (∀ g i0 j0, (s.setMot n x).lon g i0 j0 = s.lon g i0 j0) ∧ (∀ i0, (s.setMot n x).isBoomed i0 = s.isBoomed i0) ∧
    (∀ i0, (s.setMot n x).isLaid i0 = s.isLaid i0) ∧ (∀ i0, (s.setMot n x).sqs i0 = s.sqs i0) ∧
    (∀ i0, (s.setMot n x).eqs i0 = s.eqs i0) ∧ (∀ i0, (s.setMot n x).drvs i0 = s.drvs i0) ∧
    (∀ i0, (s.setMot n x).stps i0 = s.stps i0) ∧ (∀ i0, (s.setMot n x).stns i0 = s.stns i0) ∧
    (∀ i0, (s.setMot n x).bls i0 = s.bls i0) ∧ (∀ i0, (s.setMot n x).htrs i0 = s.htrs i0) ∧
    (∀ i0, (s.setMot n x).hvs i0 = s.hvs i0) ∧ (∀ i0, (s.setMot n x).xfers i0 = s.xfers i0) ∧
    (∀ i0, (s.setMot n x).loops i0 = s.loops i0) ∧ (∀ i0, (s.setMot n x).encs i0 = s.encs i0) ∧
    (∀ i0, (s.setMot n x).splls i0 = s.splls i0) ∧ (∀ i0, (s.setMot n x).fports i0 = s.fports i0) ∧
    (∀ i0, (s.setMot n x).rlts i0 = s.rlts i0) := by
  refine ⟨?_, ?_, ?_, ?_, ?_, ?_, ?_, ?_, ?_, ?_, ?_, ?_, ?_, ?_, ?_, ?_, ?_, ?_, ?_, ?_, ?_⟩ <;> intros <;> rfl
@[simp] theorem State.mots_setMot_self (n : Nat) (x : Mot) : (s.setMot n x).mots n = x := tget_tput_self ..
@[simp] theorem State.mots_setMot_other (n : Nat) (x : Mot) (m : Nat) (h : m ≠ n) : (s.setMot n x).mots m = s.mots m := tget_tput_other _ _ _ h

@[simp] theorem State.setStp_fields1 (n : Nat) (x : Stp) :
    (s.setStp n x).pending = s.pending ∧ (s.setStp n x).now = s.now ∧ (s.setStp n x).free = s.free ∧
    (s.setStp n x).out = s.out ∧ (s.setStp n x).regs = s.regs ∧ (s.setStp n x).edgeRegs = s.edgeRegs ∧
    (s.setStp n x).edgeSw = s.edgeSw ∧ (s.setStp n x).quay = s.quay ∧ (s.setStp n x).live = s.live ∧
    (s.setStp n x).wlDone = s.wlDone ∧ (s.setStp n x).post = s.post ∧ (s.setStp n x).lowLatch = s.lowLatch ∧
    (s.setStp n x).cfg = s.cfg ∧ (s.setStp n x).msixTab = s.msixTab ∧ (s.setStp n x).pf0 = s.pf0 ∧
    (s.setStp n x).pf1 = s.pf1 ∧ (s.setStp n x).sq = s.sq ∧ (s.setStp n x).eq = s.eq ∧ (s.setStp n x).rrSq = s.rrSq ∧
    (s.setStp n x).holdover = s.holdover ∧ (s.setStp n x).chartSeq = s.chartSeq ∧ (s.setStp n x).chartWant = s.chartWant ∧
    (s.setStp n x).chartMs = s.chartMs ∧ (s.setStp n x).commits = s.commits := by
  refine ⟨?_, ?_, ?_, ?_, ?_, ?_, ?_, ?_, ?_, ?_, ?_, ?_, ?_, ?_, ?_, ?_, ?_, ?_, ?_, ?_, ?_, ?_, ?_, ?_⟩ <;> rfl
@[simp] theorem State.setStp_fields2 (n : Nat) (x : Stp) :
    (s.setStp n x).boot = s.boot ∧ (s.setStp n x).flash0 = s.flash0 ∧ (s.setStp n x).flash1 = s.flash1 ∧
    (s.setStp n x).otp = s.otp ∧ (s.setStp n x).logbook = s.logbook ∧ (s.setStp n x).causes = s.causes ∧
    (s.setStp n x).lastRec = s.lastRec ∧ (s.setStp n x).boomed = s.boomed ∧ (s.setStp n x).laid = s.laid ∧
    (s.setStp n x).flips = s.flips ∧ (s.setStp n x).poison = s.poison ∧ (s.setStp n x).unitBad = s.unitBad ∧
    (s.setStp n x).scrubPos = s.scrubPos ∧ (s.setStp n x).scrubDue = s.scrubDue ∧ (s.setStp n x).scrubAt = s.scrubAt ∧
    (s.setStp n x).lantern = s.lantern ∧ (s.setStp n x).lanternAt = s.lanternAt ∧ (s.setStp n x).tide = s.tide ∧
    (s.setStp n x).tideArmed = s.tideArmed ∧ (s.setStp n x).tideOwner = s.tideOwner ∧ (s.setStp n x).decided = s.decided ∧
    (s.setStp n x).issued = s.issued ∧ (s.setStp n x).issueLog = s.issueLog ∧ (s.setStp n x).tideFresh = s.tideFresh := by
  refine ⟨?_, ?_, ?_, ?_, ?_, ?_, ?_, ?_, ?_, ?_, ?_, ?_, ?_, ?_, ?_, ?_, ?_, ?_, ?_, ?_, ?_, ?_, ?_, ?_⟩ <;> rfl
@[simp] theorem State.setStp_fields3 (n : Nat) (x : Stp) :
    (s.setStp n x).tideWaits = s.tideWaits ∧ (s.setStp n x).axDisc = s.axDisc ∧ (s.setStp n x).hist = s.hist ∧
    (s.setStp n x).histK = s.histK ∧ (s.setStp n x).io = s.io ∧ (s.setStp n x).pulses = s.pulses ∧
    (s.setStp n x).crossings = s.crossings ∧ (s.setStp n x).castCount = s.castCount ∧ (s.setStp n x).jams = s.jams ∧
    (s.setStp n x).abCauses = s.abCauses ∧ (s.setStp n x).eng = s.eng ∧ (s.setStp n x).graveHold = s.graveHold ∧
    (s.setStp n x).nodeLaid = s.nodeLaid ∧ (s.setStp n x).stn = s.stn ∧ (s.setStp n x).rlt = s.rlt ∧
    (s.setStp n x).marks = s.marks ∧ (s.setStp n x).hold = s.hold ∧ (s.setStp n x).spll = s.spll ∧
    (s.setStp n x).ramps = s.ramps ∧ (s.setStp n x).bl = s.bl ∧ (s.setStp n x).drv = s.drv ∧ (s.setStp n x).bus = s.bus ∧
    (s.setStp n x).edgeLive = s.edgeLive ∧ (s.setStp n x).mot = s.mot := by
  refine ⟨?_, ?_, ?_, ?_, ?_, ?_, ?_, ?_, ?_, ?_, ?_, ?_, ?_, ?_, ?_, ?_, ?_, ?_, ?_, ?_, ?_, ?_, ?_, ?_⟩ <;> rfl
@[simp] theorem State.setStp_fields4 (n : Nat) (x : Stp) :
    (s.setStp n x).segs = s.segs ∧ (s.setStp n x).stopWaits = s.stopWaits ∧ (s.setStp n x).ustep = s.ustep ∧
    (s.setStp n x).enc = s.enc ∧ (s.setStp n x).emu = s.emu ∧ (s.setStp n x).loop = s.loop ∧
    (s.setStp n x).lparam = s.lparam ∧ (s.setStp n x).lword = s.lword ∧ (s.setStp n x).block = s.block ∧
    (s.setStp n x).ff = s.ff ∧ (s.setStp n x).cap = s.cap ∧ (s.setStp n x).capAt = s.capAt ∧ (s.setStp n x).hv = s.hv ∧
    (s.setStp n x).htr = s.htr ∧ (s.setStp n x).mains = s.mains ∧ (s.setStp n x).tEff = s.tEff ∧
    (s.setStp n x).thermMs = s.thermMs ∧ (s.setStp n x).hbTherm = s.hbTherm ∧ (s.setStp n x).thrWant = s.thrWant ∧
    (s.setStp n x).thrAt = s.thrAt ∧ (s.setStp n x).fusAt = s.fusAt ∧ (s.setStp n x).droopAt = s.droopAt ∧
    (s.setStp n x).hbDroop = s.hbDroop ∧ (s.setStp n x).sequ = s.sequ := by
  refine ⟨?_, ?_, ?_, ?_, ?_, ?_, ?_, ?_, ?_, ?_, ?_, ?_, ?_, ?_, ?_, ?_, ?_, ?_, ?_, ?_, ?_, ?_, ?_, ?_⟩ <;> rfl
@[simp] theorem State.setStp_fields5 (n : Nat) (x : Stp) :
    (s.setStp n x).pwr = s.pwr ∧ (s.setStp n x).xfer = s.xfer ∧ (s.setStp n x).fport = s.fport ∧
    (s.setStp n x).fnode = s.fnode ∧ (s.setStp n x).flWait = s.flWait ∧ (s.setStp n x).raisedAt = s.raisedAt ∧
    (s.setStp n x).layups = s.layups ∧ (s.setStp n x).lbDue = s.lbDue := by
  refine ⟨?_, ?_, ?_, ?_, ?_, ?_, ?_, ?_⟩ <;> rfl
@[simp] theorem State.setStp_reads (n : Nat) (x : Stp) :
    (∀ g i0 j0, (s.setStp n x).rd g i0 j0 = s.rd g i0 j0) ∧ (∀ g i0 j0, (s.setStp n x).lv g i0 j0 = s.lv g i0 j0) ∧
    (∀ g i0 j0, (s.setStp n x).qv g i0 j0 = s.qv g i0 j0) ∧ (∀ g i0 j0, (s.setStp n x).on g i0 j0 = s.on g i0 j0) ∧
    (∀ g i0 j0, (s.setStp n x).lon g i0 j0 = s.lon g i0 j0) ∧ (∀ i0, (s.setStp n x).isBoomed i0 = s.isBoomed i0) ∧
    (∀ i0, (s.setStp n x).isLaid i0 = s.isLaid i0) ∧ (∀ i0, (s.setStp n x).sqs i0 = s.sqs i0) ∧
    (∀ i0, (s.setStp n x).eqs i0 = s.eqs i0) ∧ (∀ i0, (s.setStp n x).drvs i0 = s.drvs i0) ∧
    (∀ i0, (s.setStp n x).mots i0 = s.mots i0) ∧ (∀ i0, (s.setStp n x).stns i0 = s.stns i0) ∧
    (∀ i0, (s.setStp n x).bls i0 = s.bls i0) ∧ (∀ i0, (s.setStp n x).htrs i0 = s.htrs i0) ∧
    (∀ i0, (s.setStp n x).hvs i0 = s.hvs i0) ∧ (∀ i0, (s.setStp n x).xfers i0 = s.xfers i0) ∧
    (∀ i0, (s.setStp n x).loops i0 = s.loops i0) ∧ (∀ i0, (s.setStp n x).encs i0 = s.encs i0) ∧
    (∀ i0, (s.setStp n x).splls i0 = s.splls i0) ∧ (∀ i0, (s.setStp n x).fports i0 = s.fports i0) ∧
    (∀ i0, (s.setStp n x).rlts i0 = s.rlts i0) := by
  refine ⟨?_, ?_, ?_, ?_, ?_, ?_, ?_, ?_, ?_, ?_, ?_, ?_, ?_, ?_, ?_, ?_, ?_, ?_, ?_, ?_, ?_⟩ <;> intros <;> rfl
@[simp] theorem State.stps_setStp_self (n : Nat) (x : Stp) : (s.setStp n x).stps n = x := tget_tput_self ..
@[simp] theorem State.stps_setStp_other (n : Nat) (x : Stp) (m : Nat) (h : m ≠ n) : (s.setStp n x).stps m = s.stps m := tget_tput_other _ _ _ h

@[simp] theorem State.setStn_fields1 (n : Nat) (x : Stn) :
    (s.setStn n x).pending = s.pending ∧ (s.setStn n x).now = s.now ∧ (s.setStn n x).free = s.free ∧
    (s.setStn n x).out = s.out ∧ (s.setStn n x).regs = s.regs ∧ (s.setStn n x).edgeRegs = s.edgeRegs ∧
    (s.setStn n x).edgeSw = s.edgeSw ∧ (s.setStn n x).quay = s.quay ∧ (s.setStn n x).live = s.live ∧
    (s.setStn n x).wlDone = s.wlDone ∧ (s.setStn n x).post = s.post ∧ (s.setStn n x).lowLatch = s.lowLatch ∧
    (s.setStn n x).cfg = s.cfg ∧ (s.setStn n x).msixTab = s.msixTab ∧ (s.setStn n x).pf0 = s.pf0 ∧
    (s.setStn n x).pf1 = s.pf1 ∧ (s.setStn n x).sq = s.sq ∧ (s.setStn n x).eq = s.eq ∧ (s.setStn n x).rrSq = s.rrSq ∧
    (s.setStn n x).holdover = s.holdover ∧ (s.setStn n x).chartSeq = s.chartSeq ∧ (s.setStn n x).chartWant = s.chartWant ∧
    (s.setStn n x).chartMs = s.chartMs ∧ (s.setStn n x).commits = s.commits := by
  refine ⟨?_, ?_, ?_, ?_, ?_, ?_, ?_, ?_, ?_, ?_, ?_, ?_, ?_, ?_, ?_, ?_, ?_, ?_, ?_, ?_, ?_, ?_, ?_, ?_⟩ <;> rfl
@[simp] theorem State.setStn_fields2 (n : Nat) (x : Stn) :
    (s.setStn n x).boot = s.boot ∧ (s.setStn n x).flash0 = s.flash0 ∧ (s.setStn n x).flash1 = s.flash1 ∧
    (s.setStn n x).otp = s.otp ∧ (s.setStn n x).logbook = s.logbook ∧ (s.setStn n x).causes = s.causes ∧
    (s.setStn n x).lastRec = s.lastRec ∧ (s.setStn n x).boomed = s.boomed ∧ (s.setStn n x).laid = s.laid ∧
    (s.setStn n x).flips = s.flips ∧ (s.setStn n x).poison = s.poison ∧ (s.setStn n x).unitBad = s.unitBad ∧
    (s.setStn n x).scrubPos = s.scrubPos ∧ (s.setStn n x).scrubDue = s.scrubDue ∧ (s.setStn n x).scrubAt = s.scrubAt ∧
    (s.setStn n x).lantern = s.lantern ∧ (s.setStn n x).lanternAt = s.lanternAt ∧ (s.setStn n x).tide = s.tide ∧
    (s.setStn n x).tideArmed = s.tideArmed ∧ (s.setStn n x).tideOwner = s.tideOwner ∧ (s.setStn n x).decided = s.decided ∧
    (s.setStn n x).issued = s.issued ∧ (s.setStn n x).issueLog = s.issueLog ∧ (s.setStn n x).tideFresh = s.tideFresh := by
  refine ⟨?_, ?_, ?_, ?_, ?_, ?_, ?_, ?_, ?_, ?_, ?_, ?_, ?_, ?_, ?_, ?_, ?_, ?_, ?_, ?_, ?_, ?_, ?_, ?_⟩ <;> rfl
@[simp] theorem State.setStn_fields3 (n : Nat) (x : Stn) :
    (s.setStn n x).tideWaits = s.tideWaits ∧ (s.setStn n x).axDisc = s.axDisc ∧ (s.setStn n x).hist = s.hist ∧
    (s.setStn n x).histK = s.histK ∧ (s.setStn n x).io = s.io ∧ (s.setStn n x).pulses = s.pulses ∧
    (s.setStn n x).crossings = s.crossings ∧ (s.setStn n x).castCount = s.castCount ∧ (s.setStn n x).jams = s.jams ∧
    (s.setStn n x).abCauses = s.abCauses ∧ (s.setStn n x).eng = s.eng ∧ (s.setStn n x).graveHold = s.graveHold ∧
    (s.setStn n x).nodeLaid = s.nodeLaid ∧ (s.setStn n x).rlt = s.rlt ∧ (s.setStn n x).marks = s.marks ∧
    (s.setStn n x).hold = s.hold ∧ (s.setStn n x).spll = s.spll ∧ (s.setStn n x).ramps = s.ramps ∧
    (s.setStn n x).bl = s.bl ∧ (s.setStn n x).drv = s.drv ∧ (s.setStn n x).bus = s.bus ∧
    (s.setStn n x).edgeLive = s.edgeLive ∧ (s.setStn n x).mot = s.mot ∧ (s.setStn n x).segs = s.segs := by
  refine ⟨?_, ?_, ?_, ?_, ?_, ?_, ?_, ?_, ?_, ?_, ?_, ?_, ?_, ?_, ?_, ?_, ?_, ?_, ?_, ?_, ?_, ?_, ?_, ?_⟩ <;> rfl
@[simp] theorem State.setStn_fields4 (n : Nat) (x : Stn) :
    (s.setStn n x).stopWaits = s.stopWaits ∧ (s.setStn n x).stp = s.stp ∧ (s.setStn n x).ustep = s.ustep ∧
    (s.setStn n x).enc = s.enc ∧ (s.setStn n x).emu = s.emu ∧ (s.setStn n x).loop = s.loop ∧
    (s.setStn n x).lparam = s.lparam ∧ (s.setStn n x).lword = s.lword ∧ (s.setStn n x).block = s.block ∧
    (s.setStn n x).ff = s.ff ∧ (s.setStn n x).cap = s.cap ∧ (s.setStn n x).capAt = s.capAt ∧ (s.setStn n x).hv = s.hv ∧
    (s.setStn n x).htr = s.htr ∧ (s.setStn n x).mains = s.mains ∧ (s.setStn n x).tEff = s.tEff ∧
    (s.setStn n x).thermMs = s.thermMs ∧ (s.setStn n x).hbTherm = s.hbTherm ∧ (s.setStn n x).thrWant = s.thrWant ∧
    (s.setStn n x).thrAt = s.thrAt ∧ (s.setStn n x).fusAt = s.fusAt ∧ (s.setStn n x).droopAt = s.droopAt ∧
    (s.setStn n x).hbDroop = s.hbDroop ∧ (s.setStn n x).sequ = s.sequ := by
  refine ⟨?_, ?_, ?_, ?_, ?_, ?_, ?_, ?_, ?_, ?_, ?_, ?_, ?_, ?_, ?_, ?_, ?_, ?_, ?_, ?_, ?_, ?_, ?_, ?_⟩ <;> rfl
@[simp] theorem State.setStn_fields5 (n : Nat) (x : Stn) :
    (s.setStn n x).pwr = s.pwr ∧ (s.setStn n x).xfer = s.xfer ∧ (s.setStn n x).fport = s.fport ∧
    (s.setStn n x).fnode = s.fnode ∧ (s.setStn n x).flWait = s.flWait ∧ (s.setStn n x).raisedAt = s.raisedAt ∧
    (s.setStn n x).layups = s.layups ∧ (s.setStn n x).lbDue = s.lbDue := by
  refine ⟨?_, ?_, ?_, ?_, ?_, ?_, ?_, ?_⟩ <;> rfl
@[simp] theorem State.setStn_reads (n : Nat) (x : Stn) :
    (∀ g i0 j0, (s.setStn n x).rd g i0 j0 = s.rd g i0 j0) ∧ (∀ g i0 j0, (s.setStn n x).lv g i0 j0 = s.lv g i0 j0) ∧
    (∀ g i0 j0, (s.setStn n x).qv g i0 j0 = s.qv g i0 j0) ∧ (∀ g i0 j0, (s.setStn n x).on g i0 j0 = s.on g i0 j0) ∧
    (∀ g i0 j0, (s.setStn n x).lon g i0 j0 = s.lon g i0 j0) ∧ (∀ i0, (s.setStn n x).isBoomed i0 = s.isBoomed i0) ∧
    (∀ i0, (s.setStn n x).isLaid i0 = s.isLaid i0) ∧ (∀ i0, (s.setStn n x).sqs i0 = s.sqs i0) ∧
    (∀ i0, (s.setStn n x).eqs i0 = s.eqs i0) ∧ (∀ i0, (s.setStn n x).drvs i0 = s.drvs i0) ∧
    (∀ i0, (s.setStn n x).mots i0 = s.mots i0) ∧ (∀ i0, (s.setStn n x).stps i0 = s.stps i0) ∧
    (∀ i0, (s.setStn n x).bls i0 = s.bls i0) ∧ (∀ i0, (s.setStn n x).htrs i0 = s.htrs i0) ∧
    (∀ i0, (s.setStn n x).hvs i0 = s.hvs i0) ∧ (∀ i0, (s.setStn n x).xfers i0 = s.xfers i0) ∧
    (∀ i0, (s.setStn n x).loops i0 = s.loops i0) ∧ (∀ i0, (s.setStn n x).encs i0 = s.encs i0) ∧
    (∀ i0, (s.setStn n x).splls i0 = s.splls i0) ∧ (∀ i0, (s.setStn n x).fports i0 = s.fports i0) ∧
    (∀ i0, (s.setStn n x).rlts i0 = s.rlts i0) := by
  refine ⟨?_, ?_, ?_, ?_, ?_, ?_, ?_, ?_, ?_, ?_, ?_, ?_, ?_, ?_, ?_, ?_, ?_, ?_, ?_, ?_, ?_⟩ <;> intros <;> rfl
@[simp] theorem State.stns_setStn_self (n : Nat) (x : Stn) : (s.setStn n x).stns n = x := tget_tput_self ..
@[simp] theorem State.stns_setStn_other (n : Nat) (x : Stn) (m : Nat) (h : m ≠ n) : (s.setStn n x).stns m = s.stns m := tget_tput_other _ _ _ h

@[simp] theorem State.setBl_reads (n : Nat) (x : Bl) :
    (∀ g i0 j0, (s.setBl n x).rd g i0 j0 = s.rd g i0 j0) ∧ (∀ g i0 j0, (s.setBl n x).lv g i0 j0 = s.lv g i0 j0) ∧
    (∀ g i0 j0, (s.setBl n x).qv g i0 j0 = s.qv g i0 j0) ∧ (∀ g i0 j0, (s.setBl n x).on g i0 j0 = s.on g i0 j0) ∧
    (∀ g i0 j0, (s.setBl n x).lon g i0 j0 = s.lon g i0 j0) ∧ (∀ i0, (s.setBl n x).isBoomed i0 = s.isBoomed i0) ∧
    (∀ i0, (s.setBl n x).isLaid i0 = s.isLaid i0) ∧ (∀ i0, (s.setBl n x).sqs i0 = s.sqs i0) ∧
    (∀ i0, (s.setBl n x).eqs i0 = s.eqs i0) ∧ (∀ i0, (s.setBl n x).drvs i0 = s.drvs i0) ∧
    (∀ i0, (s.setBl n x).mots i0 = s.mots i0) ∧ (∀ i0, (s.setBl n x).stps i0 = s.stps i0) ∧
    (∀ i0, (s.setBl n x).stns i0 = s.stns i0) ∧ (∀ i0, (s.setBl n x).htrs i0 = s.htrs i0) ∧
    (∀ i0, (s.setBl n x).hvs i0 = s.hvs i0) ∧ (∀ i0, (s.setBl n x).xfers i0 = s.xfers i0) ∧
    (∀ i0, (s.setBl n x).loops i0 = s.loops i0) ∧ (∀ i0, (s.setBl n x).encs i0 = s.encs i0) ∧
    (∀ i0, (s.setBl n x).splls i0 = s.splls i0) ∧ (∀ i0, (s.setBl n x).fports i0 = s.fports i0) ∧
    (∀ i0, (s.setBl n x).rlts i0 = s.rlts i0) := by
  refine ⟨?_, ?_, ?_, ?_, ?_, ?_, ?_, ?_, ?_, ?_, ?_, ?_, ?_, ?_, ?_, ?_, ?_, ?_, ?_, ?_, ?_⟩ <;> intros <;> rfl
@[simp] theorem State.bls_setBl_self (n : Nat) (x : Bl) : (s.setBl n x).bls n = x := tget_tput_self ..
@[simp] theorem State.bls_setBl_other (n : Nat) (x : Bl) (m : Nat) (h : m ≠ n) : (s.setBl n x).bls m = s.bls m := tget_tput_other _ _ _ h

@[simp] theorem State.setHtr_reads (n : Nat) (x : Htr) :
    (∀ g i0 j0, (s.setHtr n x).rd g i0 j0 = s.rd g i0 j0) ∧ (∀ g i0 j0, (s.setHtr n x).lv g i0 j0 = s.lv g i0 j0) ∧
    (∀ g i0 j0, (s.setHtr n x).qv g i0 j0 = s.qv g i0 j0) ∧ (∀ g i0 j0, (s.setHtr n x).on g i0 j0 = s.on g i0 j0) ∧
    (∀ g i0 j0, (s.setHtr n x).lon g i0 j0 = s.lon g i0 j0) ∧ (∀ i0, (s.setHtr n x).isBoomed i0 = s.isBoomed i0) ∧
    (∀ i0, (s.setHtr n x).isLaid i0 = s.isLaid i0) ∧ (∀ i0, (s.setHtr n x).sqs i0 = s.sqs i0) ∧
    (∀ i0, (s.setHtr n x).eqs i0 = s.eqs i0) ∧ (∀ i0, (s.setHtr n x).drvs i0 = s.drvs i0) ∧
    (∀ i0, (s.setHtr n x).mots i0 = s.mots i0) ∧ (∀ i0, (s.setHtr n x).stps i0 = s.stps i0) ∧
    (∀ i0, (s.setHtr n x).stns i0 = s.stns i0) ∧ (∀ i0, (s.setHtr n x).bls i0 = s.bls i0) ∧
    (∀ i0, (s.setHtr n x).hvs i0 = s.hvs i0) ∧ (∀ i0, (s.setHtr n x).xfers i0 = s.xfers i0) ∧
    (∀ i0, (s.setHtr n x).loops i0 = s.loops i0) ∧ (∀ i0, (s.setHtr n x).encs i0 = s.encs i0) ∧
    (∀ i0, (s.setHtr n x).splls i0 = s.splls i0) ∧ (∀ i0, (s.setHtr n x).fports i0 = s.fports i0) ∧
    (∀ i0, (s.setHtr n x).rlts i0 = s.rlts i0) := by
  refine ⟨?_, ?_, ?_, ?_, ?_, ?_, ?_, ?_, ?_, ?_, ?_, ?_, ?_, ?_, ?_, ?_, ?_, ?_, ?_, ?_, ?_⟩ <;> intros <;> rfl
@[simp] theorem State.htrs_setHtr_self (n : Nat) (x : Htr) : (s.setHtr n x).htrs n = x := tget_tput_self ..
@[simp] theorem State.htrs_setHtr_other (n : Nat) (x : Htr) (m : Nat) (h : m ≠ n) : (s.setHtr n x).htrs m = s.htrs m := tget_tput_other _ _ _ h

@[simp] theorem State.setLoop_reads (n : Nat) (x : Loop) :
    (∀ g i0 j0, (s.setLoop n x).rd g i0 j0 = s.rd g i0 j0) ∧ (∀ g i0 j0, (s.setLoop n x).lv g i0 j0 = s.lv g i0 j0) ∧
    (∀ g i0 j0, (s.setLoop n x).qv g i0 j0 = s.qv g i0 j0) ∧ (∀ g i0 j0, (s.setLoop n x).on g i0 j0 = s.on g i0 j0) ∧
    (∀ g i0 j0, (s.setLoop n x).lon g i0 j0 = s.lon g i0 j0) ∧ (∀ i0, (s.setLoop n x).isBoomed i0 = s.isBoomed i0) ∧
    (∀ i0, (s.setLoop n x).isLaid i0 = s.isLaid i0) ∧ (∀ i0, (s.setLoop n x).sqs i0 = s.sqs i0) ∧
    (∀ i0, (s.setLoop n x).eqs i0 = s.eqs i0) ∧ (∀ i0, (s.setLoop n x).drvs i0 = s.drvs i0) ∧
    (∀ i0, (s.setLoop n x).mots i0 = s.mots i0) ∧ (∀ i0, (s.setLoop n x).stps i0 = s.stps i0) ∧
    (∀ i0, (s.setLoop n x).stns i0 = s.stns i0) ∧ (∀ i0, (s.setLoop n x).bls i0 = s.bls i0) ∧
    (∀ i0, (s.setLoop n x).htrs i0 = s.htrs i0) ∧ (∀ i0, (s.setLoop n x).hvs i0 = s.hvs i0) ∧
    (∀ i0, (s.setLoop n x).xfers i0 = s.xfers i0) ∧ (∀ i0, (s.setLoop n x).encs i0 = s.encs i0) ∧
    (∀ i0, (s.setLoop n x).splls i0 = s.splls i0) ∧ (∀ i0, (s.setLoop n x).fports i0 = s.fports i0) ∧
    (∀ i0, (s.setLoop n x).rlts i0 = s.rlts i0) := by
  refine ⟨?_, ?_, ?_, ?_, ?_, ?_, ?_, ?_, ?_, ?_, ?_, ?_, ?_, ?_, ?_, ?_, ?_, ?_, ?_, ?_, ?_⟩ <;> intros <;> rfl
@[simp] theorem State.loops_setLoop_self (n : Nat) (x : Loop) : (s.setLoop n x).loops n = x := tget_tput_self ..
@[simp] theorem State.loops_setLoop_other (n : Nat) (x : Loop) (m : Nat) (h : m ≠ n) : (s.setLoop n x).loops m = s.loops m := tget_tput_other _ _ _ h

@[simp] theorem State.setCap_reads (n : Nat) (x : Cap) :
    (∀ g i0 j0, (s.setCap n x).rd g i0 j0 = s.rd g i0 j0) ∧ (∀ g i0 j0, (s.setCap n x).lv g i0 j0 = s.lv g i0 j0) ∧
    (∀ g i0 j0, (s.setCap n x).qv g i0 j0 = s.qv g i0 j0) ∧ (∀ g i0 j0, (s.setCap n x).on g i0 j0 = s.on g i0 j0) ∧
    (∀ g i0 j0, (s.setCap n x).lon g i0 j0 = s.lon g i0 j0) ∧ (∀ i0, (s.setCap n x).isBoomed i0 = s.isBoomed i0) ∧
    (∀ i0, (s.setCap n x).isLaid i0 = s.isLaid i0) ∧ (∀ i0, (s.setCap n x).sqs i0 = s.sqs i0) ∧
    (∀ i0, (s.setCap n x).eqs i0 = s.eqs i0) ∧ (∀ i0, (s.setCap n x).drvs i0 = s.drvs i0) ∧
    (∀ i0, (s.setCap n x).mots i0 = s.mots i0) ∧ (∀ i0, (s.setCap n x).stps i0 = s.stps i0) ∧
    (∀ i0, (s.setCap n x).stns i0 = s.stns i0) ∧ (∀ i0, (s.setCap n x).bls i0 = s.bls i0) ∧
    (∀ i0, (s.setCap n x).htrs i0 = s.htrs i0) ∧ (∀ i0, (s.setCap n x).hvs i0 = s.hvs i0) ∧
    (∀ i0, (s.setCap n x).xfers i0 = s.xfers i0) ∧ (∀ i0, (s.setCap n x).loops i0 = s.loops i0) ∧
    (∀ i0, (s.setCap n x).encs i0 = s.encs i0) ∧ (∀ i0, (s.setCap n x).splls i0 = s.splls i0) ∧
    (∀ i0, (s.setCap n x).fports i0 = s.fports i0) ∧ (∀ i0, (s.setCap n x).rlts i0 = s.rlts i0) := by
  refine ⟨?_, ?_, ?_, ?_, ?_, ?_, ?_, ?_, ?_, ?_, ?_, ?_, ?_, ?_, ?_, ?_, ?_, ?_, ?_, ?_, ?_, ?_⟩ <;> intros <;> rfl
@[simp] theorem State.caps_setCap_self (n : Nat) (x : Cap) : (s.setCap n x).caps n = x := tget_tput_self ..
@[simp] theorem State.caps_setCap_other (n : Nat) (x : Cap) (m : Nat) (h : m ≠ n) : (s.setCap n x).caps m = s.caps m := tget_tput_other _ _ _ h

@[simp] theorem State.setRlt_reads (n : Nat) (x : RLt) :
    (∀ g i0 j0, (s.setRlt n x).rd g i0 j0 = s.rd g i0 j0) ∧ (∀ g i0 j0, (s.setRlt n x).lv g i0 j0 = s.lv g i0 j0) ∧
    (∀ g i0 j0, (s.setRlt n x).qv g i0 j0 = s.qv g i0 j0) ∧ (∀ g i0 j0, (s.setRlt n x).on g i0 j0 = s.on g i0 j0) ∧
    (∀ g i0 j0, (s.setRlt n x).lon g i0 j0 = s.lon g i0 j0) ∧ (∀ i0, (s.setRlt n x).isBoomed i0 = s.isBoomed i0) ∧
    (∀ i0, (s.setRlt n x).isLaid i0 = s.isLaid i0) ∧ (∀ i0, (s.setRlt n x).sqs i0 = s.sqs i0) ∧
    (∀ i0, (s.setRlt n x).eqs i0 = s.eqs i0) ∧ (∀ i0, (s.setRlt n x).drvs i0 = s.drvs i0) ∧
    (∀ i0, (s.setRlt n x).mots i0 = s.mots i0) ∧ (∀ i0, (s.setRlt n x).stps i0 = s.stps i0) ∧
    (∀ i0, (s.setRlt n x).stns i0 = s.stns i0) ∧ (∀ i0, (s.setRlt n x).bls i0 = s.bls i0) ∧
    (∀ i0, (s.setRlt n x).htrs i0 = s.htrs i0) ∧ (∀ i0, (s.setRlt n x).hvs i0 = s.hvs i0) ∧
    (∀ i0, (s.setRlt n x).xfers i0 = s.xfers i0) ∧ (∀ i0, (s.setRlt n x).loops i0 = s.loops i0) ∧
    (∀ i0, (s.setRlt n x).encs i0 = s.encs i0) ∧ (∀ i0, (s.setRlt n x).splls i0 = s.splls i0) ∧
    (∀ i0, (s.setRlt n x).fports i0 = s.fports i0) := by
  refine ⟨?_, ?_, ?_, ?_, ?_, ?_, ?_, ?_, ?_, ?_, ?_, ?_, ?_, ?_, ?_, ?_, ?_, ?_, ?_, ?_, ?_⟩ <;> intros <;> rfl
@[simp] theorem State.rlts_setRlt_self (n : Nat) (x : RLt) : (s.setRlt n x).rlts n = x := tget_tput_self ..
@[simp] theorem State.rlts_setRlt_other (n : Nat) (x : RLt) (m : Nat) (h : m ≠ n) : (s.setRlt n x).rlts m = s.rlts m := tget_tput_other _ _ _ h

@[simp] theorem State.setSpll_reads (n : Nat) (x : Spll) :
    (∀ g i0 j0, (s.setSpll n x).rd g i0 j0 = s.rd g i0 j0) ∧ (∀ g i0 j0, (s.setSpll n x).lv g i0 j0 = s.lv g i0 j0) ∧
    (∀ g i0 j0, (s.setSpll n x).qv g i0 j0 = s.qv g i0 j0) ∧ (∀ g i0 j0, (s.setSpll n x).on g i0 j0 = s.on g i0 j0) ∧
    (∀ g i0 j0, (s.setSpll n x).lon g i0 j0 = s.lon g i0 j0) ∧ (∀ i0, (s.setSpll n x).isBoomed i0 = s.isBoomed i0) ∧
    (∀ i0, (s.setSpll n x).isLaid i0 = s.isLaid i0) ∧ (∀ i0, (s.setSpll n x).sqs i0 = s.sqs i0) ∧
    (∀ i0, (s.setSpll n x).eqs i0 = s.eqs i0) ∧ (∀ i0, (s.setSpll n x).drvs i0 = s.drvs i0) ∧
    (∀ i0, (s.setSpll n x).mots i0 = s.mots i0) ∧ (∀ i0, (s.setSpll n x).stps i0 = s.stps i0) ∧
    (∀ i0, (s.setSpll n x).stns i0 = s.stns i0) ∧ (∀ i0, (s.setSpll n x).bls i0 = s.bls i0) ∧
    (∀ i0, (s.setSpll n x).htrs i0 = s.htrs i0) ∧ (∀ i0, (s.setSpll n x).hvs i0 = s.hvs i0) ∧
    (∀ i0, (s.setSpll n x).xfers i0 = s.xfers i0) ∧ (∀ i0, (s.setSpll n x).loops i0 = s.loops i0) ∧
    (∀ i0, (s.setSpll n x).encs i0 = s.encs i0) ∧ (∀ i0, (s.setSpll n x).fports i0 = s.fports i0) ∧
    (∀ i0, (s.setSpll n x).rlts i0 = s.rlts i0) := by
  refine ⟨?_, ?_, ?_, ?_, ?_, ?_, ?_, ?_, ?_, ?_, ?_, ?_, ?_, ?_, ?_, ?_, ?_, ?_, ?_, ?_, ?_⟩ <;> intros <;> rfl
@[simp] theorem State.splls_setSpll_self (n : Nat) (x : Spll) : (s.setSpll n x).splls n = x := tget_tput_self ..
@[simp] theorem State.splls_setSpll_other (n : Nat) (x : Spll) (m : Nat) (h : m ≠ n) : (s.setSpll n x).splls m = s.splls m := tget_tput_other _ _ _ h

@[simp] theorem State.setEnc_reads (n : Nat) (x : Enc) :
    (∀ g i0 j0, (s.setEnc n x).rd g i0 j0 = s.rd g i0 j0) ∧ (∀ g i0 j0, (s.setEnc n x).lv g i0 j0 = s.lv g i0 j0) ∧
    (∀ g i0 j0, (s.setEnc n x).qv g i0 j0 = s.qv g i0 j0) ∧ (∀ g i0 j0, (s.setEnc n x).on g i0 j0 = s.on g i0 j0) ∧
    (∀ g i0 j0, (s.setEnc n x).lon g i0 j0 = s.lon g i0 j0) ∧ (∀ i0, (s.setEnc n x).isBoomed i0 = s.isBoomed i0) ∧
    (∀ i0, (s.setEnc n x).isLaid i0 = s.isLaid i0) ∧ (∀ i0, (s.setEnc n x).sqs i0 = s.sqs i0) ∧
    (∀ i0, (s.setEnc n x).eqs i0 = s.eqs i0) ∧ (∀ i0, (s.setEnc n x).drvs i0 = s.drvs i0) ∧
    (∀ i0, (s.setEnc n x).mots i0 = s.mots i0) ∧ (∀ i0, (s.setEnc n x).stps i0 = s.stps i0) ∧
    (∀ i0, (s.setEnc n x).stns i0 = s.stns i0) ∧ (∀ i0, (s.setEnc n x).bls i0 = s.bls i0) ∧
    (∀ i0, (s.setEnc n x).htrs i0 = s.htrs i0) ∧ (∀ i0, (s.setEnc n x).hvs i0 = s.hvs i0) ∧
    (∀ i0, (s.setEnc n x).xfers i0 = s.xfers i0) ∧ (∀ i0, (s.setEnc n x).loops i0 = s.loops i0) ∧
    (∀ i0, (s.setEnc n x).splls i0 = s.splls i0) ∧ (∀ i0, (s.setEnc n x).fports i0 = s.fports i0) ∧
    (∀ i0, (s.setEnc n x).rlts i0 = s.rlts i0) := by
  refine ⟨?_, ?_, ?_, ?_, ?_, ?_, ?_, ?_, ?_, ?_, ?_, ?_, ?_, ?_, ?_, ?_, ?_, ?_, ?_, ?_, ?_⟩ <;> intros <;> rfl
@[simp] theorem State.encs_setEnc_self (n : Nat) (x : Enc) : (s.setEnc n x).encs n = x := tget_tput_self ..
@[simp] theorem State.encs_setEnc_other (n : Nat) (x : Enc) (m : Nat) (h : m ≠ n) : (s.setEnc n x).encs m = s.encs m := tget_tput_other _ _ _ h

@[simp] theorem State.setEmu_reads (n : Nat) (x : Emu) :
    (∀ g i0 j0, (s.setEmu n x).rd g i0 j0 = s.rd g i0 j0) ∧ (∀ g i0 j0, (s.setEmu n x).lv g i0 j0 = s.lv g i0 j0) ∧
    (∀ g i0 j0, (s.setEmu n x).qv g i0 j0 = s.qv g i0 j0) ∧ (∀ g i0 j0, (s.setEmu n x).on g i0 j0 = s.on g i0 j0) ∧
    (∀ g i0 j0, (s.setEmu n x).lon g i0 j0 = s.lon g i0 j0) ∧ (∀ i0, (s.setEmu n x).isBoomed i0 = s.isBoomed i0) ∧
    (∀ i0, (s.setEmu n x).isLaid i0 = s.isLaid i0) ∧ (∀ i0, (s.setEmu n x).sqs i0 = s.sqs i0) ∧
    (∀ i0, (s.setEmu n x).eqs i0 = s.eqs i0) ∧ (∀ i0, (s.setEmu n x).drvs i0 = s.drvs i0) ∧
    (∀ i0, (s.setEmu n x).mots i0 = s.mots i0) ∧ (∀ i0, (s.setEmu n x).stps i0 = s.stps i0) ∧
    (∀ i0, (s.setEmu n x).stns i0 = s.stns i0) ∧ (∀ i0, (s.setEmu n x).bls i0 = s.bls i0) ∧
    (∀ i0, (s.setEmu n x).htrs i0 = s.htrs i0) ∧ (∀ i0, (s.setEmu n x).hvs i0 = s.hvs i0) ∧
    (∀ i0, (s.setEmu n x).xfers i0 = s.xfers i0) ∧ (∀ i0, (s.setEmu n x).loops i0 = s.loops i0) ∧
    (∀ i0, (s.setEmu n x).encs i0 = s.encs i0) ∧ (∀ i0, (s.setEmu n x).splls i0 = s.splls i0) ∧
    (∀ i0, (s.setEmu n x).fports i0 = s.fports i0) ∧ (∀ i0, (s.setEmu n x).rlts i0 = s.rlts i0) := by
  refine ⟨?_, ?_, ?_, ?_, ?_, ?_, ?_, ?_, ?_, ?_, ?_, ?_, ?_, ?_, ?_, ?_, ?_, ?_, ?_, ?_, ?_, ?_⟩ <;> intros <;> rfl
@[simp] theorem State.emus_setEmu_self (n : Nat) (x : Emu) : (s.setEmu n x).emus n = x := tget_tput_self ..
@[simp] theorem State.emus_setEmu_other (n : Nat) (x : Emu) (m : Nat) (h : m ≠ n) : (s.setEmu n x).emus m = s.emus m := tget_tput_other _ _ _ h

@[simp] theorem State.setFport_reads (n : Nat) (x : FPort) :
    (∀ g i0 j0, (s.setFport n x).rd g i0 j0 = s.rd g i0 j0) ∧ (∀ g i0 j0, (s.setFport n x).lv g i0 j0 = s.lv g i0 j0) ∧
    (∀ g i0 j0, (s.setFport n x).qv g i0 j0 = s.qv g i0 j0) ∧ (∀ g i0 j0, (s.setFport n x).on g i0 j0 = s.on g i0 j0) ∧
    (∀ g i0 j0, (s.setFport n x).lon g i0 j0 = s.lon g i0 j0) ∧ (∀ i0, (s.setFport n x).isBoomed i0 = s.isBoomed i0) ∧
    (∀ i0, (s.setFport n x).isLaid i0 = s.isLaid i0) ∧ (∀ i0, (s.setFport n x).sqs i0 = s.sqs i0) ∧
    (∀ i0, (s.setFport n x).eqs i0 = s.eqs i0) ∧ (∀ i0, (s.setFport n x).drvs i0 = s.drvs i0) ∧
    (∀ i0, (s.setFport n x).mots i0 = s.mots i0) ∧ (∀ i0, (s.setFport n x).stps i0 = s.stps i0) ∧
    (∀ i0, (s.setFport n x).stns i0 = s.stns i0) ∧ (∀ i0, (s.setFport n x).bls i0 = s.bls i0) ∧
    (∀ i0, (s.setFport n x).htrs i0 = s.htrs i0) ∧ (∀ i0, (s.setFport n x).hvs i0 = s.hvs i0) ∧
    (∀ i0, (s.setFport n x).xfers i0 = s.xfers i0) ∧ (∀ i0, (s.setFport n x).loops i0 = s.loops i0) ∧
    (∀ i0, (s.setFport n x).encs i0 = s.encs i0) ∧ (∀ i0, (s.setFport n x).splls i0 = s.splls i0) ∧
    (∀ i0, (s.setFport n x).rlts i0 = s.rlts i0) := by
  refine ⟨?_, ?_, ?_, ?_, ?_, ?_, ?_, ?_, ?_, ?_, ?_, ?_, ?_, ?_, ?_, ?_, ?_, ?_, ?_, ?_, ?_⟩ <;> intros <;> rfl
@[simp] theorem State.fports_setFport_self (n : Nat) (x : FPort) : (s.setFport n x).fports n = x := tget_tput_self ..
@[simp] theorem State.fports_setFport_other (n : Nat) (x : FPort) (m : Nat) (h : m ≠ n) : (s.setFport n x).fports m = s.fports m := tget_tput_other _ _ _ h

@[simp] theorem State.setXfers_reads (n : Nat) (x : List Xfer) :
    (∀ g i0 j0, (s.setXfers n x).rd g i0 j0 = s.rd g i0 j0) ∧ (∀ g i0 j0, (s.setXfers n x).lv g i0 j0 = s.lv g i0 j0) ∧
    (∀ g i0 j0, (s.setXfers n x).qv g i0 j0 = s.qv g i0 j0) ∧ (∀ g i0 j0, (s.setXfers n x).on g i0 j0 = s.on g i0 j0) ∧
    (∀ g i0 j0, (s.setXfers n x).lon g i0 j0 = s.lon g i0 j0) ∧ (∀ i0, (s.setXfers n x).isBoomed i0 = s.isBoomed i0) ∧
    (∀ i0, (s.setXfers n x).isLaid i0 = s.isLaid i0) ∧ (∀ i0, (s.setXfers n x).sqs i0 = s.sqs i0) ∧
    (∀ i0, (s.setXfers n x).eqs i0 = s.eqs i0) ∧ (∀ i0, (s.setXfers n x).drvs i0 = s.drvs i0) ∧
    (∀ i0, (s.setXfers n x).mots i0 = s.mots i0) ∧ (∀ i0, (s.setXfers n x).stps i0 = s.stps i0) ∧
    (∀ i0, (s.setXfers n x).stns i0 = s.stns i0) ∧ (∀ i0, (s.setXfers n x).bls i0 = s.bls i0) ∧
    (∀ i0, (s.setXfers n x).htrs i0 = s.htrs i0) ∧ (∀ i0, (s.setXfers n x).hvs i0 = s.hvs i0) ∧
    (∀ i0, (s.setXfers n x).loops i0 = s.loops i0) ∧ (∀ i0, (s.setXfers n x).encs i0 = s.encs i0) ∧
    (∀ i0, (s.setXfers n x).splls i0 = s.splls i0) ∧ (∀ i0, (s.setXfers n x).fports i0 = s.fports i0) ∧
    (∀ i0, (s.setXfers n x).rlts i0 = s.rlts i0) := by
  refine ⟨?_, ?_, ?_, ?_, ?_, ?_, ?_, ?_, ?_, ?_, ?_, ?_, ?_, ?_, ?_, ?_, ?_, ?_, ?_, ?_, ?_⟩ <;> intros <;> rfl
@[simp] theorem State.xfers_setXfers_self (n : Nat) (x : List Xfer) : (s.setXfers n x).xfers n = x := tget_tput_self ..
@[simp] theorem State.xfers_setXfers_other (n : Nat) (x : List Xfer) (m : Nat) (h : m ≠ n) : (s.setXfers n x).xfers m = s.xfers m := tget_tput_other _ _ _ h

end Sys2Proof.Machine
end

