-- ==== Sys2Proof/Laws/Shared.lean ====
section
/-! SUPPORT. What the shared operations answer: an access that is granted, a descriptor that may start, a completion where its event
ring has room. -/

namespace Sys2Proof.Machine

set_option Elab.async false
set_option linter.unusedTactic false
set_option linter.unreachableTactic false

variable {s : State}

/-- An access that is granted runs its effect. -/
theorem State.access_granted {src : Port} {off : Nat} (h : s.Granted src off) (w : Bool) (k : State → State) :
    s.access src off w k = k s := by
  obtain ⟨hb, h⟩ := h
  unfold State.access
  rcases hp : portPf src with _ | p
  · simp [hb]
  · rcases h with h | ⟨ho, ha⟩
    · simp [hp] at h
    · rcases ho with ho | ho <;> simp [hb, ho, ha, hp]

/-- A descriptor that is ready starts. -/
theorem State.start_ready {n opc : Nat} {d : Desc} (h : s.Ready n opc d) :
    s.start n opc = some (s.jobOf n d, s.setSq n { s.sqs n with accepted := (s.sqs n).accepted.tail, running := (s.sqs n).running + 1 }) := by
  obtain ⟨hd, ho, hf⟩ := h
  unfold State.start
  rcases ha : (s.sqs n).accepted with _ | ⟨x, xs⟩
  · simp [ha] at hd
  · simp only [ha, List.head?_cons, Option.some.injEq] at hd
    subst hd
    dsimp only
    rw [ha]
    dsimp only
    rw [if_pos ⟨ho, hf⟩]
    rfl

/-- A meaning over the front descriptor of a ring, where that descriptor is ready. -/
theorem State.withDesc_ready {n opc : Nat} {d : Desc} (h : s.Ready n opc d) (k : Job → State → State) :
    s.withDesc n opc k = k (s.jobOf n d) (s.setSq n { s.sqs n with accepted := (s.sqs n).accepted.tail, running := (s.sqs n).running + 1 }) := by
  rw [State.withDesc, State.start_ready h]

/-- A record handed to a ring with room is the last of its share. -/
theorem State.produce_room {n : Nat} (h : s.Room n) (r : Rec) :
    s.produce n r = s.setEq n { s.eqs n with share := (s.eqs n).share ++ [s.stamped r] } := by
  unfold State.produce
  simp only [h.1, Bool.false_and, Bool.false_eq_true, if_false, h.2, if_true]
  rfl

/-- A completion where the event ring has room. -/
theorem State.complete_room {j : Job} (h : s.Room j.eq) (status data : Nat) :
    s.complete j status data = (if dQuiet j.d = true ∧ status = St.ok then id else fun s =>
        s.setEq j.eq { s.eqs j.eq with share := (s.eqs j.eq).share ++ [s.stamped (completionRec j status data)] })
      (s.setSq j.ring { s.sqs j.ring with running := (s.sqs j.ring).running - 1 }) := by
  unfold State.complete
  simp only [Bool.and_eq_true, decide_eq_true_eq]
  split
  · rfl
  · exact State.produce_room (s := s.setSq j.ring { s.sqs j.ring with running := (s.sqs j.ring).running - 1 }) h _

/-- The effect of a command on the front descriptor that completes it at once. -/
theorem State.done_at_once {n opc : Nat} {d : Desc} (h : s.Ready n opc d) (hr : s.Room (s.rd Reg.SQ_CFG_EQ n)) (status data : Nat) :
    s.Done (s.withDesc n opc fun j s => s.complete j status data) n d status data := by
  rw [State.withDesc_ready h]
  rw [State.complete_room (by exact hr)]
  unfold State.Done
  split
  · simp_all [State.jobOf]
  · simp_all [State.jobOf, State.stamped, State.stamp, State.degraded]

end Sys2Proof.Machine
end

