-- ==== Sys2Proof/Tests/Slice0.lean ====
section
/-! SUPPORT. The author's own tests: a term that each check of well-formedness refuses, a concrete state for the hypotheses of
each statement, and single steps compared with the manual's own numbers. -/

open Sys2Proof Sys2Proof.Machine

namespace Sys2Proof.Tests

set_option Elab.async false

/-! The checks of `Instr.wf`: for each kind of number a command that the check refuses. -/

theorem test_refuses_rstNRise : Instr.wf (.rstNRise true 64) = false := by decide
theorem test_refuses_registerWrite_bar : Instr.wf (.registerWrite .pf0 1 true 0 4 0) = false := by decide
theorem test_refuses_registerWrite_size : Instr.wf (.registerWrite .pf0 0 true 0 3 0) = false := by decide
theorem test_refuses_registerWrite_value : Instr.wf (.registerWrite .pf0 0 true 0 8 (2 ^ 64)) = false := by decide
theorem test_refuses_doorbell_offset : Instr.wf (.doorbell .pf0 (2 ^ 16) 4 0) = false := by decide
theorem test_refuses_doorbell_size : Instr.wf (.doorbell .pf0 0 5 0) = false := by decide
theorem test_refuses_ring : Instr.wf (.sqEnable .pf0 64) = false := by decide
theorem test_refuses_fetch_empty : Instr.wf (.descriptorFetch 0 []) = false := by decide
theorem test_refuses_fetch_long : Instr.wf (.descriptorFetch 0 (List.replicate 9 0)) = false := by decide
theorem test_refuses_eventRing : Instr.wf (.eqEnable .pf0 16) = false := by decide
theorem test_refuses_eventHead : Instr.wf (.eqHeadWrite .pf0 0 (2 ^ 16)) = false := by decide
theorem test_refuses_record_type : Instr.wf (.eventRecordProduce 0 { typ := 256, status := 0, src := 0, tag := 0, crx := 0, dseq := 0, stamp := 0, degraded := false, data := 0 }) = false := by decide
theorem test_refuses_function : Instr.wf (.msixUnmask 2 0) = false := by decide
theorem test_refuses_vector : Instr.wf (.msixUnmask 0 64) = false := by decide
theorem test_refuses_rate : Instr.wf (.linkChange 6 1 0) = false := by decide
theorem test_refuses_width : Instr.wf (.linkChange 1 3 0) = false := by decide
theorem test_refuses_payload : Instr.wf (.linkChange 1 1 3) = false := by decide
theorem test_refuses_commit : Instr.wf (.commitBoundary 8) = false := by decide
theorem test_refuses_axis : Instr.wf (.axisUpdate 64) = false := by decide
theorem test_refuses_output : Instr.wf (.pulseEnd 64) = false := by decide
theorem test_refuses_crossing : Instr.wf (.boarded (2 ^ 32)) = false := by decide
theorem test_refuses_sheetSensor : Instr.wf (.sheetEdge 32 true 0) = false := by decide
theorem test_refuses_station : Instr.wf (.sosEdge 6 0 0) = false := by decide
theorem test_refuses_markSensor : Instr.wf (.markEdge 16 true 0) = false := by decide
theorem test_refuses_rasterLighter : Instr.wf (.rasterRowFetch 12) = false := by decide
theorem test_refuses_lighter_low : Instr.wf (.lighterTransferComplete 13) = false := by decide
theorem test_refuses_lighter_high : Instr.wf (.lighterTransferComplete 32) = false := by decide
theorem test_refuses_emitter : Instr.wf (.emitterFault 0 40 0) = false := by decide
theorem test_refuses_channel : Instr.wf (.drvOc 16 [] []) = false := by decide
theorem test_refuses_busGroup : Instr.wf (.busReactionEnd 4) = false := by decide
theorem test_refuses_motion : Instr.wf (.motionSample 32) = false := by decide
theorem test_refuses_port : Instr.wf (.indexEvent 24 []) = false := by decide
theorem test_refuses_emulator : Instr.wf (.emuEdge 8) = false := by decide
theorem test_refuses_loop : Instr.wf (.loopSampleComplete 128) = false := by decide
theorem test_refuses_hvChannel : Instr.wf (.hvArc 32) = false := by decide
theorem test_refuses_heater : Instr.wf (.heaterGateEnd 4) = false := by decide
theorem test_refuses_sensors : Instr.wf (.sensorRead (List.replicate 9 0) []) = false := by decide
theorem test_refuses_dieSensor : Instr.wf (.dieTrip 8) = false := by decide
theorem test_refuses_comparator : Instr.wf (.fuserCmpRelease 8 0) = false := by decide
theorem test_refuses_adcCode : Instr.wf (.railGood 0 4096) = false := by decide
theorem test_refuses_mode : Instr.wf (.pwrReq .pf0 4) = false := by decide
theorem test_refuses_wake_low : Instr.wf (.wake 0 0) = false := by decide
theorem test_refuses_wake_high : Instr.wf (.wake 5 0) = false := by decide
theorem test_refuses_fenlinkPort : Instr.wf (.fenlinkCycle 4) = false := by decide
theorem test_refuses_node : Instr.wf (.replyMissed 0 256) = false := by decide
theorem test_refuses_source : Instr.wf (.faultRaise 64 0 0 0 true) = false := by decide
theorem test_refuses_mask : Instr.wf (.faultLatchClear .pf0 (2 ^ 64)) = false := by decide
theorem test_refuses_pair : Instr.wf (.faultPairChange 8 true true 0) = false := by decide
theorem test_refuses_interlock : Instr.wf (.interlockChange 8 true 0) = false := by decide
theorem test_refuses_word : Instr.wf (.lbAddrWrite .pf0 (2 ^ 32)) = false := by decide

/-! Helpers of the witnesses below. -/

/-- The device out of reset with its gangway closed and both functions' enables on. -/
def dev : State :=
  { State.reset with boot := { State.reset.boot with rstLow := false }, pf0 := ⟨true, true, 0, false, 0, false⟩,
                     pf1 := ⟨true, true, 0, false, 0, false⟩ }.wr Reg.GEN_GANGWAY_CLOSED 1

/-- Submission ring `n` enabled, with `k` descriptors posted. -/
def ringOn (n k : Nat) (s : State) : State := (s.wr Reg.SQ_CTL_EN 1 n).wr Reg.SQ_TAIL_TAIL k n

/-- Descriptor `d` accepted on ring `n`. -/
def withD (n : Nat) (d : Desc) (s : State) : State := s.setSq n { s.sqs n with accepted := [d] }


/-! Worked examples of the manual: what it computes by hand. -/

/-- The state that a command answers. -/
def next (o : Host.Outcome State Fault Refusal) : State := match o with | .next t => t | _ => State.reset

/-- 18_lighters.md, worked example: the CRC register after "123456789". -/
theorem test_crc32c_check : crc32cRun 0xFFFFFFFF [0x31#8, 0x32#8, 0x33#8, 0x34#8, 0x35#8, 0x36#8, 0x37#8, 0x38#8, 0x39#8] = 0x1CF96D7C := by
  decide +kernel

/-- 02_host_link_and_rings.md, wrapping a small ring: tail 2 on head 14. -/
theorem test_doorbell_wraps : (next (exec (.doorbell .pf0 0x3000 4 2) (((ringOn 3 14 dev).wr Reg.SQ_HEAD_HEAD 14 3)))).rd Reg.SQ_TAIL_TAIL 3 = 2 := by
  decide +kernel

/-- The same example: tail 14 on a full ring laps the head; BAD_DESC at slot 13. -/
theorem test_doorbell_laps :
    (let t := next (exec (.doorbell .pf0 0x3000 4 14) ((ringOn 3 13 dev).wr Reg.SQ_HEAD_HEAD 14 3))
     t.on Reg.SQ_STAT_HALT 3 = true ∧ t.rd Reg.SQ_STAT_HALT_CODE 3 = St.badDesc ∧ t.rd Reg.SQ_STAT_HALT_SLOT 3 = 13) := by
  decide +kernel

/-- 04_axes_and_tide_table.md, a mark edge on the belt: 1,234,509 + 38/256 counts. -/
theorem test_axis_convert :
    ({ dev.wr Reg.AXIS_HIST_SEL_EN 1 0 0 |>.wr Reg.AXIS_HIST_SEL_AXIS 40 0 0 with
       now := 700360000, hist := [(0, [(14001, 1234525, false), (14000, 1234500, false)])] } : State).convert 40 700018300 = .ok (1234509 * 256 + 38) := by
  decide +kernel

/-- 16_fenlink.md, a mark edge on FL2: the device time of stamp 7,000,178 with DELAY 50. -/
theorem test_fenlink_time : ({ dev with now := 700359440 } : State).flTime 7000178 50 = 700018300 := by decide +kernel

/-- 04_axes_and_tide_table.md, a tie across the wrap: 6,144 ahead, and 4,096 behind. -/
theorem test_wrap_distance : posDist 0x800 (2 ^ 40 - 4096) = 6144 ∧ posAhead 0x800 (2 ^ 40 - 4096) = true ∧
    posReached (2 ^ 40 - 4096) (2 ^ 40 - 8192) = true ∧ posDist (2 ^ 40 - 4096) (2 ^ 40 - 8192) = 4096 := by decide +kernel

/-- 11_motion_profiles_and_steppers.md, worked example: the coil entries at q = 70,000. -/
theorem test_sine_entries : sineEntry 368 = 0x62E ∧ sineEntry 624 = 0xD13 := by decide +kernel

/-- The same example: segment 40 ends at 16,297 with its END_VEL. -/
theorem test_segment_end : hermite (16297 * 65536) 0 208607488 6400 6400 = (16297 * 65536, 208607488) := by decide +kernel

/-- 14_high_voltage_and_fuser.md, the fuser while throttled: half-cycle 3 takes HTR0 from 3,276 past 4,096. -/
theorem test_heater_burst :
    (let s := ({ dev with live := [(Reg.LOOP_CFG_EN.key 0 0, 1)], mains := { dev.mains with base := 16842752 } } : State)
     let s := (((s.wr Reg.MAINS_STAT_LOCKED 1).wr Reg.HTR_STAT_STATE Tst.run 0).wr Reg.LOOP_OUT_OUT 1638 0 0).wr Reg.HTR_CEIL_DUTY_CEIL 3686 0
     ((next (exec (.heaterHalfCycle 0) (s.setHtr 0 { Htr.init with acc := 3276 }))).htrs 0).acc) = 818 := by decide +kernel

/-- 08_raster_hold_and_dot_codes.md, one pixel of STN0: dot code 12 is two sub-pulses. -/
theorem test_sub_pulses : (((dev.wr Reg.STN_WAVE_SUB01 0xDC24CE08 0 28).wr Reg.STN_WAVE_SUB23 0 0 28).pulsesOf 0 1 12).map (·.1) = [8, 36] ∧
    (((dev.wr Reg.STN_WAVE_SUB01 0xDC24CE08 0 28).wr Reg.STN_WAVE_SUB23 0 0 28).pulsesOf 0 1 12).map (·.2) = [28, 56] := by decide +kernel

/-- 02_host_link_and_rings.md, R35: the capacity of 16 GT/s with four lanes, and with a payload of 128 bytes. -/
theorem test_link_capacity : linkCap 4 4 1 = 6200 ∧ linkCap 4 4 0 = 4960 := by decide

/-! States that meet the hypotheses of the statements about core. -/

namespace W01

def s_step : State := { dev with pending := [.chartWrite, .powerOnReset] }
def s_powerOnReset : State := { dev with lbDue := [3, 2], now := 5 }

theorem test_wit_step :
  (s_step.pending = [Instr.chartWrite, Instr.powerOnReset]) := by decide +kernel

theorem test_wit_idle :
  (dev.pending = []) := by decide +kernel

end W01

/-! States that meet the hypotheses of the statements about rings. -/

namespace W02

def rec0 : Rec := { typ := 3, status := 0, src := 64, tag := 0, crx := 7, dseq := 0, stamp := 9, degraded := false, data := 5 }
def ringHalt : State := (ringOn 3 2 dev).wr Reg.SQ_STAT_HALT 1 3
def s_sqEnable : State := (dev.wr Reg.SQ_SEQ_SEQ_INIT 77 3)
def s_sqDisable : State := ringOn 3 2 dev
def s_doorbell : State := ringOn 3 2 dev
def s_doorbell_same : State := ringOn 63 2 dev
def s_doorbell_far : State := ringOn 0 2 dev
def s_doorbell_back : State := ringOn 0 2 dev
def s_doorbell_wake : State := ((ringOn 3 2 dev).wr Reg.PWR_STAT_MODE 2).wr Reg.PWR_WAKE_DOORBELL_EN 1
def s_descriptorFetch : State := ringOn 3 1 dev
def s_descriptorFetch_last : State := (ringOn 63 0 dev).wr Reg.SQ_HEAD_HEAD 15 63
def s_descriptorFetch_seq : State := (ringOn 3 1 dev).wr Reg.SQ_CFG_SEQ_CHK 1 3
def s_fetchFail : State := ringOn 3 1 dev
def s_fetchFail_ur : State := ringOn 3 1 dev
def s_fetchFail_tmo : State := ringOn 3 1 dev
def s_chainTimeout : State := { (ringOn 3 1 dev).setSq 3 { SqSt.init with chainAt := some 5, chainNeed := 2 } with now := 200000000 }
def s_eqDisable : State := dev.wr Reg.EQ_CTL_EN 1 15
def s_eqHeadWrite : State := (dev.wr Reg.EQ_CTL_EN 1 2).wr Reg.EQ_TAIL_TAIL 5 2
def s_eqHeadWrite_past : State := (dev.wr Reg.EQ_CTL_EN 1 2).wr Reg.EQ_TAIL_TAIL 5 2
def s_eventRecordProduce_full : State := dev.setEq 2 { EqSt.init with share := List.replicate 256 rec0 }
def s_eventRecordProduce_held : State := dev.setEq 2 { EqSt.init with held := true }
def s_eventRecordDeliver : State := (dev.wr Reg.EQ_CTL_EN 1 2).setEq 2 { EqSt.init with share := [rec0] }
def s_eventRecordDeliver_wrap : State := ((dev.wr Reg.EQ_CTL_EN 1 2).wr Reg.EQ_TAIL_TAIL 15 2 |>.wr Reg.EQ_HEAD_HEAD 3 2).setEq 2 { EqSt.init with share := [rec0] }
def s_imodTimerExpire : State := ({ dev.setEq 2 { EqSt.init with unsigAt := some 100, unsig := 1 } with now := 5100 }.wr Reg.EQ_CFG_IMOD_TIME 5 2)
def s_msixUnmask : State := { dev with pf0 := { dev.pf0 with pba := 2 ^ 127 } }
def s_nop : State := withD 3 0 dev
def s_nop_bad : State := withD 3 (2 ^ 128) dev
theorem test_wit_eventRecordProduce_cases : dev.Room 2 ∧ ((s_eventRecordProduce_full.eqs 2).held = false ∧ 256 ≤ (s_eventRecordProduce_full.eqs 2).share.length) ∧
    ((s_eventRecordProduce_held.eqs 2).held = true ∧ (s_eventRecordProduce_held.eqs 2).share = [] ∧ s_eventRecordProduce_held.holdover.length < 256) := by decide +kernel

theorem test_wit_sqEnable :
  (3 < 64) ∧
  (s_sqEnable.Granted Port.pf0 (Reg.SQ_CTL_EN.addr 3 0)) ∧
  (s_sqEnable.on Reg.SQ_CTL_EN 3 = false) := by decide +kernel

theorem test_wit_sqEnable63 :
  (63 < 64) ∧
  (dev.Granted Port.ferryman (Reg.SQ_CTL_EN.addr 63 0)) ∧
  (dev.on Reg.SQ_CTL_EN 63 = false) := by decide +kernel

theorem test_wit_sqDisable :
  (3 < 64) ∧
  (s_sqDisable.Granted Port.pf0 (Reg.SQ_CTL_EN.addr 3 0)) := by decide +kernel

theorem test_wit_sqRestart :
  (3 < 64) ∧
  (ringHalt.Granted Port.pf0 (Reg.SQ_CTL_EN.addr 3 0)) := by decide +kernel

theorem test_wit_doorbell :
  (3 < 64) ∧
  (5 < 2 ^ 16) ∧
  (portPf Port.pf0 = some (s_doorbell.ownSq 3)) ∧
  (s_doorbell.on Reg.SQ_CTL_EN 3 = true) := by decide +kernel

theorem test_wit_doorbell_same :
  (63 < 64) ∧
  (2 < 2 ^ 16) ∧
  (portPf Port.pf0 = some (s_doorbell_same.ownSq 63)) ∧
  (s_doorbell_same.on Reg.SQ_CTL_EN 63 = true) := by decide +kernel

theorem test_wit_doorbell_far :
  (0 < 64) ∧
  (16 < 2 ^ 16) ∧
  (portPf Port.pf0 = some (s_doorbell_far.ownSq 0)) ∧
  (s_doorbell_far.on Reg.SQ_CTL_EN = true) := by decide +kernel

theorem test_wit_doorbell_back :
  (0 < 64) ∧
  (1 < 2 ^ 16) ∧
  (portPf Port.pf0 = some (s_doorbell_back.ownSq 0)) ∧
  (s_doorbell_back.on Reg.SQ_CTL_EN = true) := by decide +kernel

theorem test_wit_doorbell_wake :
  (3 < 64) ∧
  (5 < 2 ^ 16) ∧
  (portPf Port.pf0 = some (s_doorbell_wake.ownSq 3)) ∧
  (s_doorbell_wake.on Reg.SQ_CTL_EN 3 = true) := by decide +kernel

theorem test_wit_descriptorFetch :
  (3 < 64) ∧
  (s_descriptorFetch.rd Reg.SQ_HEAD_HEAD 3 < s_descriptorFetch.sqSize 3) ∧
  (s_descriptorFetch.fetchOk 3 = true) ∧
  (1 ≤ s_descriptorFetch.posted 3) ∧
  (s_descriptorFetch.sqTurn = some 3) ∧
  ((s_descriptorFetch.sqs 3).part = []) ∧
  (s_descriptorFetch.Calm) ∧
  (dLink 0 = 0) ∧
  (s_descriptorFetch.on Reg.SQ_CFG_SEQ_CHK 3 = false ∨ dSeq 0 = s_descriptorFetch.rd Reg.SQ_SEQ_SEQ_NEXT 3 % 2 ^ 16) ∧
  (headerOk 0 0 = true) := by decide +kernel

theorem test_wit_descriptorFetch_last :
  (63 < 64) ∧
  (s_descriptorFetch_last.rd Reg.SQ_HEAD_HEAD 63 < s_descriptorFetch_last.sqSize 63) ∧
  (s_descriptorFetch_last.fetchOk 63 = true) ∧
  (1 ≤ s_descriptorFetch_last.posted 63) ∧
  (s_descriptorFetch_last.sqTurn = some 63) ∧
  ((s_descriptorFetch_last.sqs 63).part = []) ∧
  (s_descriptorFetch_last.Calm) ∧
  (dLink 0 = 0) ∧
  (s_descriptorFetch_last.on Reg.SQ_CFG_SEQ_CHK 63 = false ∨
  dSeq 0 = s_descriptorFetch_last.rd Reg.SQ_SEQ_SEQ_NEXT 63 % 2 ^ 16) ∧
  (headerOk 0 0 = true) := by decide +kernel

theorem test_wit_descriptorFetch_seq :
  (3 < 64) ∧
  (s_descriptorFetch_seq.rd Reg.SQ_HEAD_HEAD 3 < s_descriptorFetch_seq.sqSize 3) ∧
  (s_descriptorFetch_seq.fetchOk 3 = true) ∧
  (1 ≤ s_descriptorFetch_seq.posted 3) ∧
  (s_descriptorFetch_seq.sqTurn = some 3) ∧
  ((s_descriptorFetch_seq.sqs 3).part = []) ∧
  (s_descriptorFetch_seq.Calm) ∧
  (dLink (2 ^ 16) = 0) ∧
  (s_descriptorFetch_seq.on Reg.SQ_CFG_SEQ_CHK 3 = true) ∧
  (dSeq (2 ^ 16) ≠ s_descriptorFetch_seq.rd Reg.SQ_SEQ_SEQ_NEXT 3 % 2 ^ 16) ∧
  ((s_descriptorFetch_seq.eqs (s_descriptorFetch_seq.rd Reg.SQ_CFG_EQ 3)).held = false) ∧
  ((s_descriptorFetch_seq.eqs (s_descriptorFetch_seq.rd Reg.SQ_CFG_EQ 3)).share.length < 255) := by decide +kernel

theorem test_wit_fetchFail :
  (3 < 64) ∧
  (s_fetchFail.on Reg.SQ_STAT_HALT 3 = false) ∧
  (s_fetchFail.on Reg.SQ_CTL_EN 3 = true) ∧
  (s_fetchFail.Room (s_fetchFail.rd Reg.SQ_CFG_EQ 3)) ∧
  (s_fetchFail.posted 3 ≠ 0) := by decide +kernel

theorem test_wit_fetchFail_ur :
  (3 < 64) ∧
  (s_fetchFail_ur.on Reg.SQ_STAT_HALT 3 = false) ∧
  (s_fetchFail_ur.on Reg.SQ_CTL_EN 3 = true) ∧
  (s_fetchFail_ur.Room (s_fetchFail_ur.rd Reg.SQ_CFG_EQ 3)) ∧
  (s_fetchFail_ur.posted 3 ≠ 0) := by decide +kernel

theorem test_wit_fetchFail_tmo :
  (3 < 64) ∧
  (s_fetchFail_tmo.on Reg.SQ_STAT_HALT 3 = false) ∧
  (s_fetchFail_tmo.on Reg.SQ_CTL_EN 3 = true) ∧
  (s_fetchFail_tmo.Room (s_fetchFail_tmo.rd Reg.SQ_CFG_EQ 3)) ∧
  (s_fetchFail_tmo.posted 3 ≠ 0) := by decide +kernel

theorem test_wit_chainTimeout :
  (3 < 64) ∧
  (s_chainTimeout.on Reg.SQ_STAT_HALT 3 = false) ∧
  (s_chainTimeout.on Reg.SQ_CTL_EN 3 = true) ∧
  (s_chainTimeout.Room (s_chainTimeout.rd Reg.SQ_CFG_EQ 3)) ∧
  ((s_chainTimeout.sqs 3).chainAt = some 5) ∧
  (s_chainTimeout.posted 3 < (s_chainTimeout.sqs 3).chainNeed) ∧
  ((s_chainTimeout.pf (s_chainTimeout.ownSq 3)).bme = true) ∧
  (5 + (s_chainTimeout.sqs 3).chainLost + s_chainTimeout.descFetchNs ≤ s_chainTimeout.now) := by decide +kernel

theorem test_wit_eqEnable :
  (2 < 16) ∧
  (dev.Granted Port.pf0 (Reg.EQ_CTL_EN.addr 2 0)) ∧
  (dev.on Reg.EQ_CTL_EN 2 = false) ∧
  ((dev.eqs 2).share = []) ∧
  ((dev.eqs 2).owed = 0) ∧
  ((dev.holdover.any fun x => x.fst == 2) = false) := by decide +kernel

theorem test_wit_eqDisable :
  (15 < 16) ∧
  (s_eqDisable.Granted Port.pf0 (Reg.EQ_CTL_EN.addr 15 0)) := by decide +kernel

theorem test_wit_eqHeadWrite :
  (2 < 16) ∧
  (5 < 2 ^ 16) ∧
  (s_eqHeadWrite.Granted Port.pf0 (Reg.EQ_HEAD_HEAD.addr 2 0)) := by decide +kernel

theorem test_wit_eqHeadWrite_past :
  (2 < 16) ∧
  (6 < 2 ^ 16) ∧
  (s_eqHeadWrite_past.Granted Port.pf0 (Reg.EQ_HEAD_HEAD.addr 2 0)) := by decide +kernel

theorem test_wit_eventRecordProduce :
  (2 < 16) := by decide +kernel

theorem test_wit_eventRecordProduce_full :
  (2 < 16) := by decide +kernel

theorem test_wit_eventRecordProduce_held :
  (2 < 16) := by decide +kernel

theorem test_wit_eventRecordDeliver :
  (2 < 16) ∧
  (s_eventRecordDeliver.eqReady 2 = true) ∧
  ((s_eventRecordDeliver.eqs 2).owed = 0) ∧
  ((s_eventRecordDeliver.holdover.any fun x => x.fst == 2) = false) ∧
  ((s_eventRecordDeliver.eqs 2).share = [rec0]) := by decide +kernel

theorem test_wit_eventRecordDeliver_wrap :
  (2 < 16) ∧
  (s_eventRecordDeliver_wrap.eqReady 2 = true) ∧
  ((s_eventRecordDeliver_wrap.eqs 2).owed = 0) ∧
  ((s_eventRecordDeliver_wrap.holdover.any fun x => x.fst == 2) = false) ∧
  ((s_eventRecordDeliver_wrap.eqs 2).share = [rec0]) := by decide +kernel

theorem test_wit_imodTimerExpire :
  (2 < 16) ∧
  ((s_imodTimerExpire.eqs 2).unsigAt = some 100) ∧
  (s_imodTimerExpire.rd Reg.EQ_CFG_IMOD_TIME 2 ≠ 0) ∧
  (100 + 1000 * s_imodTimerExpire.rd Reg.EQ_CFG_IMOD_TIME 2 ≤ s_imodTimerExpire.now) ∧
  ((s_imodTimerExpire.pf (s_imodTimerExpire.ownEq 2)).msixEn = true) := by decide +kernel

theorem test_wit_msixUnmask :
  (0 < 2) ∧
  (127 < vecCount 0) := by decide +kernel

theorem test_wit_busMasterEnableWrite :
  (1 < 2) ∧
  (((List.range 18).any fun i => Option.any (fun x => x.job.pf == 1) (dev.xfer? (14 + i))) = false) := by decide +kernel

theorem test_wit_busMasterEnableWrite_off :
  (0 < 2) ∧
  (((List.range 18).any fun i => Option.any (fun x => x.job.pf == 0) (dev.xfer? (14 + i))) = false) := by decide +kernel

theorem test_wit_nop :
  (s_nop.Ready 3 0 0) ∧
  (s_nop.Room (s_nop.rd Reg.SQ_CFG_EQ 3)) := by decide +kernel

theorem test_wit_nop_bad :
  (s_nop_bad.Ready 3 0 (2 ^ 128)) ∧
  (s_nop_bad.Room (s_nop_bad.rd Reg.SQ_CFG_EQ 3)) := by decide +kernel

end W02

/-! States that meet the hypotheses of the statements about boot. -/

namespace W03

def used : State := { ((dev.wr Reg.FLT_GRAVE 5).wr Reg.FLT_LATCH 7) with now := 77, lbDue := [3, 2], chartSeq := 9 }
def s_bootImageVerified : State := { State.reset with boot := { State.reset.boot with rstLow := false, reading := some 0 } }
def s_bootImageVerified_backup : State := { State.reset with boot := { State.reset.boot with rstLow := false, reading := some 1 } }
def s_gangwayClose : State := { State.reset with boot := { State.reset.boot with rstLow := false } }
def s_pllRelock : State := dev.wr Reg.GEN_CLK_STAT_REF_LOST 1
def s_pllRelock_channel : State := dev.wr Reg.GEN_CLK_STAT_REF_LOST 1
def s_write_baseHigh : State := { dev with lowLatch := [(0x5800, some 5)] }
def s_write_baseHigh_frozen : State := dev.wr Reg.CHART_CTL_EN 1
def s_write_sticky : State := { dev.wr Reg.GEN_RESET_CAUSE_CAUSE 7 with edgeRegs := [(Reg.GEN_RESET_CAUSE_CAUSE.key 0 0, 7)] }
def s_write_counter : State := { dev.wr Reg.TIDE_LATE_COUNT 7 with edgeRegs := [(Reg.TIDE_LATE_COUNT.key 0 0, 7)] }
def s_write_dropped : State := { dev with post := [(0x88000, some ⟨0x88040, 3, false, .pf0, 0⟩)] }
def s_postWriteApply : State := { dev with post := [(0x88000, some ⟨Reg.FLT_TMO_DESC_FETCH_MS.base, 0x12345678, false, .pf0, 0⟩)] }

theorem test_wit_rstNRise :
  (State.reset.boot.rstLow = true) := by decide +kernel

theorem test_wit_bootImageVerified :
  (0 < 2) ∧
  (s_bootImageVerified.boot.reading = some 0) := by decide +kernel

theorem test_wit_bootImageVerified_backup :
  (1 < 2) ∧
  (s_bootImageVerified_backup.boot.reading = some 1) := by decide +kernel

theorem test_wit_gangwayClose :
  (s_gangwayClose.boot.rstLow = false) := by decide +kernel

theorem test_wit_refLoss :
  (dev.on Reg.GEN_CLK_STAT_REF_LOST = false) := by decide +kernel

theorem test_wit_pllRelock :
  (s_pllRelock.on Reg.GEN_CLK_STAT_REF_LOST = true) := by decide +kernel

theorem test_wit_pllRelock_channel :
  (s_pllRelock_channel.on Reg.GEN_CLK_STAT_REF_LOST = true) := by decide +kernel

theorem test_wit_registerRead :
  (dev.boot.rstLow = false) ∧
  (16392 % 4 = 0) ∧
  (16392 < 1048576) ∧
  (postBase 16392 = none) ∧
  (dev.Granted Port.pf0 16392) := by decide +kernel

theorem test_wit_registerRead_foreign :
  (dev.boot.rstLow = false) ∧
  (16392 % 4 = 0) ∧
  (16392 < 1048576) ∧
  (dev.barOpen Port.pf1 16392 = true) ∧
  (portPf Port.pf1 = some 1) ∧
  (dev.ownerOf 16392 = some 0) ∧
  (0 ≠ 1) := by decide +kernel

theorem test_wit_registerRead_size :
  (dev.boot.rstLow = false) ∧
  (2 ≠ 4 ∧ 2 ≠ 8 ∨ 16392 % 2 ≠ 0 ∨ 1048576 ≤ 16392) := by decide +kernel

theorem test_wit_registerRead_misaligned :
  (dev.boot.rstLow = false) ∧
  (8 ≠ 4 ∧ 8 ≠ 8 ∨ 16388 % 8 ≠ 0 ∨ 1048576 ≤ 16388) := by decide +kernel

theorem test_wit_registerRead_past :
  (dev.boot.rstLow = false) ∧
  (4 ≠ 4 ∧ 4 ≠ 8 ∨ 1048576 % 4 ≠ 0 ∨ 1048576 ≤ 1048576) := by decide +kernel

theorem test_wit_write_rw :
  (4294967295 < 2 ^ 32) ∧
  (dev.boot.rstLow = false) ∧
  (dev.Granted Port.pf0 98312) := by decide +kernel

theorem test_wit_write_base :
  (4294967295 < 2 ^ 32) ∧
  (dev.boot.rstLow = false) ∧
  (dev.Granted Port.pf0 22528) := by decide +kernel

theorem test_wit_write_baseHigh :
  (305419896 < 2 ^ 32) ∧
  (s_write_baseHigh.boot.rstLow = false) ∧
  (s_write_baseHigh.Granted Port.ferryman 22532) := by decide +kernel

theorem test_wit_write_baseHigh_frozen :
  (305419896 < 2 ^ 32) ∧
  (s_write_baseHigh_frozen.boot.rstLow = false) ∧
  (s_write_baseHigh_frozen.Granted Port.ferryman 22532) := by decide +kernel

theorem test_wit_write_qs :
  (4294967295 < 2 ^ 32) ∧
  (dev.boot.rstLow = false) ∧
  (dev.Granted Port.pf0 65536) := by decide +kernel

theorem test_wit_write_sticky :
  (5 < 2 ^ 32) ∧
  (s_write_sticky.boot.rstLow = false) ∧
  (s_write_sticky.Granted Port.pf0 36) ∧
  (s_write_sticky.edgeRd Reg.GEN_RESET_CAUSE_CAUSE = s_write_sticky.rd Reg.GEN_RESET_CAUSE_CAUSE) := by decide +kernel

theorem test_wit_write_counter :
  (5 < 2 ^ 32) ∧
  (s_write_counter.boot.rstLow = false) ∧
  (s_write_counter.Granted Port.pf0 65548) ∧
  (s_write_counter.edgeRd Reg.TIDE_LATE_COUNT = s_write_counter.rd Reg.TIDE_LATE_COUNT) := by decide +kernel

theorem test_wit_write_ro :
  (5 < 2 ^ 32) ∧
  (dev.boot.rstLow = false) ∧
  (dev.Granted Port.pf0 40) := by decide +kernel

theorem test_wit_write_locked :
  (5 < 2 ^ 32) ∧
  (dev.boot.rstLow = false) ∧
  (dev.Granted Port.pf1 4356) ∧
  (dev.on Reg.GEN_GANGWAY_CLOSED = true) := by decide +kernel

theorem test_wit_write_posted :
  (4294967295 < 2 ^ 32) ∧
  (dev.boot.rstLow = false) ∧
  (dev.Granted Port.pf0 Reg.FLT_TMO_DESC_FETCH_MS.base) ∧
  (tget none dev.post 557056 = none) := by decide +kernel

theorem test_wit_write_dropped :
  (4294967295 < 2 ^ 32) ∧
  (s_write_dropped.boot.rstLow = false) ∧
  (s_write_dropped.Granted Port.pf0 Reg.FLT_TMO_DESC_FETCH_MS.base) ∧
  (tget none s_write_dropped.post 557056 ≠ none) := by decide +kernel

theorem test_wit_postWriteApply :
  (305419896 < 2 ^ 32) ∧
  (s_postWriteApply.boot.rstLow = false) ∧
  (tget none s_postWriteApply.post 557056 =
  some { off := Reg.FLT_TMO_DESC_FETCH_MS.base, val := 305419896, seen := false, src := Port.pf0, rung := 0 }) := by decide +kernel

end W03

/-! States that meet the hypotheses of the statements about faults. -/

namespace W04

/-- Fault source `src` mapped to class `c`. -/
def cls (src c : Nat) (s : State) : State := s.wr Reg.FLT_CLASS_MAP_CLASS c (src / 16) (src % 16)
def s_raise_D : State := cls 53 0 dev
def s_raise_C : State := cls 63 1 dev
def s_raise_B : State := cls 33 2 dev
def s_raise_A : State := cls 55 3 dev
def s_raise_boom : State := cls 15 1 dev
def s_raise_boom121 : State := cls 36 1 dev
def s_raise_boom_stn : State := cls 7 1 dev
def s_latch_dropped : State := { dev with post := [(0x88000, some ⟨0x88040, 3, false, .pf0, 0⟩)] }
def latched (src c : Nat) : State := { (cls src c dev).wr Reg.FLT_LATCH (2 ^ src) with edgeRegs := [(Reg.FLT_LATCH.key 0 0, 2 ^ src)] }
def s_faultLatchClear : State := latched 53 0
def s_latch_refused : State := (latched 15 1).setCause 15 6 true
def s_latch_cleared : State := latched 15 1
def s_latch_held : State := latched 63 3
def s_latch_again : State := { latched 53 0 with raisedAt := [(53, 1)] }
def paired : State := dev.wr Reg.FLT_EXT_CFG_PAIR_EN 128
def s_pair_broken : State := paired
def s_pair_fault : State := paired
def s_pair_whole : State := paired.wr Reg.FLT_EXT_STAT_BROKEN 128
def s_pair_mended : State := paired.wr Reg.FLT_EXT_STAT_BROKEN 128
def s_pair_short : State := paired
def s_pair_short2 : State := paired
def s_intlk_open : State := (dev.wr Reg.IO_INTLK_STAT_OPEN 0).wr Reg.IO_INTLK_ROUTE_HTR 15 7
def s_intlk_open2 : State := (dev.wr Reg.IO_INTLK_STAT_OPEN 0).wr Reg.IO_INTLK_ROUTE_DRV_ALL 1 0
def s_lanternToggle_runs : State := { dev with boot := { dev.boot with wdArmed := true } }
def s_ferryWd : State := { dev with boot := { dev.boot with wdArmed := true, running := true }, now := 1000000000 }
def s_ferrymanReArm : State := { dev with lbDue := [4, 0] }.wr Reg.GEN_BOOT_STAT_STAGE 4
def s_ferrymanReArm_job : State := { dev with boot := { dev.boot with armJob := some ⟨3, 0, 0, 0⟩ } }.wr Reg.GEN_BOOT_STAT_STAGE 4
def s_scrubRead : State := { dev with now := 10000 }
def s_scrubRead_hold : State := { dev with now := 10000 }
def s_scrubRead_tide : State := { dev with now := 10000, scrubPos := [(1, storeWords 1 - 1)] }

theorem test_wit_raise_D :
  (53 < 64) ∧
  (3 < 256) ∧
  (s_raise_D.cls 53 ≤ 2) ∧
  (53 ≠ Src.refLoss) ∧
  (s_raise_D.aLatched = false) ∧
  (s_raise_D.eng = none) ∧
  (tget none s_raise_D.lastRec (53 * 256 + Src.noUnit) = none) ∧
  (s_raise_D.Room (s_raise_D.rd Reg.RING_EVT_ROUTE_FAULT)) := by decide +kernel

theorem test_wit_raise_C :
  (63 < 64) ∧
  (3 < 256) ∧
  (s_raise_C.cls 63 ≤ 2) ∧
  (63 ≠ Src.refLoss) ∧
  (s_raise_C.aLatched = false) ∧
  (s_raise_C.eng = none) ∧
  (tget none s_raise_C.lastRec (63 * 256 + Src.noUnit) = none) ∧
  (s_raise_C.Room (s_raise_C.rd Reg.RING_EVT_ROUTE_FAULT)) := by decide +kernel

theorem test_wit_raise_B :
  (33 < 64) ∧
  (3 < 256) ∧
  (s_raise_B.cls 33 ≤ 2) ∧
  (33 ≠ Src.refLoss) ∧
  (s_raise_B.aLatched = false) ∧
  (s_raise_B.eng = none) ∧
  (tget none s_raise_B.lastRec (33 * 256 + Src.noUnit) = none) ∧
  (s_raise_B.Room (s_raise_B.rd Reg.RING_EVT_ROUTE_FAULT)) := by decide +kernel

theorem test_wit_raise_A :
  (55 < 64) ∧
  (3 < 256) ∧
  (Src.noUnit < 256) ∧
  (s_raise_A.cls 55 = 3) ∧
  (s_raise_A.eng = none) ∧
  (55 ≠ Src.refLoss) ∧
  (Src.noUnit = Src.noUnit) := by decide +kernel

theorem test_wit_raise_boom :
  (15 < 64) ∧
  (6 < 122) ∧
  (0 < 256) := by decide +kernel

theorem test_wit_raise_boom121 :
  (36 < 64) ∧
  (121 < 122) ∧
  (0 < 256) := by decide +kernel

theorem test_wit_raise_boom_stn :
  (7 < 64) ∧
  (0 < 122) ∧
  (0 < 256) := by decide +kernel

theorem test_wit_latch_dropped :
  (53 < 64) ∧
  (s_latch_dropped.Granted Port.pf0 557056) ∧
  (tget none s_latch_dropped.post 557056 ≠ none) := by decide +kernel

theorem test_wit_faultLatchClear :
  (53 < 64) ∧
  (s_faultLatchClear.Granted Port.pf0 557056) ∧
  (tget none s_faultLatchClear.post 557056 = none) ∧
  (bitOf (s_faultLatchClear.rd Reg.FLT_LATCH) 53 = true) ∧
  (bitOf (s_faultLatchClear.edgeRd Reg.FLT_LATCH) 53 = true) ∧
  (s_faultLatchClear.rd Reg.FLT_LATCH < 2 ^ 64) ∧
  (∀ (n : Nat),
  n < 6 →
    s_faultLatchClear.on Reg.BL_STAT_LEN n = false ∧
      (s_faultLatchClear.bls n).upSeen = false ∧ s_faultLatchClear.lv Reg.BL_CFG_PORT n ≠ 2) := by decide +kernel

theorem test_wit_latch_refused :
  (15 < 64) ∧
  (s_latch_refused.Granted Port.pf0 557056) ∧
  (tget none s_latch_refused.post 557056 = none) ∧
  (bitOf (s_latch_refused.rd Reg.FLT_LATCH) 15 = true) ∧
  (bitOf (s_latch_refused.edgeRd Reg.FLT_LATCH) 15 = true) ∧
  (s_latch_refused.rd Reg.FLT_LATCH < 2 ^ 64) ∧
  (∀ (n : Nat),
  n < 6 →
    s_latch_refused.on Reg.BL_STAT_LEN n = false ∧
      (s_latch_refused.bls n).upSeen = false ∧ s_latch_refused.lv Reg.BL_CFG_PORT n ≠ 2) := by decide +kernel

theorem test_wit_latch_cleared :
  (15 < 64) ∧
  (s_latch_cleared.Granted Port.pf0 557056) ∧
  (tget none s_latch_cleared.post 557056 = none) ∧
  (bitOf (s_latch_cleared.rd Reg.FLT_LATCH) 15 = true) ∧
  (bitOf (s_latch_cleared.edgeRd Reg.FLT_LATCH) 15 = true) ∧
  (s_latch_cleared.rd Reg.FLT_LATCH < 2 ^ 64) ∧
  (∀ (n : Nat),
  n < 6 →
    s_latch_cleared.on Reg.BL_STAT_LEN n = false ∧
      (s_latch_cleared.bls n).upSeen = false ∧ s_latch_cleared.lv Reg.BL_CFG_PORT n ≠ 2) := by decide +kernel

theorem test_wit_latch_held :
  (63 < 64) ∧
  (s_latch_held.Granted Port.pf0 557056) ∧
  (tget none s_latch_held.post 557056 = none) ∧
  (bitOf (s_latch_held.rd Reg.FLT_LATCH) 63 = true) ∧
  (bitOf (s_latch_held.edgeRd Reg.FLT_LATCH) 63 = true) ∧
  (s_latch_held.rd Reg.FLT_LATCH < 2 ^ 64) ∧
  (∀ (n : Nat),
  n < 6 →
    s_latch_held.on Reg.BL_STAT_LEN n = false ∧
      (s_latch_held.bls n).upSeen = false ∧ s_latch_held.lv Reg.BL_CFG_PORT n ≠ 2) := by decide +kernel

theorem test_wit_latch_again :
  (53 < 64) ∧
  (s_latch_again.Granted Port.pf0 557056) ∧
  (tget none s_latch_again.post 557056 = none) ∧
  (bitOf (s_latch_again.rd Reg.FLT_LATCH) 53 = true) ∧
  (bitOf (s_latch_again.edgeRd Reg.FLT_LATCH) 53 = true) ∧
  (s_latch_again.rd Reg.FLT_LATCH < 2 ^ 64) ∧
  (∀ (n : Nat),
  n < 6 →
    s_latch_again.on Reg.BL_STAT_LEN n = false ∧
      (s_latch_again.bls n).upSeen = false ∧ s_latch_again.lv Reg.BL_CFG_PORT n ≠ 2) := by decide +kernel

theorem test_wit_pair_broken :
  (7 < 8) ∧
  (bitOf (s_pair_broken.rd Reg.FLT_EXT_CFG_PAIR_EN) 7 = true) ∧
  (true = true) ∧
  (1000 ≤ 1000) := by decide +kernel

theorem test_wit_pair_fault :
  (7 < 8) ∧
  (bitOf (s_pair_fault.rd Reg.FLT_EXT_CFG_PAIR_EN) 7 = true) ∧
  (true ≠ false) ∧
  (max 1 (s_pair_fault.rd Reg.FLT_EXT_CFG_EXT_FILT) ≤ 1000) := by decide +kernel

theorem test_wit_pair_whole :
  (7 < 8) ∧
  (bitOf (s_pair_whole.rd Reg.FLT_EXT_CFG_PAIR_EN) 7 = true) ∧
  (false ≠ true) ∧
  (max 1 (s_pair_whole.rd Reg.FLT_EXT_CFG_EXT_FILT) ≤ 1000) := by decide +kernel

theorem test_wit_pair_mended :
  (7 < 8) ∧
  (bitOf (s_pair_mended.rd Reg.FLT_EXT_CFG_PAIR_EN) 7 = true) ∧
  (false ≠ true) ∧
  (0 < max 1 (s_pair_mended.rd Reg.FLT_EXT_CFG_EXT_FILT)) ∧
  (bitOf (s_pair_mended.rd Reg.FLT_EXT_STAT_BROKEN) 7 = true) := by decide +kernel

theorem test_wit_pair_short :
  (7 < 8) ∧
  (bitOf (s_pair_short.rd Reg.FLT_EXT_CFG_PAIR_EN) 7 = true) ∧
  (false = true → 0 < 1000) ∧
  (false ≠ true →
  0 < max 1 (s_pair_short.rd Reg.FLT_EXT_CFG_EXT_FILT) ∧
    bitOf (s_pair_short.rd Reg.FLT_EXT_STAT_BROKEN) 7 = false) := by decide +kernel

theorem test_wit_pair_short2 :
  (7 < 8) ∧
  (bitOf (s_pair_short2.rd Reg.FLT_EXT_CFG_PAIR_EN) 7 = true) ∧
  (true = true → 999 < 1000) ∧
  (true ≠ true →
  999 < max 1 (s_pair_short2.rd Reg.FLT_EXT_CFG_EXT_FILT) ∧
    bitOf (s_pair_short2.rd Reg.FLT_EXT_STAT_BROKEN) 7 = false) := by decide +kernel

theorem test_wit_intlk_closed :
  (7 < 8) ∧
  (true = dev.on Reg.IO_INTLK_ROUTE_CLOSED_LVL 7) ∧
  (10000000 ≤ 10000000) := by decide +kernel

theorem test_wit_intlk_open :
  (7 < 8) ∧
  (false ≠ s_intlk_open.on Reg.IO_INTLK_ROUTE_CLOSED_LVL 7) ∧
  (100 ≤ 100) ∧
  (bitOf (s_intlk_open.rd Reg.IO_INTLK_STAT_OPEN) 7 = false) ∧
  (s_intlk_open.intlkRouted 7 = true) := by decide +kernel

theorem test_wit_intlk_open2 :
  (0 < 8) ∧
  (false ≠ s_intlk_open2.on Reg.IO_INTLK_ROUTE_CLOSED_LVL) ∧
  (100 ≤ 100) ∧
  (bitOf (s_intlk_open2.rd Reg.IO_INTLK_STAT_OPEN) 0 = false) ∧
  (s_intlk_open2.intlkRouted 0 = true) := by decide +kernel

theorem test_wit_intlk_unrouted :
  (7 < 8) ∧
  (false ≠ dev.on Reg.IO_INTLK_ROUTE_CLOSED_LVL 7) ∧
  (100 ≤ 100) ∧
  (dev.intlkRouted 7 = false) := by decide +kernel

theorem test_wit_intlk_short :
  (7 < 8) ∧
  (99 < if false = dev.on Reg.IO_INTLK_ROUTE_CLOSED_LVL 7 then 10000000 else 100) := by decide +kernel

theorem test_wit_intlk_short2 :
  (0 < 8) ∧
  (9999999 < if true = dev.on Reg.IO_INTLK_ROUTE_CLOSED_LVL then 10000000 else 100) := by decide +kernel

theorem test_wit_ferryWd :
  (s_ferryWd.boot.wdArmed = true) ∧
  (s_ferryWd.boot.lapsed = false) ∧
  (s_ferryWd.boot.reading = none) ∧
  (s_ferryWd.rd Reg.PWR_STAT_MODE ≠ 2) ∧
  (s_ferryWd.boot.armBy = none) ∧
  (s_ferryWd.boot.wdAt + 1000000 * min 1000 (max 10 (s_ferryWd.rd Reg.FLT_WD_WD_MS)) ≤ s_ferryWd.now) ∧
  ((s_ferryWd.liveCrx.any fun c => c.state == 1) = false) := by decide +kernel

theorem test_wit_ferrymanReArm :
  (s_ferrymanReArm.rd Reg.GEN_BOOT_STAT_STAGE = 4) := by decide +kernel

theorem test_wit_ferrymanReArm_job :
  (s_ferrymanReArm_job.rd Reg.GEN_BOOT_STAT_STAGE = 4) := by decide +kernel

theorem test_wit_scrubRead :
  (4 ∈ [0, 1, 2, 4]) ∧
  (265 < 266) ∧
  (s_scrubRead.on Reg.DIAG_ECC_SCRUB_SCRUB_EN 4 = true) ∧
  (s_scrubRead.rd Reg.PWR_STAT_MODE ≠ 2) ∧
  (s_scrubRead.holdBusy = false) ∧
  (tget 0 s_scrubRead.scrubDue 4 + 2 * max 1 (s_scrubRead.rd Reg.DIAG_ECC_SCRUB_SCRUB_INTERVAL 4) ≤ s_scrubRead.now) ∧
  (s_scrubRead.Sound 4 (tget 0 s_scrubRead.scrubPos 4)) := by decide +kernel

theorem test_wit_scrubRead_hold :
  (0 ∈ [0, 1, 2, 4]) ∧
  (265 < 266) ∧
  (s_scrubRead_hold.on Reg.DIAG_ECC_SCRUB_SCRUB_EN = true) ∧
  (s_scrubRead_hold.rd Reg.PWR_STAT_MODE ≠ 2) ∧
  (s_scrubRead_hold.holdBusy = false) ∧
  (tget 0 s_scrubRead_hold.scrubDue 0 + 2 * max 1 (s_scrubRead_hold.rd Reg.DIAG_ECC_SCRUB_SCRUB_INTERVAL) ≤
  s_scrubRead_hold.now) ∧
  (s_scrubRead_hold.Sound 0 (tget 0 s_scrubRead_hold.scrubPos 0)) := by decide +kernel

theorem test_wit_scrubRead_tide :
  (1 ∈ [0, 1, 2, 4]) ∧
  (0 < 266) ∧
  (s_scrubRead_tide.on Reg.DIAG_ECC_SCRUB_SCRUB_EN 1 = true) ∧
  (s_scrubRead_tide.rd Reg.PWR_STAT_MODE ≠ 2) ∧
  (s_scrubRead_tide.holdBusy = false) ∧
  (tget 0 s_scrubRead_tide.scrubDue 1 + 2 * max 1 (s_scrubRead_tide.rd Reg.DIAG_ECC_SCRUB_SCRUB_INTERVAL 1) ≤
  s_scrubRead_tide.now) ∧
  (s_scrubRead_tide.Sound 1 (tget 0 s_scrubRead_tide.scrubPos 1)) := by decide +kernel

theorem test_wit_eccInjectArm :
  (dev.Granted Port.pf0 983424) := by decide +kernel

end W04

/-! States that meet the hypotheses of the statements about quay. -/

namespace W05

/-- A QUAY_COMMIT of the tide unit (121), bound `b`. -/
def dCommit (b : Nat) : Desc := BitVec.ofNat 512 (0x80 + 2 ^ 128 * 2 ^ 121 + 2 ^ 256 * b)
def s_quayCommit : State := withD 3 (dCommit 0) dev
def s_quayCommit_tide : State := withD 3 (dCommit 4) dev
def s_quayCommit_fenced : State := withD 3 (dCommit 0) { dev with boomed := [(121, true)] }
def snap1 : Tbl Nat := [(Reg.TIDE_CFG_ERR_EQ.key 0 0, 7)]
def com1 : Commit := { State.commitOf { dev with quay := snap1 } ⟨3, 2, 0, dCommit 0⟩ with acc := 10, deadline := 500 }
def com4 : Commit := { State.commitOf { dev with quay := snap1 } ⟨3, 2, 0, dCommit 4⟩ with acc := 10, deadline := 500 }
def dec (code ax arg : Nat) : Decided :=
  { idx := 9, e := { pos := 0, axis := ax, action := code, late := false, eq := 2, target := 0, arg := arg, crx := 0 }, time := 0, late := false, fenced := false, s := 0, cap := 0 }
def s_commit : State := { dev with commits := [com4, com1], now := 20, issued := [dec 5 0 0] }
def s_commitBoundary : State := { dev with commits := [com1, com4], now := 20 }
def s_commitTimeout : State := { dev with commits := [com1], now := 500 }
def dDiscard : Desc := BitVec.ofNat 512 (0x81 + 2 ^ 128 * 2 ^ 121)
def s_quayDiscard : State := withD 3 dDiscard { dev with quay := snap1 }
def dStage : Desc := BitVec.ofNat 512 (0x82 + 2 ^ 128 * (0x10000 + 2 ^ 31 + 2 ^ 32 * 9))
def s_quayStage : State := withD 3 dStage dev

theorem test_wit_quayCommit :
  (s_quayCommit.Ready 3 128 (dCommit 0)) ∧
  (((s_quayCommit.begun 3).commitOf (s_quayCommit.jobOf 3 (dCommit 0))).bound < 5) ∧
  (dUnits (dCommit 0) < 2 ^ 122) ∧
  (commitZero (dCommit 0) = true) ∧
  (((s_quayCommit.begun 3).commitOf (s_quayCommit.jobOf 3 (dCommit 0))).bound = 2 → dget (dCommit 0) 36 0 32 ≠ 0) ∧
  (((s_quayCommit.begun 3).commitOf (s_quayCommit.jobOf 3 (dCommit 0))).bound = 3 →
  popcount ((s_quayCommit.begun 3).commitOf (s_quayCommit.jobOf 3 (dCommit 0))).stns 6 = 1) ∧
  (((s_quayCommit.begun 3).commitOf (s_quayCommit.jobOf 3 (dCommit 0))).bound = 1 →
  ((s_quayCommit.begun 3).commitOf (s_quayCommit.jobOf 3 (dCommit 0))).stns ≠ 0) ∧
  ((s_quayCommit.begun 3).unitsForeign (s_quayCommit.jobOf 3 (dCommit 0)) = false) ∧
  ((bitsOf (dUnits (dCommit 0)) 122).any s_quayCommit.isBoomed = false) ∧
  ((s_quayCommit.commits.any fun x =>
    x.units &&& dUnits (dCommit 0) != 0 ||
      ((s_quayCommit.begun 3).commitOf (s_quayCommit.jobOf 3 (dCommit 0))).bound == 4 && x.bound == 4 &&
        dTag x.job.d == dTag (dCommit 0)) =
  false) ∧
  (s_quayCommit.commits.length < 8) ∧
  (blame
    (failing ((s_quayCommit.begun 3).withSnap (dUnits (dCommit 0)) s_quayCommit.quay) (s_quayCommit.begun 3)
      (dUnits (dCommit 0)) false) =
  none) := by decide +kernel

theorem test_wit_quayCommit_tide :
  (s_quayCommit_tide.Ready 3 128 (dCommit 4)) ∧
  (((s_quayCommit_tide.begun 3).commitOf (s_quayCommit_tide.jobOf 3 (dCommit 4))).bound < 5) ∧
  (dUnits (dCommit 4) < 2 ^ 122) ∧
  (commitZero (dCommit 4) = true) ∧
  (((s_quayCommit_tide.begun 3).commitOf (s_quayCommit_tide.jobOf 3 (dCommit 4))).bound = 2 →
  dget (dCommit 4) 36 0 32 ≠ 0) ∧
  (((s_quayCommit_tide.begun 3).commitOf (s_quayCommit_tide.jobOf 3 (dCommit 4))).bound = 3 →
  popcount ((s_quayCommit_tide.begun 3).commitOf (s_quayCommit_tide.jobOf 3 (dCommit 4))).stns 6 = 1) ∧
  (((s_quayCommit_tide.begun 3).commitOf (s_quayCommit_tide.jobOf 3 (dCommit 4))).bound = 1 →
  ((s_quayCommit_tide.begun 3).commitOf (s_quayCommit_tide.jobOf 3 (dCommit 4))).stns ≠ 0) ∧
  ((s_quayCommit_tide.begun 3).unitsForeign (s_quayCommit_tide.jobOf 3 (dCommit 4)) = false) ∧
  ((bitsOf (dUnits (dCommit 4)) 122).any s_quayCommit_tide.isBoomed = false) ∧
  ((s_quayCommit_tide.commits.any fun x =>
    x.units &&& dUnits (dCommit 4) != 0 ||
      ((s_quayCommit_tide.begun 3).commitOf (s_quayCommit_tide.jobOf 3 (dCommit 4))).bound == 4 && x.bound == 4 &&
        dTag x.job.d == dTag (dCommit 4)) =
  false) ∧
  (s_quayCommit_tide.commits.length < 8) ∧
  (blame
    (failing ((s_quayCommit_tide.begun 3).withSnap (dUnits (dCommit 4)) s_quayCommit_tide.quay)
      (s_quayCommit_tide.begun 3) (dUnits (dCommit 4)) false) =
  none) := by decide +kernel

theorem test_wit_quayCommit_fenced :
  (s_quayCommit_fenced.Ready 3 128 (dCommit 0)) ∧
  (((s_quayCommit_fenced.begun 3).commitOf (s_quayCommit_fenced.jobOf 3 (dCommit 0))).bound < 5) ∧
  (dUnits (dCommit 0) < 2 ^ 122) ∧
  (commitZero (dCommit 0) = true) ∧
  (((s_quayCommit_fenced.begun 3).commitOf (s_quayCommit_fenced.jobOf 3 (dCommit 0))).bound = 2 →
  dget (dCommit 0) 36 0 32 ≠ 0) ∧
  (((s_quayCommit_fenced.begun 3).commitOf (s_quayCommit_fenced.jobOf 3 (dCommit 0))).bound = 3 →
  popcount ((s_quayCommit_fenced.begun 3).commitOf (s_quayCommit_fenced.jobOf 3 (dCommit 0))).stns 6 = 1) ∧
  (((s_quayCommit_fenced.begun 3).commitOf (s_quayCommit_fenced.jobOf 3 (dCommit 0))).bound = 1 →
  ((s_quayCommit_fenced.begun 3).commitOf (s_quayCommit_fenced.jobOf 3 (dCommit 0))).stns ≠ 0) ∧
  ((s_quayCommit_fenced.begun 3).unitsForeign (s_quayCommit_fenced.jobOf 3 (dCommit 0)) = false) ∧
  ((bitsOf (dUnits (dCommit 0)) 122).any s_quayCommit_fenced.isBoomed = true) ∧
  (s_quayCommit_fenced.Room (s_quayCommit_fenced.rd Reg.SQ_CFG_EQ 3)) ∧
  (3 < 64) := by decide +kernel

theorem test_wit_commit :
  (s_commit.commits[0]? = some com4) ∧
  (((s_commit.commits.eraseIdx 0).all fun x => x.job != com4.job) = true) ∧
  (com4.units = 2 ^ 121) ∧
  (com4.heads = 0) ∧
  (s_commit.keysRise) ∧
  (trising com4.snap = true) ∧
  (blame (failing (s_commit.issueTaken.withSnap com4.units com4.snap) s_commit.issueTaken com4.units true) = none) ∧
  (s_commit.OnTime 5 (dec 5 0 0)) ∧
  (List.find? (fun c => c.bound == 4 && c.heads == 0 && dTag c.job.d == (dec 5 0 0).e.arg) s_commit.commits =
  some com4) := by unfold State.keysRise; decide +kernel

theorem test_wit_commitBoundary :
  (s_commitBoundary.commits[0]? = some com1) ∧
  (((s_commitBoundary.commits.eraseIdx 0).all fun x => x.job != com1.job) = true) ∧
  (com1.units = 2 ^ 121) ∧
  (com1.heads = 0) ∧
  (s_commitBoundary.keysRise) ∧
  (trising com1.snap = true) ∧
  (blame
    (failing ((s_commitBoundary.markTried com1).withSnap com1.units com1.snap) (s_commitBoundary.markTried com1)
      com1.units true) =
  none) ∧
  (s_commitBoundary.atBoundary com1 = true) ∧
  (com1.tried ≠ some s_commitBoundary.now) ∧
  (((List.take 0 s_commitBoundary.commits).any fun x =>
    x.heads == 0 && s_commitBoundary.atBoundary x && x.tried != some s_commitBoundary.now) =
  false) := by unfold State.keysRise; decide +kernel

theorem test_wit_commitTimeout :
  (s_commitTimeout.commits[0]? = some com1) ∧
  (com1.deadline ≤ s_commitTimeout.now) ∧
  (s_commitTimeout.Room com1.job.eq) := by decide +kernel

theorem test_wit_quayDiscard :
  (3 < 64) ∧
  (s_quayDiscard.Ready 3 129 dDiscard) ∧
  (s_quayDiscard.Room (s_quayDiscard.rd Reg.SQ_CFG_EQ 3)) ∧
  (dUnits dDiscard < 2 ^ 122) ∧
  (dZero dDiscard 32 64 = true) ∧
  ((s_quayDiscard.begun 3).unitsForeign (s_quayDiscard.jobOf 3 dDiscard) = false) ∧
  (s_quayDiscard.keysRise) := by unfold State.keysRise; decide +kernel

theorem test_wit_quayStage :
  (3 < 64) ∧
  (s_quayStage.Ready 3 130 dStage) ∧
  (s_quayStage.Room (s_quayStage.rd Reg.SQ_CFG_EQ 3)) ∧
  (stagePairs dStage = [(65536, 9)]) ∧
  (((List.range 6).any fun i => dget dStage (16 + 8 * i) 20 11 != 0) = false) ∧
  (s_quayStage.ownerOf 65536 = some (s_quayStage.ownSq 3)) := by decide +kernel

end W05

/-! States that meet the hypotheses of the statements about tide. -/

namespace W06

def act (code ax arg target : Nat) : Decided :=
  { idx := 9, e := { pos := 0, axis := ax, action := code, late := false, eq := 2, target := target, arg := arg, crx := 0 }, time := 0, late := false, fenced := false, s := 0, cap := 77 }
def ent (code : Nat) : TEntry := { pos := 1000, axis := 39, action := code, late := false, eq := 2, target := 5, arg := 0, crx := 0 }
/-- A TIDE_INSERT of one entry at index 7 on AX39: NOP at position 1000. -/
def dInsert : Desc := BitVec.ofNat 512 (0x20 + 2 ^ 128 * (7 + 2 ^ 15) + 2 ^ 256 * (1000 + 2 ^ 40 * 39))
def entA : TEntry := { ent 0 with eq := 0, target := 0 }
def dRemove : Desc := BitVec.ofNat 512 (0x21 + 2 ^ 128 * (7 + 2 ^ 15))
def s_tideInsert : State := withD 3 dInsert dev
def s_tideRemove : State := withD 3 dRemove (dev.putEntry 7 (ent 0) true)
def s_tideActionIssue : State := { dev with decided := [act 0 0 0 0], now := 50 }
def s_tideActionIssue_full : State := { dev with decided := [act 0 0 0 0], now := 50, issueLog := List.replicate 64 7 }
def s_tideEntryDue : State := ({ dev with now := 1000 }.putEntry 7 (ent 1) true).wr Reg.AXIS_SCHED 1000 39
def outs : Tbl Nat := [(Reg.IO_GPIO_CFG_OUT.key 63 0, 1)]
def s_pin : State := { dev with live := outs, issued := [act 1 0 1 63] }
def s_pin_low : State := { dev with live := outs, issued := [act 1 0 0 63] }
def s_pin_release : State := { dev with live := outs, issued := [act 1 0 3 63], io := [(63, 1)] }
def s_pin_toggle : State := { dev with live := outs, issued := [act 1 0 2 63], io := [(63, 1)] }
def s_pin_refused : State := { dev with live := outs, issued := [act 1 0 1 62] }
def s_pulse : State := { dev with live := outs, issued := [act 2 0 (65535 + 65536) 63], now := 10, pulses := [(63, some (100, 1))] }
def s_pulseEnd : State := { dev with pulses := [(63, some (100, 1))], now := 100, io := [(63, 2)] }
def s_tideNop : State := { dev with issued := [act 0 0 0 0] }
def s_event : State := { dev with issued := [act 4 5 99 0] }
def s_capture : State := { dev with issued := [act 3 5 (256 + 39) 0] }
def s_capture_silent : State := { dev with issued := [act 3 5 39 0] }
def s_axisUpdate39_moored : State := dev.wr Reg.PWR_STAT_MODE 2
def axisDev : State := { dev with live := [(Reg.AXIS_CFG_EN.key 40 0, 1), (Reg.AXIS_CFG_HOLD_MAX.key 40 0, 100)] }
def s_axisUpdate : State := axisDev.wr Reg.ENC_CNT 5 0
def s_axisUpdate_hold : State := (axisDev.wr Reg.AXIS_SCHED 7 40).wr Reg.ENC_CNT 5 0
def s_rezero : State := { dev with issued := [act 6 5 12345 63] }
def dRezero : Desc := BitVec.ofNat 512 (0x22 + 2 ^ 128 * 40 + 2 ^ 192 * 777)
def s_axisRezero : State := withD 3 dRezero axisDev
def s_axisHistorySample : State := { dev with now := 100000 }.wr Reg.AXIS_HIST_SEL_EN 1 3 3 |>.wr Reg.AXIS_HIST_SEL_AXIS 39 3 3
def dConvert : Desc := BitVec.ofNat 512 (0x23 + 2 ^ 128 * 39 + 2 ^ 192 * 75000)
def s_axisConvert : State := withD 3 dConvert ({ dev with now := 200000, histK := 5, hist := [(15, [(2, 500, false), (1, 100, false)])] }.wr Reg.AXIS_HIST_SEL_EN 1 3 3 |>.wr Reg.AXIS_HIST_SEL_AXIS 39 3 3)
def s_axisConvert_noLane : State := withD 3 dConvert { dev with now := 200000 }
def s_axisConvert_future : State := withD 3 dConvert (dev.wr Reg.AXIS_HIST_SEL_EN 1 3 3 |>.wr Reg.AXIS_HIST_SEL_AXIS 39 3 3)

theorem test_wit_tideInsert :
  (3 < 64) ∧
  (s_tideInsert.Room (s_tideInsert.rd Reg.SQ_CFG_EQ 3)) ∧
  (s_tideInsert.dueEntries = []) ∧
  (s_tideInsert.Calm) ∧
  (s_tideInsert.Sound 1 (7 / 2)) ∧
  (s_tideInsert.live? 0 = none) ∧
  (s_tideInsert.tideWaits = []) ∧
  (s_tideInsert.Ready 3 32 dInsert) ∧
  (slots dInsert = [(7, entA)]) ∧
  (slotsZero dInsert = true) ∧
  (slotsBad dInsert = false) ∧
  (entA.axis < 64) ∧
  (s_tideInsert.axisEn entA.axis = true) ∧
  (entA.crx = 0) ∧
  (s_tideInsert.entryFenced entA = false) ∧
  (s_tideInsert.occupied 7 = false) ∧
  (s_tideInsert.behind entA = false) := by decide +kernel

theorem test_wit_tideRemove :
  (3 < 64) ∧
  (s_tideRemove.Room (s_tideRemove.rd Reg.SQ_CFG_EQ 3)) ∧
  (s_tideRemove.dueEntries = []) ∧
  (s_tideRemove.Calm) ∧
  (s_tideRemove.Sound 1 (7 / 2)) ∧
  (s_tideRemove.live? 0 = none) ∧
  (s_tideRemove.tideWaits = []) ∧
  (s_tideRemove.Ready 3 33 dRemove) ∧
  (List.filter (fun k => dget dRemove (16 + 2 * k) 15 1 == 1) (List.range 8) = [0]) ∧
  (dget dRemove 16 0 13 = 7) ∧
  (((List.range 8).any fun k => dget dRemove (16 + 2 * k) 13 2 != 0) = false) ∧
  (dZero dRemove 32 64 = true) ∧
  (s_tideRemove.entry? 7 = some (ent 0)) ∧
  ((ent 0).crx = 0) ∧
  ((ent 0).action ≠ 5) ∧
  ((ent 0).axis < 64) := by decide +kernel

theorem test_wit_tideEntryDue_none :
  (dev.rd Reg.PWR_STAT_MODE ≠ 2) ∧
  (dev.dueEntries = []) := by decide +kernel

theorem test_wit_tideActionIssue :
  (s_tideActionIssue.decided = [act 0 0 0 0]) ∧
  ((List.filter (fun x => x == s_tideActionIssue.now)
      (List.filter (fun t => decide (s_tideActionIssue.now < t + 1000)) s_tideActionIssue.issueLog)).length <
  2) ∧
  ((List.filter (fun t => decide (s_tideActionIssue.now < t + 1000)) s_tideActionIssue.issueLog).length < 64) := by decide +kernel

theorem test_wit_tideActionIssue_full :
  (s_tideActionIssue_full.decided = [act 0 0 0 0]) ∧
  (64 ≤
  (List.filter (fun t => decide (s_tideActionIssue_full.now < t + 1000)) s_tideActionIssue_full.issueLog).length) := by decide +kernel

theorem test_wit_tideEntryDue :
  (s_tideEntryDue.rd Reg.PWR_STAT_MODE ≠ 2) ∧
  (s_tideEntryDue.dueEntries = [(7, ent 1)]) ∧
  (s_tideEntryDue.entry? 7 = some (ent 1)) ∧
  (s_tideEntryDue.Sound 1 (7 / 2)) ∧
  (s_tideEntryDue.rezeroedNow (ent 1) = false) ∧
  (s_tideEntryDue.leftBehind (ent 1) = false) := by decide +kernel

theorem test_wit_pin :
  (s_pin.OnTime 1 (act 1 0 1 63)) ∧
  ((act 1 0 1 63).e.target < 64) ∧
  (s_pin.lon Reg.IO_GPIO_CFG_OUT (act 1 0 1 63).e.target = true) ∧
  ((act 1 0 1 63).e.arg < 4) := by decide +kernel

theorem test_wit_pin_low :
  (s_pin_low.OnTime 1 (act 1 0 0 63)) ∧
  ((act 1 0 0 63).e.target < 64) ∧
  (s_pin_low.lon Reg.IO_GPIO_CFG_OUT (act 1 0 0 63).e.target = true) ∧
  ((act 1 0 0 63).e.arg < 4) := by decide +kernel

theorem test_wit_pin_release :
  (s_pin_release.OnTime 1 (act 1 0 3 63)) ∧
  ((act 1 0 3 63).e.target < 64) ∧
  (s_pin_release.lon Reg.IO_GPIO_CFG_OUT (act 1 0 3 63).e.target = true) ∧
  ((act 1 0 3 63).e.arg < 4) := by decide +kernel

theorem test_wit_pin_toggle :
  (s_pin_toggle.OnTime 1 (act 1 0 2 63)) ∧
  ((act 1 0 2 63).e.target < 64) ∧
  (s_pin_toggle.lon Reg.IO_GPIO_CFG_OUT (act 1 0 2 63).e.target = true) ∧
  ((act 1 0 2 63).e.arg < 4) := by decide +kernel

theorem test_wit_pin_refused :
  (s_pin_refused.OnTime 1 (act 1 0 1 62)) ∧
  ((act 1 0 1 62).e.target < 64) ∧
  (s_pin_refused.lon Reg.IO_GPIO_CFG_OUT (act 1 0 1 62).e.target = false) ∧
  (s_pin_refused.Room (act 1 0 1 62).e.eq) ∧
  ((act 1 0 1 62).e.crx = 0) ∧
  (s_pin_refused.live? 0 = none) := by decide +kernel

theorem test_wit_pulse :
  (s_pulse.OnTime 2 (act 2 0 (65535 + 65536) 63)) ∧
  ((act 2 0 (65535 + 65536) 63).e.target < 64) ∧
  (s_pulse.lon Reg.IO_GPIO_CFG_OUT (act 2 0 (65535 + 65536) 63).e.target = true) := by decide +kernel

theorem test_wit_pulseEnd :
  (tget none s_pulseEnd.pulses 63 = some (100, 1)) ∧
  (100 ≤ s_pulseEnd.now) := by decide +kernel

theorem test_wit_tideNop :
  (s_tideNop.OnTime 0 (act 0 0 0 0)) := by decide +kernel

theorem test_wit_event :
  (s_event.OnTime 4 (act 4 5 99 0)) ∧
  (s_event.Room (act 4 5 99 0).e.eq) := by decide +kernel

theorem test_wit_capture :
  (s_capture.OnTime 3 (act 3 5 (256 + 39) 0)) ∧
  (bitOf (act 3 5 (256 + 39) 0).e.arg 8 = true) ∧
  (s_capture.Room (act 3 5 (256 + 39) 0).e.eq) := by decide +kernel

theorem test_wit_capture_silent :
  (s_capture_silent.OnTime 3 (act 3 5 39 0)) ∧
  (bitOf (act 3 5 39 0).e.arg 8 = false) := by decide +kernel

theorem test_wit_axisUpdate_off :
  (5 < 64) ∧
  (5 ≠ 39) ∧
  (dev.rd Reg.PWR_STAT_MODE ≠ 2) ∧
  (dev.axisOn 5 = false) := by decide +kernel

theorem test_wit_axisUpdate :
  (40 < 64) ∧
  (40 ≠ 39) ∧
  (s_axisUpdate.rd Reg.PWR_STAT_MODE ≠ 2) ∧
  (s_axisUpdate.axisOn 40 = true) ∧
  (¬(32 ≤ 40 ∧ 40 < 39)) ∧
  (∀ (e : Nat), e < 8 → s_axisUpdate.on Reg.EMU_CFG_EN e = false) ∧
  (∀ (n : Nat), n < 6 → s_axisUpdate.axisOn (32 + n) = false) ∧
  (s_axisUpdate.axisCount 40 < 2 ^ 40) ∧
  (posReached (s_axisUpdate.axisCount 40) (s_axisUpdate.rd Reg.AXIS_SCHED 40) = true) := by decide +kernel

theorem test_wit_axisUpdate_hold :
  (40 < 64) ∧
  (40 ≠ 39) ∧
  (s_axisUpdate_hold.rd Reg.PWR_STAT_MODE ≠ 2) ∧
  (s_axisUpdate_hold.axisOn 40 = true) ∧
  (¬(32 ≤ 40 ∧ 40 < 39)) ∧
  (∀ (e : Nat), e < 8 → s_axisUpdate_hold.on Reg.EMU_CFG_EN e = false) ∧
  (∀ (n : Nat), n < 6 → s_axisUpdate_hold.axisOn (32 + n) = false) ∧
  (s_axisUpdate_hold.axisCount 40 < 2 ^ 40) ∧
  (posReached (s_axisUpdate_hold.axisCount 40) (s_axisUpdate_hold.rd Reg.AXIS_SCHED 40) = false) ∧
  (posDist (s_axisUpdate_hold.rd Reg.AXIS_SCHED 40) (s_axisUpdate_hold.axisCount 40) ≤
  s_axisUpdate_hold.lv Reg.AXIS_CFG_HOLD_MAX 40) := by decide +kernel

theorem test_wit_rezero :
  (40 ≤ 63) ∧
  (63 < 64) ∧
  (12345 < 2 ^ 40) ∧
  (s_rezero.tide = []) ∧
  ((s_rezero.encs (s_rezero.lv Reg.AXIS_CFG_PORT 63)).times.head? ≠ some s_rezero.now) ∧
  (s_rezero.OnTime 6 (act 6 5 12345 63)) ∧
  ((act 6 5 12345 63).e.target = 63) ∧
  ((act 6 5 12345 63).e.arg = 12345) := by decide +kernel

theorem test_wit_axisRezero :
  (40 ≤ 40) ∧
  (40 < 64) ∧
  (777 < 2 ^ 40) ∧
  (s_axisRezero.tide = []) ∧
  ((s_axisRezero.encs (s_axisRezero.lv Reg.AXIS_CFG_PORT 40)).times.head? ≠ some s_axisRezero.now) ∧
  (3 < 64) ∧
  (s_axisRezero.Ready 3 34 dRezero) ∧
  (s_axisRezero.Room (s_axisRezero.rd Reg.SQ_CFG_EQ 3)) ∧
  (dget dRezero 16 0 6 = 40) ∧
  (dget dRezero 24 0 40 = 777) ∧
  (dget dRezero 16 6 2 = 0) ∧
  (dZero dRezero 17 24 = true) ∧
  (dget dRezero 24 40 24 = 0) ∧
  (dZero dRezero 32 64 = true) ∧
  (s_axisRezero.fenced (38 + s_axisRezero.lv Reg.AXIS_CFG_PORT 40) = false) := by decide +kernel

theorem test_wit_axisHistorySample :
  (s_axisHistorySample.now % 50000 = 0) ∧
  (s_axisHistorySample.histK ≤ s_axisHistorySample.now / 50000) ∧
  (∀ (w : MarkWin), w ∈ s_axisHistorySample.marks → w.edge = none) ∧
  (s_axisHistorySample.flWait = []) := by decide +kernel

theorem test_wit_axisConvert :
  (s_axisConvert.Ready 3 35 dConvert) ∧
  (s_axisConvert.Room (s_axisConvert.rd Reg.SQ_CFG_EQ 3)) ∧
  (dget dConvert 16 6 2 = 0) ∧
  (dZero dConvert 17 24 = true) ∧
  (dget dConvert 24 40 24 = 0) ∧
  (dZero dConvert 32 64 = true) ∧
  (s_axisConvert.convert (dget dConvert 16 0 6) (dget dConvert 24 0 40) ≠ Conv.wait) := by decide +kernel

theorem test_wit_axisConvert_noLane :
  (s_axisConvert_noLane.Ready 3 35 dConvert) ∧
  (s_axisConvert_noLane.Room (s_axisConvert_noLane.rd Reg.SQ_CFG_EQ 3)) ∧
  (dget dConvert 16 6 2 = 0) ∧
  (dZero dConvert 17 24 = true) ∧
  (dget dConvert 24 40 24 = 0) ∧
  (dZero dConvert 32 64 = true) ∧
  (s_axisConvert_noLane.convert (dget dConvert 16 0 6) (dget dConvert 24 0 40) ≠ Conv.wait) := by decide +kernel

theorem test_wit_axisConvert_future :
  (s_axisConvert_future.Ready 3 35 dConvert) ∧
  (s_axisConvert_future.Room (s_axisConvert_future.rd Reg.SQ_CFG_EQ 3)) ∧
  (dget dConvert 16 6 2 = 0) ∧
  (dZero dConvert 17 24 = true) ∧
  (dget dConvert 24 40 24 = 0) ∧
  (dZero dConvert 32 64 = true) ∧
  (s_axisConvert_future.convert (dget dConvert 16 0 6) (dget dConvert 24 0 40) ≠ Conv.wait) := by decide +kernel

end W06

/-! States that meet the hypotheses of the statements about crossings. -/

namespace W07

/-- A head alone of crossing 7: cast-off at 100,000 and landing at 200,000 on AX39, LINK `k`. -/
def dHead (stns win k : Nat) : Desc :=
  BitVec.ofNat 512 (0x01 + 2 ^ 64 * 7 + 2 ^ 96 * k + 2 ^ 128 * stns + 2 ^ 144 * win + 2 ^ 176 * 39 + 2 ^ 192 * 100000 + 2 ^ 256 * 200000 + 2 ^ 320)
/-- A window descriptor of crossing 7: sensor 3, axis 39, opens at 120,000, closes at 130,000. -/
def dWin : Desc := BitVec.ofNat 512 (0x04 + 2 ^ 64 * 7 + 2 ^ 128 * (120000 + 2 ^ 40 * 39 + 2 ^ 46 * 3 + 2 ^ 51 + 2 ^ 63) + 2 ^ 192 * 130000)
def fdev : State := { dev with boot := { dev.boot with running := true }, now := 7 }
def s_manifestHead : State := fdev.setSq 3 { SqSt.init with accepted := [dHead 0 1 1, dWin] }
def s_manifestHead_bad : State := withD 3 (dHead 0 0 0 + 2 ^ 150) fdev
def s_manifestHead_boards : State := withD 3 (dHead 0 0 0) fdev
def j0 (d : Desc) : Job := ⟨3, 0, 0, d⟩
def s_manifestWindow_more : State := fdev.setSq 3 { SqSt.init with accepted := [dWin], running := 1, manifest := [j0 (dHead 0 4 2)] }
def s_mw : State := fdev.setSq 3 { SqSt.init with accepted := [dWin], running := 1, manifest := [j0 (dHead 0 1 1)] }
def s_mw' : State := s_mw.setSq 3 { s_mw.sqs 3 with accepted := [], running := 2, manifest := [] }
def s_mb : State := fdev.setSq 3 { SqSt.init with accepted := [dWin + 2 ^ 180], running := 1, manifest := [j0 (dHead 0 1 1)] }
def s_mb' : State := s_mb.setSq 3 { s_mb.sqs 3 with accepted := [], running := 2, manifest := [] }
/-- Crossing 7 in state `st`, with its one window. -/
def cr (st : Nat) : Crossing := { crossingOf [j0 (dHead 0 1 1), j0 dWin] with state := st, chain := if st = 1 then [j0 (dHead 0 1 1), j0 dWin] else [] }
def cdev (c : Crossing) : State := { fdev with crossings := [c], now := 100 }
def s_boarded : State := (cdev (cr 1)).putEntry 0 { pos := 100000, axis := 39, action := 0x10, late := false, eq := 0, target := 0, arg := 0, crx := 7 } false
def crx0 : Crossing := { cr 1 with deadline := 100 }
def crx1 : Crossing := { cr 3 with wins := [] }
def crx2 : Crossing := { cr 3 with details := [7], wins := [] }
def crx3 : Crossing := { cr 3 with abandon := some 2 }
def s_boardingTimeout : State := cdev crx0
def dAb : Desc := BitVec.ofNat 512 (0x08 + 2 ^ 64 * 7)
def s_crossingAbandon_boarding : State := withD 4 dAb (cdev (cr 1))
def s_crossingAbandon : State := withD 4 dAb (cdev (cr 2))
def s_crossingAbandon_none : State := withD 4 dAb (cdev (cr 4))
def dPc : Desc := BitVec.ofNat 512 (0x09 + 2 ^ 64 * 7)
def s_pathClear : State := withD 4 dPc { fdev with jams := [(31, 7), (2, 8)] }
def s_pathClear_none : State := withD 4 dPc fdev
def act7 (code arg : Nat) : Decided :=
  { idx := 9, e := { pos := 0, axis := 39, action := code, late := false, eq := 2, target := 0, arg := arg, crx := 7 }, time := 0, late := false, fenced := false, s := 0, cap := 77 }
def s_castOff : State := { cdev (cr 2) with issued := [act7 0x10 0] }
def s_windowOpen : State := { cdev (cr 3) with issued := [act7 0x13 0] }
def crW (o x : Bool) : Crossing := { cr 3 with wins := (cr 3).wins.map fun w => { w with opened := o, sat := x } }
def w0 (o x : Bool) : Win := ⟨0, 39, 3, true, 120000, 130000, o, false, x, none⟩
def s_windowClose : State := { cdev (crW true true) with issued := [act7 0x14 0] }
def nodeLive : Tbl Nat := [(Reg.IO_SHEET_INPUT.key 3 0, 64), (Reg.IO_SHEET_EN.key 3 0, 1), (Reg.IO_PTMAP_EN.key 0 0, 1), (Reg.IO_PTMAP_NODE.key 0 0, 9)]
def s_windowClose_node : State := { cdev (crW true false) with issued := [act7 0x14 0], live := nodeLive }
def s_land : State := { cdev crx1 with issued := [act7 0x15 0] }
def s_land_spoiled : State := { cdev crx2 with issued := [act7 0x15 0] }
def s_sheetEdge : State := { cdev (crW true false) with live := [(Reg.IO_SHEET_COVER_LVL.key 3 0, 0), (Reg.IO_SHEET_EN.key 3 0, 1)] }
def s_abandonComplete : State := cdev crx3
def s_engineAbandon : State := { cdev (cr 3) with abCauses := 4, stn := [(5, { Stn.init with expo := some ⟨7, 0, 0, [], 0⟩ })] }
def s_engineAbandonLaserCut : State := { cdev (cr 3) with eng := some ⟨3, 0⟩, now := 1000000, stn := [(5, { Stn.init with expo := some ⟨7, 0, 0, [], 0⟩ })] }
def s_engineAbandonShutdown : State := { fdev with eng := some ⟨3, 0⟩, now := 1000000 }.wr Reg.HV_STAT_STATE Hst.run 31

theorem test_wit_manifestHead :
  (s_manifestHead.boardsNow = true) ∧
  (s_manifestHead.Ready 3 1 (dHead 0 1 1)) ∧
  (orderOk (dHead 0 1 1) (List.take (dLink (dHead 0 1 1)) (s_manifestHead.sqs 3).accepted.tail) = true) ∧
  (dLink (dHead 0 1 1) ≠ 0) := by decide +kernel

theorem test_wit_manifestHead_bad :
  (s_manifestHead_bad.boardsNow = true) ∧
  (s_manifestHead_bad.Ready 3 1 (dHead 0 0 0 + 2 ^ 150)) ∧
  (orderOk (dHead 0 0 0 + 2 ^ 150)
    (List.take (dLink (dHead 0 0 0 + 2 ^ 150)) (s_manifestHead_bad.sqs 3).accepted.tail) =
  true) ∧
  (dLink (dHead 0 0 0 + 2 ^ 150) = 0) ∧
  ((s_manifestHead_bad.begun 3).manifestCheck [s_manifestHead_bad.jobOf 3 (dHead 0 0 0 + 2 ^ 150)] =
  some (2, St.badDesc)) ∧
  (St.badDesc ≠ St.ok) ∧
  (s_manifestHead_bad.Room (s_manifestHead_bad.rd Reg.SQ_CFG_EQ 3)) := by decide +kernel

theorem test_wit_manifestHead_boards :
  (s_manifestHead_boards.boardsNow = true) ∧
  (s_manifestHead_boards.Ready 3 1 (dHead 0 0 0)) ∧
  (orderOk (dHead 0 0 0) (List.take (dLink (dHead 0 0 0)) (s_manifestHead_boards.sqs 3).accepted.tail) = true) ∧
  (dLink (dHead 0 0 0) = 0) ∧
  ((s_manifestHead_boards.begun 3).manifestCheck [s_manifestHead_boards.jobOf 3 (dHead 0 0 0)] = none) ∧
  (s_manifestHead_boards.Calm) ∧
  (s_manifestHead_boards.poison = []) ∧
  (s_manifestHead_boards.flips = []) := by decide +kernel

theorem test_wit_manifestWindow_more :
  (s_manifestWindow_more.boardsNow = true) ∧
  ((s_manifestWindow_more.sqs 3).manifest = [j0 (dHead 0 4 2)]) ∧
  ((s_manifestWindow_more.sqs 3).accepted = [dWin]) ∧
  (dFence dWin = true → (s_manifestWindow_more.sqs 3).running = (s_manifestWindow_more.sqs 3).manifest.length) ∧
  ((4, Instr.manifestWindow 3) ∈
  [(2, Instr.manifestStation 3), (3, Instr.manifestPath 3), (4, Instr.manifestWindow 3), (5, Instr.manifestTide 3)]) ∧
  (dOpc dWin = (4, Instr.manifestWindow 3).fst) ∧
  (([j0 (dHead 0 4 2)] ++ [s_manifestWindow_more.jobOf 3 dWin]).length ≤ dLink (j0 (dHead 0 4 2)).d) := by decide +kernel

theorem test_wit_manifestWindow_boards :
  (s_mw.boardsNow = true) ∧
  ((s_mw.sqs 3).manifest = [j0 (dHead 0 1 1)]) ∧
  ((s_mw.sqs 3).accepted = [dWin]) ∧
  (dFence dWin = true → (s_mw.sqs 3).running = (s_mw.sqs 3).manifest.length) ∧
  ((4, Instr.manifestWindow 3) ∈
  [(2, Instr.manifestStation 3), (3, Instr.manifestPath 3), (4, Instr.manifestWindow 3), (5, Instr.manifestTide 3)]) ∧
  (dOpc dWin = (4, Instr.manifestWindow 3).fst) ∧
  (dLink (j0 (dHead 0 1 1)).d < ([j0 (dHead 0 1 1)] ++ [s_mw.jobOf 3 dWin]).length) ∧
  (s_mw' =
  s_mw.setSq 3
    (have __src := s_mw.sqs 3;
    { accepted := [], part := __src.part, running := (s_mw.sqs 3).running + 1, chainAt := __src.chainAt,
      chainNeed := __src.chainNeed, chainLost := __src.chainLost, manifest := [] : SqSt })) ∧
  (s_mw'.manifestCheck ([j0 (dHead 0 1 1)] ++ [s_mw.jobOf 3 dWin]) = none) ∧
  (s_mw.Calm) ∧
  (s_mw.poison = []) ∧
  (s_mw.flips = []) := by decide +kernel

theorem test_wit_manifestWindow_bad :
  (s_mb.boardsNow = true) ∧
  ((s_mb.sqs 3).manifest = [j0 (dHead 0 1 1)]) ∧
  ((s_mb.sqs 3).accepted = [dWin + 2 ^ 180]) ∧
  (dFence (dWin + 2 ^ 180) = true → (s_mb.sqs 3).running = (s_mb.sqs 3).manifest.length) ∧
  ((4, Instr.manifestWindow 3) ∈
  [(2, Instr.manifestStation 3), (3, Instr.manifestPath 3), (4, Instr.manifestWindow 3), (5, Instr.manifestTide 3)]) ∧
  (dOpc (dWin + 2 ^ 180) = (4, Instr.manifestWindow 3).fst) ∧
  (dLink (j0 (dHead 0 1 1)).d < ([j0 (dHead 0 1 1)] ++ [s_mb.jobOf 3 (dWin + 2 ^ 180)]).length) ∧
  (s_mb' =
  s_mb.setSq 3
    (have __src := s_mb.sqs 3;
    { accepted := [], part := __src.part, running := (s_mb.sqs 3).running + 1, chainAt := __src.chainAt,
      chainNeed := __src.chainNeed, chainLost := __src.chainLost, manifest := [] : SqSt })) ∧
  (s_mb'.manifestCheck ([j0 (dHead 0 1 1)] ++ [s_mb.jobOf 3 (dWin + 2 ^ 180)]) = some (2, St.badDesc)) := by decide +kernel

theorem test_wit_boarded :
  (s_boarded.live? 7 = some (cr 1)) ∧
  ((cr 1).state = 1) ∧
  (s_boarded.pwr.kept = none) ∧
  (((cr 1).parts.all fun p => s_boarded.filled (cr 1) p) = true) ∧
  (∀ (x : Nat × TEntry),
  x ∈ s_boarded.entries → posReached (s_boarded.rd Reg.AXIS_SCHED x.snd.axis) x.snd.pos = false) := by decide +kernel

theorem test_wit_boardingTimeout :
  (s_boardingTimeout.live? 7 = some crx0) ∧
  (crx0.state = 1) ∧
  (s_boardingTimeout.pwr.kept = none) ∧
  (crx0.deadline ≤ s_boardingTimeout.now) := by decide +kernel

theorem test_wit_crossingAbandon_boarding :
  (s_crossingAbandon_boarding.live? 7 = some (cr 1)) ∧
  ((cr 1).state = 1) ∧
  (s_crossingAbandon_boarding.pwr.kept = none) ∧
  (s_crossingAbandon_boarding.Ready 4 8 dAb) ∧
  (dCrx dAb = 7) ∧
  (dZero dAb 16 64 = true) := by decide +kernel

theorem test_wit_crossingAbandon :
  (s_crossingAbandon.Ready 4 8 dAb) ∧
  (dZero dAb 16 64 = true) ∧
  (s_crossingAbandon.live? (dCrx dAb) = some (cr 2)) ∧
  ((cr 2).state = 2) ∧
  ((cr 2).abandon = none) := by decide +kernel

theorem test_wit_crossingAbandon_none :
  (s_crossingAbandon_none.Ready 4 8 dAb) ∧
  (dZero dAb 16 64 = true) ∧
  (s_crossingAbandon_none.live? (dCrx dAb) = none) ∧
  (s_crossingAbandon_none.Room (s_crossingAbandon_none.rd Reg.SQ_CFG_EQ 4)) := by decide +kernel

theorem test_wit_pathClear :
  (s_pathClear.Ready 4 9 dPc) ∧
  (dZero dPc 16 64 = true) ∧
  (s_pathClear.Room (s_pathClear.rd Reg.SQ_CFG_EQ 4)) := by decide +kernel

theorem test_wit_pathClear_none :
  (s_pathClear_none.Ready 4 9 dPc) ∧
  (dZero dPc 16 64 = true) ∧
  (s_pathClear_none.Room (s_pathClear_none.rd Reg.SQ_CFG_EQ 4)) := by decide +kernel

theorem test_wit_castOff :
  (s_castOff.issued = [act7 16 0]) ∧
  (s_castOff.tideWaits = []) ∧
  (s_castOff.live? (act7 16 0).e.crx = some (cr 2)) ∧
  ((act7 16 0).e.action = 16) ∧
  ((cr 2).state = 2) ∧
  ((cr 2).abandon = none) := by decide +kernel

theorem test_wit_windowOpen :
  (s_windowOpen.issued = [act7 19 0]) ∧
  (s_windowOpen.tideWaits = []) ∧
  (s_windowOpen.live? (act7 19 0).e.crx = some (cr 3)) ∧
  ((act7 19 0).e.action = 19) := by decide +kernel

theorem test_wit_windowClose :
  (s_windowClose.issued = [act7 20 0]) ∧
  (s_windowClose.tideWaits = []) ∧
  (s_windowClose.live? (act7 20 0).e.crx = some (crW true true)) ∧
  ((act7 20 0).e.action = 20) ∧
  (List.find? (fun w => w.id == (act7 20 0).e.arg % 256 && !w.closed) (crW true true).wins = some (w0 true true)) := by decide +kernel

theorem test_wit_windowClose_node :
  (s_windowClose_node.issued = [act7 20 0]) ∧
  (s_windowClose_node.tideWaits = []) ∧
  (s_windowClose_node.live? (act7 20 0).e.crx = some (crW true false)) ∧
  ((act7 20 0).e.action = 20) ∧
  (List.find? (fun w => w.id == (act7 20 0).e.arg % 256 && !w.closed) (crW true false).wins =
  some (w0 true false)) := by decide +kernel

theorem test_wit_land :
  (s_land.issued = [act7 21 0]) ∧
  (s_land.tideWaits = []) ∧
  (s_land.live? (act7 21 0).e.crx = some crx1) ∧
  ((act7 21 0).e.action = 21) ∧
  (crx1.state = 3) ∧
  (crx1.abandon = none) ∧
  (∀ (p : Part), p ∈ crx1.parts → p.done = true ∧ (s_land.stns p.stn).expo = none) ∧
  (∀ (w : Win), w ∈ crx1.wins → w.closed = true) ∧
  ({ pending := s_land.pending, now := s_land.now, free := s_land.free, out := s_land.out, regs := s_land.regs,
        edgeRegs := s_land.edgeRegs, edgeSw := s_land.edgeSw, quay := s_land.quay, live := s_land.live,
        wlDone := s_land.wlDone, post := s_land.post, lowLatch := s_land.lowLatch, cfg := s_land.cfg,
        msixTab := s_land.msixTab, pf0 := s_land.pf0, pf1 := s_land.pf1, sq := s_land.sq, eq := s_land.eq,
        rrSq := s_land.rrSq, holdover := s_land.holdover, chartSeq := s_land.chartSeq, chartWant := s_land.chartWant,
        chartMs := s_land.chartMs, commits := s_land.commits, boot := s_land.boot, flash0 := s_land.flash0,
        flash1 := s_land.flash1, otp := s_land.otp, logbook := s_land.logbook, causes := s_land.causes,
        lastRec := s_land.lastRec, boomed := s_land.boomed, laid := s_land.laid, flips := s_land.flips,
        poison := s_land.poison, unitBad := s_land.unitBad, scrubPos := s_land.scrubPos, scrubDue := s_land.scrubDue,
        scrubAt := s_land.scrubAt, lantern := s_land.lantern, lanternAt := s_land.lanternAt, tide := s_land.tide,
        tideArmed := s_land.tideArmed, tideOwner := s_land.tideOwner, decided := s_land.decided, issued := [],
        issueLog := s_land.issueLog, tideFresh := s_land.tideFresh, tideWaits := s_land.tideWaits,
        axDisc := s_land.axDisc, hist := s_land.hist, histK := s_land.histK, io := s_land.io, pulses := s_land.pulses,
        crossings := s_land.crossings, castCount := s_land.castCount, jams := s_land.jams, abCauses := s_land.abCauses,
        eng := s_land.eng, graveHold := s_land.graveHold, nodeLaid := s_land.nodeLaid, stn := s_land.stn,
        rlt := s_land.rlt, marks := s_land.marks, hold := s_land.hold, spll := s_land.spll, ramps := s_land.ramps,
        bl := s_land.bl, drv := s_land.drv, bus := s_land.bus, edgeLive := s_land.edgeLive, mot := s_land.mot,
        segs := s_land.segs, stopWaits := s_land.stopWaits, stp := s_land.stp, ustep := s_land.ustep, enc := s_land.enc,
        emu := s_land.emu, loop := s_land.loop, lparam := s_land.lparam, lword := s_land.lword, block := s_land.block,
        ff := s_land.ff, cap := s_land.cap, capAt := s_land.capAt, hv := s_land.hv, htr := s_land.htr,
        mains := s_land.mains, tEff := s_land.tEff, thermMs := s_land.thermMs, hbTherm := s_land.hbTherm,
        thrWant := s_land.thrWant, thrAt := s_land.thrAt, fusAt := s_land.fusAt, droopAt := s_land.droopAt,
        hbDroop := s_land.hbDroop, sequ := s_land.sequ, pwr := s_land.pwr, xfer := s_land.xfer, fport := s_land.fport,
        fnode := s_land.fnode, flWait := s_land.flWait, raisedAt := s_land.raisedAt, layups := s_land.layups,
        lbDue := s_land.lbDue : State }.owned
    (act7 21 0).e.crx =
  []) ∧
  (s_land.pwr.kept = none) := by decide +kernel

theorem test_wit_land_spoiled :
  (s_land_spoiled.issued = [act7 21 0]) ∧
  (s_land_spoiled.tideWaits = []) ∧
  (s_land_spoiled.live? (act7 21 0).e.crx = some crx2) ∧
  ((act7 21 0).e.action = 21) ∧
  (crx2.state = 3) ∧
  (crx2.abandon = none) ∧
  (∀ (p : Part), p ∈ crx2.parts → p.done = true ∧ (s_land_spoiled.stns p.stn).expo = none) ∧
  (∀ (w : Win), w ∈ crx2.wins → w.closed = true) ∧
  ({ pending := s_land_spoiled.pending, now := s_land_spoiled.now, free := s_land_spoiled.free,
        out := s_land_spoiled.out, regs := s_land_spoiled.regs, edgeRegs := s_land_spoiled.edgeRegs,
        edgeSw := s_land_spoiled.edgeSw, quay := s_land_spoiled.quay, live := s_land_spoiled.live,
        wlDone := s_land_spoiled.wlDone, post := s_land_spoiled.post, lowLatch := s_land_spoiled.lowLatch,
        cfg := s_land_spoiled.cfg, msixTab := s_land_spoiled.msixTab, pf0 := s_land_spoiled.pf0,
        pf1 := s_land_spoiled.pf1, sq := s_land_spoiled.sq, eq := s_land_spoiled.eq, rrSq := s_land_spoiled.rrSq,
        holdover := s_land_spoiled.holdover, chartSeq := s_land_spoiled.chartSeq, chartWant := s_land_spoiled.chartWant,
        chartMs := s_land_spoiled.chartMs, commits := s_land_spoiled.commits, boot := s_land_spoiled.boot,
        flash0 := s_land_spoiled.flash0, flash1 := s_land_spoiled.flash1, otp := s_land_spoiled.otp,
        logbook := s_land_spoiled.logbook, causes := s_land_spoiled.causes, lastRec := s_land_spoiled.lastRec,
        boomed := s_land_spoiled.boomed, laid := s_land_spoiled.laid, flips := s_land_spoiled.flips,
        poison := s_land_spoiled.poison, unitBad := s_land_spoiled.unitBad, scrubPos := s_land_spoiled.scrubPos,
        scrubDue := s_land_spoiled.scrubDue, scrubAt := s_land_spoiled.scrubAt, lantern := s_land_spoiled.lantern,
        lanternAt := s_land_spoiled.lanternAt, tide := s_land_spoiled.tide, tideArmed := s_land_spoiled.tideArmed,
        tideOwner := s_land_spoiled.tideOwner, decided := s_land_spoiled.decided, issued := [],
        issueLog := s_land_spoiled.issueLog, tideFresh := s_land_spoiled.tideFresh,
        tideWaits := s_land_spoiled.tideWaits, axDisc := s_land_spoiled.axDisc, hist := s_land_spoiled.hist,
        histK := s_land_spoiled.histK, io := s_land_spoiled.io, pulses := s_land_spoiled.pulses,
        crossings := s_land_spoiled.crossings, castCount := s_land_spoiled.castCount, jams := s_land_spoiled.jams,
        abCauses := s_land_spoiled.abCauses, eng := s_land_spoiled.eng, graveHold := s_land_spoiled.graveHold,
        nodeLaid := s_land_spoiled.nodeLaid, stn := s_land_spoiled.stn, rlt := s_land_spoiled.rlt,
        marks := s_land_spoiled.marks, hold := s_land_spoiled.hold, spll := s_land_spoiled.spll,
        ramps := s_land_spoiled.ramps, bl := s_land_spoiled.bl, drv := s_land_spoiled.drv, bus := s_land_spoiled.bus,
        edgeLive := s_land_spoiled.edgeLive, mot := s_land_spoiled.mot, segs := s_land_spoiled.segs,
        stopWaits := s_land_spoiled.stopWaits, stp := s_land_spoiled.stp, ustep := s_land_spoiled.ustep,
        enc := s_land_spoiled.enc, emu := s_land_spoiled.emu, loop := s_land_spoiled.loop,
        lparam := s_land_spoiled.lparam, lword := s_land_spoiled.lword, block := s_land_spoiled.block,
        ff := s_land_spoiled.ff, cap := s_land_spoiled.cap, capAt := s_land_spoiled.capAt, hv := s_land_spoiled.hv,
        htr := s_land_spoiled.htr, mains := s_land_spoiled.mains, tEff := s_land_spoiled.tEff,
        thermMs := s_land_spoiled.thermMs, hbTherm := s_land_spoiled.hbTherm, thrWant := s_land_spoiled.thrWant,
        thrAt := s_land_spoiled.thrAt, fusAt := s_land_spoiled.fusAt, droopAt := s_land_spoiled.droopAt,
        hbDroop := s_land_spoiled.hbDroop, sequ := s_land_spoiled.sequ, pwr := s_land_spoiled.pwr,
        xfer := s_land_spoiled.xfer, fport := s_land_spoiled.fport, fnode := s_land_spoiled.fnode,
        flWait := s_land_spoiled.flWait, raisedAt := s_land_spoiled.raisedAt, layups := s_land_spoiled.layups,
        lbDue := s_land_spoiled.lbDue : State }.owned
    (act7 21 0).e.crx =
  []) ∧
  (s_land_spoiled.pwr.kept = none) := by decide +kernel

theorem test_wit_sheetEdge :
  (3 < 32) ∧
  (s_sheetEdge.lon Reg.IO_SHEET_EN 3 = true) ∧
  (s_sheetEdge.lv Reg.IO_SHEET_INPUT 3 < 64) ∧
  (100 * s_sheetEdge.lv Reg.IO_GPIO_CFG_FILT (s_sheetEdge.lv Reg.IO_SHEET_INPUT 3) ≤ 10000000) ∧
  (1000 * max 1 (s_sheetEdge.lv Reg.IO_SHEET_DEBOUNCE 3) ≤ 10000000) ∧
  (List.find? (fun x => !x.snd.sat && x.snd.sense == !true == s_sheetEdge.lon Reg.IO_SHEET_COVER_LVL 3)
    (List.filter (fun x => x.snd.opened && !x.snd.closed) (s_sheetEdge.winsOn 3)) =
  some (crW true false, w0 true false)) := by decide +kernel

theorem test_wit_abandonComplete :
  (s_abandonComplete.live? 7 = some crx3) ∧
  (crx3.abandon.isSome = true) ∧
  (s_abandonComplete.exposing 7 = 0) ∧
  (s_abandonComplete.pwr.kept = none) := by decide +kernel

theorem test_wit_engineAbandon :
  (s_engineAbandon.abCauses ≠ 0) ∧
  (s_engineAbandon.eng = none) := by decide +kernel

theorem test_wit_engineAbandonLaserCut :
  (s_engineAbandonLaserCut.eng = some { cause := 3, start := 0 : EngAb }) ∧
  ({ cause := 3, start := 0 : EngAb }.start + 1000000 ≤ s_engineAbandonLaserCut.now) := by decide +kernel

theorem test_wit_engineAbandonShutdown :
  (s_engineAbandonShutdown.eng = some { cause := 3, start := 0 : EngAb }) ∧
  (∀ (n : Nat), n < 6 → (s_engineAbandonShutdown.stns n).expo = none) ∧
  (s_engineAbandonShutdown.pwr.kept = none) := by decide +kernel

end W07

/-! States that meet the hypotheses of the statements about station. -/

namespace W08

def setS (n : Nat) (f : Stn → Stn) (s : State) : State := s.setStn n (f (s.stns n))
def pred3 (x : Stn) : Stn := { x with sweep := some 3000, sos0 := some 3000, sos1 := some 1000, sosGap := 1, eosSeen := true }
def s_sosEdge : State := setS 5 pred3 dev
def s_sosEdge_late : State := setS 5 pred3 dev
def s_sosWindowExpire : State := setS 5 pred3 dev
theorem test_wit_sos_cases : 0 < s_sosEdge.lv Reg.STN_DET_MIN_PULSE 5 ∧ s_sosEdge.lv Reg.STN_DET_MIN_PULSE 5 ≤ 200 ∧ s_sosEdge.inSosWindow 5 5000 = true ∧
    s_sosEdge.on Reg.SPLL_STAT_LOCKED 5 = false ∧ s_sosEdge_late.inSosWindow 5 6000 = false := by decide +kernel
def s_eosEdge : State := setS 5 (fun x => { pred3 x with eosSeen := false }) dev
def s_eosEdge_learning : State := setS 5 (fun x => { pred3 x with eosSeen := false, learn := [7], learnN := 2 }) (dev.wr Reg.STN_SCAN_STAT_LEARNING 1 5)
def s_facetLearnEnd : State := setS 5 (fun x => { x with learn := [64000, 64000, 64000, 64000, 64000, 64000, 64064, 64000], learnN := 512 }) (dev.wr Reg.STN_SCAN_STAT_LEARNING 1 5)
def s_facetLearnEnd_clear : State := setS 5 (fun x => { x with learn := [64000, 64000, 64000, 64000, 64000, 64000, 69064, 64000], learnN := 512 }) (dev.wr Reg.STN_SCAN_STAT_LEARNING 1 5)
def s_sweepStart : State := setS 5 (fun x => { x with begun := true }) dev
def rdy (n : Nat) (b : Int) : State :=
  setS n (fun x => { x with begun := true, bSet := true, b := b, lam := 100 * 2 ^ 32 })
    { ((((dev.wr Reg.SPLL_STAT_LOCKED 1 n).wr Reg.STN_SCAN_STAT_FACET_LOCK 1 n).wr Reg.BL_STAT_ID_AGREE 1 n).wr Reg.BL_STAT_LEN 1 n) with
      live := [(Reg.BL_CFG_PORT.key n 0, 2)] }
def s_sweepStart_group : State := rdy 5 100
def s_sweepStart_early : State := rdy 5 101
def s_sweepStart_rebase : State := rdy 5 90
theorem test_wit_sweepStart_lags : s_sweepStart_group.sweepX 5 - 256 * 100 = 0 ∧ s_sweepStart_early.sweepX 5 - 256 * 101 < -128 ∧
    128 ≤ s_sweepStart_rebase.sweepX 5 - 256 * 90 := by decide +kernel
def p5 : Part := { partOf (BitVec.ofNat 512 (0x02 + 2 ^ 128 * (5 + 2 ^ 4) + 2 ^ 160 * 100 + 2 ^ 192 * 10)) with done := false }
def cr5 : Crossing := { crossingOf [] with crx := 7, state := 3, parts := [p5] }
def acS (code arg target : Nat) : Decided :=
  { idx := 9, e := { pos := 50, axis := 39, action := code, late := false, eq := 2, target := target, arg := arg, crx := 7 }, time := 0, late := false, fenced := false, s := 0, cap := 77 }
def s_exposeStart : State := { (rdy 5 100).wr Reg.STN_SCAN_STAT_PHASE_OK 1 5 with crossings := [cr5], issued := [acS 0x11 0 5] }
def s_exposeEnd : State := setS 5 (fun x => { x with expo := some ⟨7, 0, 3, [5], 0⟩ }) { (rdy 5 100).wr Reg.STN_SCAN_STAT_PHASE_OK 1 5 with crossings := [cr5], issued := [acS 0x12 0 5] }
def s_markWindow : State := { dev with issued := [acS 0x16 0xFFFFFFF 15] }
def mw (got : Bool) : MarkWin := ⟨15, 5, true, 39, 50, 100, 20, got, none, none⟩
def mkDev (w : MarkWin) : State := { (dev.wr Reg.MARK_SRC_EN 1 15).wr Reg.AXIS_HIST_SEL_EN 1 0 0 |>.wr Reg.AXIS_HIST_SEL_AXIS 39 0 0 with marks := [w], now := 400 }
def s_markEdge : State := mkDev (mw false)
def s_markEdge_fail : State := (mkDev (mw false)).wr Reg.AXIS_HIST_SEL_EN 0 0 0
theorem test_wit_markEdge_cases : s_markEdge.convert 39 100 = .wait ∧ s_markEdge_fail.convert 39 100 = .noLane := by decide +kernel
def s_markWindowClose : State := (mkDev (mw true)).wr Reg.AXIS_SCHED 200 39
def s_markWindowClose_fail : State := (mkDev (mw false)).wr Reg.AXIS_SCHED 200 39
def s_markWindowClose_node : State := ((mkDev (mw false)).wr Reg.AXIS_SCHED 200 39).wr Reg.MARK_SRC_SRC 1 15
theorem test_wit_markWindowClose_cases : s_markWindowClose_fail.markNode 15 = none ∧ s_markWindowClose_node.markNode 15 = some (0, 0) ∧
    s_markWindowClose_node.nodeFenced 0 0 = false := by decide +kernel

theorem test_wit_sosEdge_short :
  (5 < 6) ∧
  ((dev.stns 5).sweep = none ∨ (dev.stns 5).eosSeen = true) := by decide +kernel

theorem test_wit_sosEdge :
  (5 < 6) ∧
  ((s_sosEdge.stns 5).sweep = none ∨ (s_sosEdge.stns 5).eosSeen = true) := by decide +kernel

theorem test_wit_sosEdge_late :
  (5 < 6) ∧
  ((s_sosEdge_late.stns 5).sweep = none ∨ (s_sosEdge_late.stns 5).eosSeen = true) := by decide +kernel

theorem test_wit_sosEdge_first :
  (0 < 6) ∧
  ((dev.stns 0).sweep = none ∨ (dev.stns 0).eosSeen = true) := by decide +kernel

theorem test_wit_sosWindowExpire :
  (5 < 6) ∧
  ((s_sosWindowExpire.stns 5).sweep = none ∨ (s_sosWindowExpire.stns 5).eosSeen = true) ∧
  ((s_sosWindowExpire.stns 5).predict = some (1, 2000, 5000)) ∧
  ((s_sosWindowExpire.stns 5).flown < s_sosWindowExpire.lv Reg.STN_DET_FLY_MAX 5) := by decide +kernel

theorem test_wit_eosEdge :
  (5 < 6) ∧
  ((s_eosEdge.stns 5).sweep = some 3000) ∧
  ((s_eosEdge.stns 5).predict = some (1, 2000, 5000)) ∧
  (s_eosEdge.lv Reg.STN_DET_MIN_PULSE 5 ≤ 200) ∧
  ((s_eosEdge.stns 5).eosSeen = false) ∧
  (3000 ≤ 4800) ∧
  (2000 ≤ 2 * (4800 - 3000) * 1) ∧
  ((4800 - 3000) * 1 ≤ 2000) ∧
  (s_eosEdge.on Reg.SPLL_STAT_LOCKED 5 = false) ∧
  (s_eosEdge.on Reg.STN_SCAN_STAT_FACET_LOCK 5 = false) := by decide +kernel

theorem test_wit_eosEdge_learning :
  (5 < 6) ∧
  ((s_eosEdge_learning.stns 5).sweep = some 3000) ∧
  ((s_eosEdge_learning.stns 5).predict = some (1, 2000, 5000)) ∧
  (s_eosEdge_learning.lv Reg.STN_DET_MIN_PULSE 5 ≤ 200) ∧
  ((s_eosEdge_learning.stns 5).eosSeen = false) ∧
  (3000 ≤ 4800) ∧
  (2000 ≤ 2 * (4800 - 3000) * 1) ∧
  ((4800 - 3000) * 1 ≤ 2000) ∧
  (s_eosEdge_learning.on Reg.SPLL_STAT_LOCKED 5 = false) ∧
  (s_eosEdge_learning.on Reg.STN_SCAN_STAT_FACET_LOCK 5 = false) := by decide +kernel

theorem test_wit_facetLearnEnd :
  (5 < 6) ∧
  (s_facetLearnEnd.on Reg.STN_SCAN_STAT_LEARNING 5 = true) ∧
  (facets s_facetLearnEnd 5 * s_facetLearnEnd.learnRevs 5 ≤ (s_facetLearnEnd.stns 5).learnN) ∧
  (facets s_facetLearnEnd 5 ≤ 12) := by decide +kernel

theorem test_wit_facetLearnEnd_clear :
  (5 < 6) ∧
  (s_facetLearnEnd_clear.on Reg.STN_SCAN_STAT_LEARNING 5 = true) ∧
  (facets s_facetLearnEnd_clear 5 * s_facetLearnEnd_clear.learnRevs 5 ≤ (s_facetLearnEnd_clear.stns 5).learnN) ∧
  (facets s_facetLearnEnd_clear 5 ≤ 12) := by decide +kernel

theorem test_wit_sweepStart :
  (5 < 6) ∧
  ((s_sweepStart.stns 5).begun = true) ∧
  ((s_sweepStart.stns 5).stop = 0) ∧
  (s_sweepStart.sweepOk 5 = false) := by decide +kernel

theorem test_wit_sweepStart_group :
  (5 < 6) ∧
  ((s_sweepStart_group.stns 5).begun = true) ∧
  ((s_sweepStart_group.stns 5).stop = 0) ∧
  (s_sweepStart_group.sweepOk 5 = true) ∧
  ((s_sweepStart_group.stns 5).bSet = true) ∧
  ((s_sweepStart_group.stns 5).expo = none) := by decide +kernel

theorem test_wit_sweepStart_early :
  (5 < 6) ∧
  ((s_sweepStart_early.stns 5).begun = true) ∧
  ((s_sweepStart_early.stns 5).stop = 0) ∧
  (s_sweepStart_early.sweepOk 5 = true) ∧
  ((s_sweepStart_early.stns 5).bSet = true) ∧
  ((s_sweepStart_early.stns 5).expo = none) := by decide +kernel

theorem test_wit_sweepStart_rebase :
  (5 < 6) ∧
  ((s_sweepStart_rebase.stns 5).begun = true) ∧
  ((s_sweepStart_rebase.stns 5).stop = 0) ∧
  (s_sweepStart_rebase.sweepOk 5 = true) ∧
  ((s_sweepStart_rebase.stns 5).bSet = true) ∧
  ((s_sweepStart_rebase.stns 5).expo = none) := by decide +kernel

theorem test_wit_exposeStart :
  (s_exposeStart.OnTime 17 (acS 17 0 5)) ∧
  ((acS 17 0 5).e.target < 6) ∧
  (s_exposeStart.live? (acS 17 0 5).e.crx = some cr5) ∧
  (List.find? (fun p => p.stn == (acS 17 0 5).e.target && !p.done) cr5.parts = some p5) ∧
  ((s_exposeStart.stns (acS 17 0 5).e.target).expo = none) ∧
  (s_exposeStart.stnReady (acS 17 0 5).e.target = true) := by decide +kernel

theorem test_wit_exposeEnd :
  (s_exposeEnd.OnTime 18 (acS 18 0 5)) ∧
  ((acS 18 0 5).e.target < 6) ∧
  ((s_exposeEnd.stns (acS 18 0 5).e.target).expo =
  some { crx := 7, c0 := 0, front := 3, ahead := [5], blank := 0 : Expo }) ∧
  ({ crx := 7, c0 := 0, front := 3, ahead := [5], blank := 0 : Expo }.crx = (acS 18 0 5).e.crx) ∧
  (s_exposeEnd.live? (acS 18 0 5).e.crx = some cr5) ∧
  (List.find? (fun p => p.stn == (acS 18 0 5).e.target) cr5.parts = some p5) ∧
  (p5.done = false) := by decide +kernel

theorem test_wit_markWindow :
  (s_markWindow.OnTime 22 (acS 22 268435455 15)) := by decide +kernel

theorem test_wit_markEdge :
  (15 < 16) ∧
  (s_markEdge.on Reg.MARK_SRC_EN 15 = true) ∧
  (s_markEdge.on Reg.MARK_SRC_SRC 15 = false) ∧
  (100 * s_markEdge.rd Reg.MARK_SRC_FILTER 15 ≤ posDist s_markEdge.now 100) ∧
  (List.find? (fun w => w.sensor == 15 && !w.got && w.sense == true && (w.wait.isSome || !s_markEdge.markOver w))
    s_markEdge.marks =
  some (mw false)) := by decide +kernel

theorem test_wit_markEdge_fail :
  (15 < 16) ∧
  (s_markEdge_fail.on Reg.MARK_SRC_EN 15 = true) ∧
  (s_markEdge_fail.on Reg.MARK_SRC_SRC 15 = false) ∧
  (100 * s_markEdge_fail.rd Reg.MARK_SRC_FILTER 15 ≤ posDist s_markEdge_fail.now 100) ∧
  (List.find? (fun w => w.sensor == 15 && !w.got && w.sense == true && (w.wait.isSome || !s_markEdge_fail.markOver w))
    s_markEdge_fail.marks =
  some (mw false)) := by decide +kernel

theorem test_wit_markWindowClose :
  (List.find? (fun w => w.edge.isNone && w.wait.isNone && s_markWindowClose.markOver w)
    s_markWindowClose.marks =
  some (mw true)) := by decide +kernel

theorem test_wit_markWindowClose_fail :
  (List.find? (fun w => w.edge.isNone && w.wait.isNone && s_markWindowClose_fail.markOver w)
    s_markWindowClose_fail.marks =
  some (mw false)) := by decide +kernel

theorem test_wit_markWindowClose_node :
  (List.find? (fun w => w.edge.isNone && w.wait.isNone && s_markWindowClose_node.markOver w)
    s_markWindowClose_node.marks =
  some (mw false)) := by decide +kernel

end W08

/-! States that meet the hypotheses of the statements about scanpll. -/

namespace W09

def setP (n : Nat) (f : Spll → Spll) (s : State) : State := s.setSpll n (f (s.splls n))
def srch : State := dev.wr Reg.SPLL_STAT_SEARCHING 1 3
def lk (b : Nat) (f : Spll → Spll) : State := setP 3 (fun x => f { x with closed := true }) ((dev.wr Reg.SPLL_STAT_LOCKED b 3).wr Reg.SPLL_LOCK_CFG_LOCK_TOL 4 3)
def s_bandSearchTrial : State := setP 3 (fun x => { x with lo := 0, hi := 62, m := 31 }) srch
def s_bandSearchTrial_up : State := setP 3 (fun x => { x with lo := 0, hi := 62, m := 31 }) srch
def s_bandSearchTrial_last : State := setP 3 (fun x => { x with lo := 5, hi := 5, m := 4, cnt := some 1026, last := true }) srch
def s_bandSearchTrial_tie : State := setP 3 (fun x => { x with lo := 5, hi := 5, m := 4, cnt := some 1026, last := true }) srch
def s_lockWindowEnd : State := (lk 0 id)
def s_lockWindowEnd_lock : State := (lk 0 (fun x => { x with inRun := 60000 }))
def s_lockWindowEnd_keep : State := lk 1 (fun x => { x with outRun := 1 })
def s_lockWindowEnd_unlock : State := lk 1 (fun x => { x with outRun := 60000 })
def s_pllLockTimeout : State := { (lk 0 (fun x => { x with acqAt := some 0 })) with now := 100000000 }
def s_scanPllRetry : State := { (lk 0 (fun x => { x with retryAt := some 5 })) with now := 100000000 }
def dRamp (cnt src : Nat) : Desc := BitVec.ofNat 512 (0x48 + 2 ^ 128 * (3 + 8) + 2 ^ 136 * cnt + 2 ^ 160 * 77 + 2 ^ 192 * src)
def s_scanRampLoad : State := withD 1 (dRamp 0 0) dev
def s_scanRampLoad_segs : State := withD 1 (dRamp 2 64) dev
def s_scanRampLoad_live : State := { withD 1 (dRamp 0 0) dev with live := [(Reg.SPLL_SD_RAMP_BANK.key 3 0, 1)] }

theorem test_wit_bandSearchTrial :
  (3 < 6) ∧
  (s_bandSearchTrial.on Reg.SPLL_STAT_SEARCHING 3 = true) := by decide +kernel

theorem test_wit_bandSearchTrial_up :
  (3 < 6) ∧
  (s_bandSearchTrial_up.on Reg.SPLL_STAT_SEARCHING 3 = true) := by decide +kernel

theorem test_wit_bandSearchTrial_last :
  (3 < 6) ∧
  (s_bandSearchTrial_last.on Reg.SPLL_STAT_SEARCHING 3 = true) := by decide +kernel

theorem test_wit_bandSearchTrial_tie :
  (3 < 6) ∧
  (s_bandSearchTrial_tie.on Reg.SPLL_STAT_SEARCHING 3 = true) := by decide +kernel

theorem test_wit_lockWindowEnd :
  (3 < 6) ∧
  ((s_lockWindowEnd.splls 3).closed = true) ∧
  ((s_lockWindowEnd.splls 3).held = 0) := by decide +kernel

theorem test_wit_lockWindowEnd_lock :
  (3 < 6) ∧
  ((s_lockWindowEnd_lock.splls 3).closed = true) ∧
  ((s_lockWindowEnd_lock.splls 3).held = 0) := by decide +kernel

theorem test_wit_lockWindowEnd_keep :
  (3 < 6) ∧
  ((s_lockWindowEnd_keep.splls 3).closed = true) ∧
  ((s_lockWindowEnd_keep.splls 3).held = 0) := by decide +kernel

theorem test_wit_lockWindowEnd_unlock :
  (3 < 6) ∧
  ((s_lockWindowEnd_unlock.splls 3).closed = true) ∧
  ((s_lockWindowEnd_unlock.splls 3).held = 0) := by decide +kernel

theorem test_wit_pllLockTimeout :
  (3 < 6) ∧
  (s_pllLockTimeout.isLaid 3 = false) ∧
  ((s_pllLockTimeout.splls 3).acqAt = some 0) ∧
  (s_pllLockTimeout.on Reg.SPLL_STAT_LOCKED 3 = false) ∧
  (0 + 100000 * max 1 (s_pllLockTimeout.lv Reg.SPLL_LOCK_CFG_LOCK_TIMEOUT 3) ≤ s_pllLockTimeout.now) := by decide +kernel

theorem test_wit_scanPllRetry :
  (3 < 6) ∧
  (s_scanPllRetry.isLaid 3 = false) ∧
  ((s_scanPllRetry.splls 3).retryAt = some 5) ∧
  (5 ≤ s_scanPllRetry.now) := by decide +kernel

theorem test_wit_scanRampLoad :
  (1 < 64) ∧
  (s_scanRampLoad.Ready 1 72 (dRamp 0 0)) ∧
  (dCrx (dRamp 0 0) = 0) ∧
  (dget (dRamp 0 0) 16 0 3 < 6) ∧
  (dget (dRamp 0 0) 17 0 7 ≤ 64) ∧
  (dget (dRamp 0 0) 24 0 64 % 8 = 0) ∧
  (dget (dRamp 0 0) 16 4 4 = 0) ∧
  (dget (dRamp 0 0) 17 7 1 = 0) ∧
  (dZero (dRamp 0 0) 18 20 = true) ∧
  (dZero (dRamp 0 0) 32 64 = true) ∧
  (s_scanRampLoad.Room (s_scanRampLoad.rd Reg.SQ_CFG_EQ 1)) := by decide +kernel

theorem test_wit_scanRampLoad_segs :
  (1 < 64) ∧
  (s_scanRampLoad_segs.Ready 1 72 (dRamp 2 64)) ∧
  (dCrx (dRamp 2 64) = 0) ∧
  (dget (dRamp 2 64) 16 0 3 < 6) ∧
  (dget (dRamp 2 64) 17 0 7 ≤ 64) ∧
  (dget (dRamp 2 64) 24 0 64 % 8 = 0) ∧
  (dget (dRamp 2 64) 16 4 4 = 0) ∧
  (dget (dRamp 2 64) 17 7 1 = 0) ∧
  (dZero (dRamp 2 64) 18 20 = true) ∧
  (dZero (dRamp 2 64) 32 64 = true) ∧
  (s_scanRampLoad_segs.Room (s_scanRampLoad_segs.rd Reg.SQ_CFG_EQ 1)) := by decide +kernel

theorem test_wit_scanRampLoad_live :
  (1 < 64) ∧
  (s_scanRampLoad_live.Ready 1 72 (dRamp 0 0)) ∧
  (dCrx (dRamp 0 0) = 0) ∧
  (dget (dRamp 0 0) 16 0 3 < 6) ∧
  (dget (dRamp 0 0) 17 0 7 ≤ 64) ∧
  (dget (dRamp 0 0) 24 0 64 % 8 = 0) ∧
  (dget (dRamp 0 0) 16 4 4 = 0) ∧
  (dget (dRamp 0 0) 17 7 1 = 0) ∧
  (dZero (dRamp 0 0) 18 20 = true) ∧
  (dZero (dRamp 0 0) 32 64 = true) ∧
  (s_scanRampLoad_live.Room (s_scanRampLoad_live.rd Reg.SQ_CFG_EQ 1)) := by decide +kernel

end W09

/-! States that meet the hypotheses of the statements about raster. -/

namespace W10

def p5 : Part := partOf (BitVec.ofNat 512 (0x02 + 2 ^ 128 * (5 + 2 ^ 3 + 2 ^ 4) + 2 ^ 160 * 1000 + 2 ^ 192 * 10 + 2 ^ 224 * 4096 + 2 ^ 256 * 0x10000 + 2 ^ 320 * 0x90000))
def cr5 : Crossing := { crossingOf [] with crx := 7, state := 1, parts := [p5] }
def rasDev : State := { dev with crossings := [cr5], live := [(Reg.STN_HOLD_CFG_HOLD_SIZE.key 5 0, 8)] }
def s_rasterRowFetch_wait : State := { dev with crossings := [cr5] }
def s_rasterRowFetch_off : State := { rasDev with pf0 := { dev.pf0 with bme := false } }
def row5 : Row := ⟨7, 0, true, 1⟩
def ln5 : HLine := ⟨7, 0, 3, 4, 2, false, false, false, 0⟩
def rd5 : State := rasDev.setRlt 11 { (rasDev.rlts 11) with crx := 7, rows := [row5] } |>.setStn 5 { (rasDev.stns 5) with lines := [ln5] }
def s_rasterReadComplete : State := rd5
def s_rasterReadComplete_fail : State := rd5
def dDot (m w : Nat) : Desc := BitVec.ofNat 512 (0x44 + 2 ^ 128 * (3 + 2 ^ 3 * 2 + 2 ^ 5 * m + 2 ^ 6 * w) + 2 ^ 192 * 64)
def s_dotSetLoad : State := withD 1 (dDot 1 0) dev
def s_dotSetLoad_none : State := withD 1 (dDot 0 0) dev
def s_dotSetLoad_used : State := withD 1 (dDot 0 1) { dev with crossings := [{ cr5 with stateTime := 1, parts := [{ p5 with stn := 3, dotSet := 2 }] }] }
def s_dotSetLoad_wave : State := withD 1 (dDot 0 1) dev
def s_dotSetLoad_both : State := withD 1 (dDot 1 1) dev

theorem test_wit_rasterRowFetch :
  (10 < 12) ∧
  (rasDev.pf0.flr = false) ∧
  (rasDev.rasterWork (10 / 2) (10 % 2) = some (cr5, p5)) := by decide +kernel

theorem test_wit_rasterRowFetch_tag :
  (11 < 12) ∧
  (rasDev.pf0.flr = false) ∧
  (rasDev.rasterWork (11 / 2) (11 % 2) = some (cr5, p5)) := by decide +kernel

theorem test_wit_rasterRowFetch_wait :
  (11 < 12) ∧
  (s_rasterRowFetch_wait.pf0.flr = false) ∧
  (s_rasterRowFetch_wait.rasterWork (11 / 2) (11 % 2) = some (cr5, p5)) := by decide +kernel

theorem test_wit_rasterRowFetch_off :
  (11 < 12) ∧
  (s_rasterRowFetch_off.pf0.flr = false) ∧
  (s_rasterRowFetch_off.rasterWork (11 / 2) (11 % 2) = some (cr5, p5)) := by decide +kernel

theorem test_wit_rasterReadComplete :
  (11 < 12) ∧
  (s_rasterReadComplete.Calm) ∧
  (s_rasterReadComplete.xfer = []) ∧
  ((s_rasterReadComplete.rlts 11).rows = [row5]) ∧
  ((s_rasterReadComplete.rlts 11).crx = row5.crx) ∧
  ((s_rasterReadComplete.live? row5.crx).isSome = true) ∧
  (List.find? (fun h => h.crx == row5.crx && h.off == row5.off) (s_rasterReadComplete.stns (11 / 2)).lines =
  some ln5) := by decide +kernel

theorem test_wit_rasterReadComplete_fail :
  (11 < 12) ∧
  (s_rasterReadComplete_fail.Calm) ∧
  (s_rasterReadComplete_fail.xfer = []) ∧
  ((s_rasterReadComplete_fail.rlts 11).rows = [row5]) ∧
  ((s_rasterReadComplete_fail.rlts 11).crx = row5.crx) ∧
  ((s_rasterReadComplete_fail.live? row5.crx).isSome = true) ∧
  (List.find? (fun h => h.crx == row5.crx && h.off == row5.off) (s_rasterReadComplete_fail.stns (11 / 2)).lines =
  some ln5) := by decide +kernel

theorem test_wit_dotSetLoad :
  (1 < 64) ∧
  (s_dotSetLoad.Ready 1 68 (dDot 1 0)) ∧
  (dCrx (dDot 1 0) = 0) ∧
  (dget (dDot 1 0) 16 0 3 < 6) ∧
  (dget (dDot 1 0) 24 0 64 % 8 = 0) ∧
  (dget (dDot 1 0) 16 7 1 = 0) ∧
  (dZero (dDot 1 0) 17 24 = true) ∧
  (dZero (dDot 1 0) 32 64 = true) ∧
  (s_dotSetLoad.Room (s_dotSetLoad.rd Reg.SQ_CFG_EQ 1)) ∧
  (s_dotSetLoad.Calm) := by decide +kernel

theorem test_wit_dotSetLoad_none :
  (1 < 64) ∧
  (s_dotSetLoad_none.Ready 1 68 (dDot 0 0)) ∧
  (dCrx (dDot 0 0) = 0) ∧
  (dget (dDot 0 0) 16 0 3 < 6) ∧
  (dget (dDot 0 0) 24 0 64 % 8 = 0) ∧
  (dget (dDot 0 0) 16 7 1 = 0) ∧
  (dZero (dDot 0 0) 17 24 = true) ∧
  (dZero (dDot 0 0) 32 64 = true) ∧
  (s_dotSetLoad_none.Room (s_dotSetLoad_none.rd Reg.SQ_CFG_EQ 1)) ∧
  (s_dotSetLoad_none.Calm) := by decide +kernel

theorem test_wit_dotSetLoad_used :
  (1 < 64) ∧
  (s_dotSetLoad_used.Ready 1 68 (dDot 0 1)) ∧
  (dCrx (dDot 0 1) = 0) ∧
  (dget (dDot 0 1) 16 0 3 < 6) ∧
  (dget (dDot 0 1) 24 0 64 % 8 = 0) ∧
  (dget (dDot 0 1) 16 7 1 = 0) ∧
  (dZero (dDot 0 1) 17 24 = true) ∧
  (dZero (dDot 0 1) 32 64 = true) ∧
  (s_dotSetLoad_used.Room (s_dotSetLoad_used.rd Reg.SQ_CFG_EQ 1)) ∧
  (s_dotSetLoad_used.Calm) := by decide +kernel

theorem test_wit_dotSetLoad_wave :
  (1 < 64) ∧
  (s_dotSetLoad_wave.Ready 1 68 (dDot 0 1)) ∧
  (dCrx (dDot 0 1) = 0) ∧
  (dget (dDot 0 1) 16 0 3 < 6) ∧
  (dget (dDot 0 1) 24 0 64 % 8 = 0) ∧
  (dget (dDot 0 1) 16 7 1 = 0) ∧
  (dZero (dDot 0 1) 17 24 = true) ∧
  (dZero (dDot 0 1) 32 64 = true) ∧
  (s_dotSetLoad_wave.Room (s_dotSetLoad_wave.rd Reg.SQ_CFG_EQ 1)) ∧
  (s_dotSetLoad_wave.Calm) := by decide +kernel

theorem test_wit_dotSetLoad_both :
  (1 < 64) ∧
  (s_dotSetLoad_both.Ready 1 68 (dDot 1 1)) ∧
  (dCrx (dDot 1 1) = 0) ∧
  (dget (dDot 1 1) 16 0 3 < 6) ∧
  (dget (dDot 1 1) 24 0 64 % 8 = 0) ∧
  (dget (dDot 1 1) 16 7 1 = 0) ∧
  (dZero (dDot 1 1) 17 24 = true) ∧
  (dZero (dDot 1 1) 32 64 = true) ∧
  (s_dotSetLoad_both.Room (s_dotSetLoad_both.rd Reg.SQ_CFG_EQ 1)) ∧
  (s_dotSetLoad_both.Calm) := by decide +kernel

end W10

/-! States that meet the hypotheses of the statements about heads. -/

namespace W11

def setB (n : Nat) (f : Bl → Bl) (s : State) : State := s.setBl n (f (s.bls n))
def hdev : State := (dev.wr Reg.BL_STAT_HEAD_PRESENT 1 3)
def s_hpdChange_gone : State := { hdev with live := [(Reg.BL_CFG_PORT.key 3 0, 1)] }
def s_hpdChange_gone2 : State := (hpdChangeEff 3 false { (hdev.setLaid 3 true) with live := [(Reg.BL_CFG_PORT.key 3 0, 1)] }).setLaid 3 false
def s_identityReadDone : State := setB 3 (fun b => { b with reading := true }) (hdev.wr Reg.BL_STAT_STATE Bst.ident 3)
def idHead : List Byte := [0x4C#8, 0x56#8, 0x48#8, 0x44#8, 1#8, 0#8, 32#8, 0#8, 7#8]
def idBody : List Byte := idHead ++ List.replicate (51 * 13) 0#8
def idBytes : List Byte := idBody ++ leBytes 4 4079418337
/-- The CRC over `k` zero bytes, with the register evaluated at each byte. -/
def zeroRun : Nat → Nat → Nat
  | 0, c => c
  | k + 1, c => match c with
    | 0 => zeroRun k (crc32cByte 0 0#8)
    | c + 1 => zeroRun k (crc32cByte (c + 1) 0#8)
theorem test_zeroRun (k : Nat) : ∀ c, crc32cRun c (List.replicate k 0#8) = zeroRun k c := by
  induction k with
  | zero => intro c; rfl
  | succ k ih =>
    intro c
    rw [List.replicate_succ, crc32cRun, List.foldl_cons, ← crc32cRun, ih]
    cases c <;> rfl
theorem test_zeroRun_add (a b c : Nat) : zeroRun (a + b) c = zeroRun b (zeroRun a c) := by
  simp only [← test_zeroRun, crc32cRun, ← List.foldl_append, List.replicate_append_replicate]
theorem test_zeroRun_all : zeroRun (51 * 13) 1535328822 = 215548958 := by
  have h0 : zeroRun 51 1535328822 = 288940244 := by decide +kernel
  have h1 : zeroRun 51 288940244 = 1082544555 := by decide +kernel
  have h2 : zeroRun 51 1082544555 = 2959662132 := by decide +kernel
  have h3 : zeroRun 51 2959662132 = 3941224496 := by decide +kernel
  have h4 : zeroRun 51 3941224496 = 2071766200 := by decide +kernel
  have h5 : zeroRun 51 2071766200 = 1094071218 := by decide +kernel
  have h6 : zeroRun 51 1094071218 = 639939797 := by decide +kernel
  have h7 : zeroRun 51 639939797 = 130400163 := by decide +kernel
  have h8 : zeroRun 51 130400163 = 2707092678 := by decide +kernel
  have h9 : zeroRun 51 2707092678 = 1813347133 := by decide +kernel
  have h10 : zeroRun 51 1813347133 = 3639247669 := by decide +kernel
  have h11 : zeroRun 51 3639247669 = 154440161 := by decide +kernel
  have h12 : zeroRun 51 154440161 = 215548958 := by decide +kernel
  rw [show 51 * 13 = 51 + (51 + (51 + (51 + (51 + (51 + (51 + (51 + (51 + (51 + (51 + (51 + 51))))))))))) from rfl]
  simp only [test_zeroRun_add, h0, h1, h2, h3, h4, h5, h6, h7, h8, h9, h10, h11, h12]
theorem test_idBody_crc : crc32c idBody = 4079418337 := by
  have hd : crc32cRun 0xFFFFFFFF idHead = 1535328822 := by decide +kernel
  have app (c : Nat) (a b : List Byte) : crc32cRun c (a ++ b) = crc32cRun (crc32cRun c a) b := List.foldl_append
  rw [crc32c, idBody, app, hd, test_zeroRun, test_zeroRun_all]
  decide +kernel
def s_identityReadDone_agree : State := { (setB 3 (fun b => { b with reading := true }) (hdev.wr Reg.BL_STAT_STATE Bst.ident 3)) with live := [(Reg.BL_CFG_PORT.key 3 0, 1), (Reg.BL_HEAD_EXP_LO_UNIT_ID_LO.key 3 0, 7), (Reg.BL_HEAD_EXP_HI_EMITTERS.key 3 0, 32), (Reg.BL_HEAD_EXP_CRC_CAL_CRC.key 3 0, 4079418337)] }
theorem test_wit_identityReadDone_agrees : s_identityReadDone_agree.idAgrees 3 (idBytes.take 676) = true := by
  have l : idBody.length = 672 := by rw [idBody, List.length_append, List.length_replicate]; rfl
  have h1 : idBytes.take 676 = idBytes := List.take_of_length_le (by rw [idBytes, List.length_append, l]; exact Nat.le_refl _)
  have h2 : idBytes.take 0x2A0 = idBody := List.take_left' l
  have h3 : idBytes.drop 0x2A0 = leBytes 4 4079418337 := List.drop_left' l
  have h4 : idBytes.length = 676 := by rw [idBytes, List.length_append, l]; rfl
  rw [h1]
  simp only [State.idAgrees, bytesAt, h2, h3, h4, test_idBody_crc]
  decide +kernel
theorem test_wit_identityReadDone_not : s_identityReadDone.idAgrees 3 [] = false := by decide +kernel
def bs (n st : Nat) (f : Bl → Bl) : State := setB n f { (hdev.wr Reg.BL_STAT_STATE st n) with now := 6000000, live := [(Reg.BL_CFG_PORT.key 3 0, 1)] }
def s_linkTrainProgress_up : State := bs 3 5 fun b => { b with sync := 31 }
def s_linkTrainTimeout : State := bs 3 5 fun b => { b with attempt := 2 }
def s_linkTrainTimeout_third : State := bs 3 5 fun b => { b with attempt := 3 }
def s_linkTrainTimeout_third2 : State := let s := (((bs 3 5 fun b => { b with attempt := 3 }).blGo 3 0).lenUpdate 3).cnt Reg.BL_CNT_TRAIN_FAIL 3; s.setBl 3 { s.bls 3 with retryAt := some 1006000000 }
def s_beamLinkTrainRetry : State := (bs 3 0 fun b => { b with retryAt := some 9 }).wr Reg.SPLL_STAT_LOCKED 1 3
def s_linkRetrain_stays : State := (bs 3 6 id).wr Reg.SPLL_STAT_LOCKED 1 3
def q1 : SbReq := ⟨1, [], 77, 1, 100⟩
def bb (f : Bl → Bl) : State := bs 3 6 f
def fr (ls : List (Nat × Nat × Nat)) : FrameWait := ⟨9, 100, ls, false⟩
def cr3 : Crossing := { crossingOf [] with crx := 7, state := 3, parts := [partOf (BitVec.ofNat 512 (2 + 2 ^ 128 * 3))] }
def q2 := { q1 with tries := 2 }
def s_sidebandReply : State := bb fun b => { b with req := some q1 }
def s_sidebandReply_status : State := bb fun b => { b with req := some q1 }
def s_sidebandReply_other : State := bb fun b => { b with req := some q1 }
def s_sidebandTimeout_last : State := bb fun b => { b with req := some { q1 with tries := 2 } }
def s_sidebandTimeout : State := bb fun b => { b with req := some q1 }
def s_gstat : State := bb fun b => { b with frames := [fr []] }
def s_gstat_bad : State := { (bb fun b => { b with frames := [fr [(7, 4, 6)]] }) with crossings := [cr3] }
def s_gstatMissing : State := bb fun b => { b with frames := [fr []] }
def s_emitterFault_row : State := let s := bb id; { s with live := tput 0 s.live (Reg.STN_SCAN_CFG_ROWS.key 3 0) 8 }
def s_relief : State := let s := ((bb fun b => { b with relief := true }).setFailed 3 32).wr Reg.BL_STAT_ID_AGREE 1 3; { s with live := tput 0 (tput 0 s.live (Reg.STN_SCAN_CFG_ROWS.key 3 0) 8) (Reg.BL_RELIEF_POOL_LO_POOL_LO.key 3 0) 0x300 }
def s_wearWrite : State := let s := ((bb fun b => { b with wear := some (1, 3, [1, 2]) })).wr Reg.BL_STAT_ID_AGREE 1 3; { s with boot := { s.boot with running := true } }
def s_wearWrite_last : State := let s := ((bb fun b => { b with wear := some (1, 7, [1, 2]) })).wr Reg.BL_STAT_ID_AGREE 1 3; { s with boot := { s.boot with running := true } }

theorem test_wit_hpdChange :
  (3 < 6) ∧
  ((dev.eqs (dev.rd Reg.RING_EVT_ROUTE_UNIT)).held = false) ∧
  ((dev.eqs (dev.rd Reg.RING_EVT_ROUTE_UNIT)).share.length < 250) ∧
  ((dev.stns 3).expo = none) ∧
  (dev.aLatched = false) ∧
  (dev.on Reg.BL_STAT_HEAD_PRESENT 3 = false) ∧
  (dev.on Reg.SPLL_STAT_LOCKED 3 = false) := by decide +kernel

theorem test_wit_hpdChange_gone :
  (3 < 6) ∧
  ((s_hpdChange_gone.eqs (s_hpdChange_gone.rd Reg.RING_EVT_ROUTE_UNIT)).held = false) ∧
  ((s_hpdChange_gone.eqs (s_hpdChange_gone.rd Reg.RING_EVT_ROUTE_UNIT)).share.length < 250) ∧
  ((s_hpdChange_gone.stns 3).expo = none) ∧
  (s_hpdChange_gone.aLatched = false) ∧
  (s_hpdChange_gone.on Reg.BL_STAT_HEAD_PRESENT 3 = true) ∧
  (s_hpdChange_gone.lv Reg.BL_CFG_PORT 3 ≠ 0) ∧
  (s_hpdChange_gone.isLaid 3 = false) := by decide +kernel

theorem test_wit_identityReadDone :
  (3 < 6) ∧
  ((s_identityReadDone.eqs (s_identityReadDone.rd Reg.RING_EVT_ROUTE_UNIT)).held = false) ∧
  ((s_identityReadDone.eqs (s_identityReadDone.rd Reg.RING_EVT_ROUTE_UNIT)).share.length < 250) ∧
  ((s_identityReadDone.stns 3).expo = none) ∧
  (s_identityReadDone.aLatched = false) ∧
  ((s_identityReadDone.bls 3).reading = true) ∧
  (s_identityReadDone.on Reg.BL_STAT_HEAD_PRESENT 3 = true) ∧
  (s_identityReadDone.bst 3 = Bst.ident) := by decide +kernel

theorem test_wit_identityReadDone_agree :
  (3 < 6) ∧
  ((s_identityReadDone_agree.eqs (s_identityReadDone_agree.rd Reg.RING_EVT_ROUTE_UNIT)).held = false) ∧
  ((s_identityReadDone_agree.eqs (s_identityReadDone_agree.rd Reg.RING_EVT_ROUTE_UNIT)).share.length < 250) ∧
  ((s_identityReadDone_agree.stns 3).expo = none) ∧
  (s_identityReadDone_agree.aLatched = false) ∧
  ((s_identityReadDone_agree.bls 3).reading = true) ∧
  (s_identityReadDone_agree.on Reg.BL_STAT_HEAD_PRESENT 3 = true) ∧
  (s_identityReadDone_agree.bst 3 = Bst.ident) := by decide +kernel

theorem test_wit_linkTrainProgress :
  (3 < 6) ∧
  (((bs 3 2 id).eqs ((bs 3 2 id).rd Reg.RING_EVT_ROUTE_UNIT)).held = false) ∧
  (((bs 3 2 id).eqs ((bs 3 2 id).rd Reg.RING_EVT_ROUTE_UNIT)).share.length < 250) ∧
  (((bs 3 2 id).stns 3).expo = none) ∧
  ((bs 3 2 id).aLatched = false) ∧
  (((bs 3 2 id).bls 3).load = none) ∧
  (((bs 3 2 id).commits.any fun c => bitOf c.heads 3) = false) ∧
  ((bs 3 2 id).bst 3 = Bst.clock) := by decide +kernel

theorem test_wit_linkTrainProgress_not :
  (3 < 6) ∧
  (((bs 3 2 id).eqs ((bs 3 2 id).rd Reg.RING_EVT_ROUTE_UNIT)).held = false) ∧
  (((bs 3 2 id).eqs ((bs 3 2 id).rd Reg.RING_EVT_ROUTE_UNIT)).share.length < 250) ∧
  (((bs 3 2 id).stns 3).expo = none) ∧
  ((bs 3 2 id).aLatched = false) ∧
  (((bs 3 2 id).bls 3).load = none) ∧
  (((bs 3 2 id).commits.any fun c => bitOf c.heads 3) = false) ∧
  ((bs 3 2 id).bst 3 = Bst.clock) := by decide +kernel

theorem test_wit_linkTrainProgress_lane :
  (3 < 6) ∧
  (((bs 3 3 id).eqs ((bs 3 3 id).rd Reg.RING_EVT_ROUTE_UNIT)).held = false) ∧
  (((bs 3 3 id).eqs ((bs 3 3 id).rd Reg.RING_EVT_ROUTE_UNIT)).share.length < 250) ∧
  (((bs 3 3 id).stns 3).expo = none) ∧
  ((bs 3 3 id).aLatched = false) ∧
  (((bs 3 3 id).bls 3).load = none) ∧
  (((bs 3 3 id).commits.any fun c => bitOf c.heads 3) = false) ∧
  ((bs 3 3 id).bst 3 = Bst.lane) := by decide +kernel

theorem test_wit_linkTrainProgress_lanenot :
  (3 < 6) ∧
  (((bs 3 3 id).eqs ((bs 3 3 id).rd Reg.RING_EVT_ROUTE_UNIT)).held = false) ∧
  (((bs 3 3 id).eqs ((bs 3 3 id).rd Reg.RING_EVT_ROUTE_UNIT)).share.length < 250) ∧
  (((bs 3 3 id).stns 3).expo = none) ∧
  ((bs 3 3 id).aLatched = false) ∧
  (((bs 3 3 id).bls 3).load = none) ∧
  (((bs 3 3 id).commits.any fun c => bitOf c.heads 3) = false) ∧
  ((bs 3 3 id).bst 3 = Bst.lane) := by decide +kernel

theorem test_wit_linkTrainProgress_deskew :
  (3 < 6) ∧
  (((bs 3 4 id).eqs ((bs 3 4 id).rd Reg.RING_EVT_ROUTE_UNIT)).held = false) ∧
  (((bs 3 4 id).eqs ((bs 3 4 id).rd Reg.RING_EVT_ROUTE_UNIT)).share.length < 250) ∧
  (((bs 3 4 id).stns 3).expo = none) ∧
  ((bs 3 4 id).aLatched = false) ∧
  (((bs 3 4 id).bls 3).load = none) ∧
  (((bs 3 4 id).commits.any fun c => bitOf c.heads 3) = false) ∧
  ((bs 3 4 id).bst 3 = Bst.deskew) := by decide +kernel

theorem test_wit_linkTrainProgress_deskewnot :
  (3 < 6) ∧
  (((bs 3 4 id).eqs ((bs 3 4 id).rd Reg.RING_EVT_ROUTE_UNIT)).held = false) ∧
  (((bs 3 4 id).eqs ((bs 3 4 id).rd Reg.RING_EVT_ROUTE_UNIT)).share.length < 250) ∧
  (((bs 3 4 id).stns 3).expo = none) ∧
  ((bs 3 4 id).aLatched = false) ∧
  (((bs 3 4 id).bls 3).load = none) ∧
  (((bs 3 4 id).commits.any fun c => bitOf c.heads 3) = false) ∧
  ((bs 3 4 id).bst 3 = Bst.deskew) := by decide +kernel

theorem test_wit_linkTrainProgress_sync :
  (3 < 6) ∧
  (((bs 3 5 id).eqs ((bs 3 5 id).rd Reg.RING_EVT_ROUTE_UNIT)).held = false) ∧
  (((bs 3 5 id).eqs ((bs 3 5 id).rd Reg.RING_EVT_ROUTE_UNIT)).share.length < 250) ∧
  (((bs 3 5 id).stns 3).expo = none) ∧
  ((bs 3 5 id).aLatched = false) ∧
  (((bs 3 5 id).bls 3).load = none) ∧
  (((bs 3 5 id).commits.any fun c => bitOf c.heads 3) = false) ∧
  ((bs 3 5 id).bst 3 = Bst.sync) := by decide +kernel

theorem test_wit_linkTrainProgress_up :
  (3 < 6) ∧
  ((s_linkTrainProgress_up.eqs (s_linkTrainProgress_up.rd Reg.RING_EVT_ROUTE_UNIT)).held = false) ∧
  ((s_linkTrainProgress_up.eqs (s_linkTrainProgress_up.rd Reg.RING_EVT_ROUTE_UNIT)).share.length < 250) ∧
  ((s_linkTrainProgress_up.stns 3).expo = none) ∧
  (s_linkTrainProgress_up.aLatched = false) ∧
  ((s_linkTrainProgress_up.bls 3).load = none) ∧
  ((s_linkTrainProgress_up.commits.any fun c => bitOf c.heads 3) = false) ∧
  (s_linkTrainProgress_up.bst 3 = Bst.sync) := by decide +kernel

theorem test_wit_linkTrainTimeout :
  (3 < 6) ∧
  ((s_linkTrainTimeout.eqs (s_linkTrainTimeout.rd Reg.RING_EVT_ROUTE_UNIT)).held = false) ∧
  ((s_linkTrainTimeout.eqs (s_linkTrainTimeout.rd Reg.RING_EVT_ROUTE_UNIT)).share.length < 250) ∧
  ((s_linkTrainTimeout.stns 3).expo = none) ∧
  (s_linkTrainTimeout.aLatched = false) ∧
  ((s_linkTrainTimeout.bls 3).load = none) ∧
  ((s_linkTrainTimeout.commits.any fun c => bitOf c.heads 3) = false) ∧
  (Bst.clock < s_linkTrainTimeout.bst 3) ∧
  (s_linkTrainTimeout.bst 3 < Bst.up) ∧
  ((s_linkTrainTimeout.bls 3).since + 5000000 ≤ s_linkTrainTimeout.now) := by decide +kernel

theorem test_wit_linkTrainTimeout_third :
  (3 < 6) ∧
  ((s_linkTrainTimeout_third.eqs (s_linkTrainTimeout_third.rd Reg.RING_EVT_ROUTE_UNIT)).held = false) ∧
  ((s_linkTrainTimeout_third.eqs (s_linkTrainTimeout_third.rd Reg.RING_EVT_ROUTE_UNIT)).share.length < 250) ∧
  ((s_linkTrainTimeout_third.stns 3).expo = none) ∧
  (s_linkTrainTimeout_third.aLatched = false) ∧
  ((s_linkTrainTimeout_third.bls 3).load = none) ∧
  ((s_linkTrainTimeout_third.commits.any fun c => bitOf c.heads 3) = false) ∧
  (Bst.clock < s_linkTrainTimeout_third.bst 3) ∧
  (s_linkTrainTimeout_third.bst 3 < Bst.up) ∧
  ((s_linkTrainTimeout_third.bls 3).since + 5000000 ≤ s_linkTrainTimeout_third.now) ∧
  (3 ≤ (s_linkTrainTimeout_third.bls 3).attempt) ∧
  (s_linkTrainTimeout_third.rd Reg.BL_CNT_TRAIN_FAIL 3 + 1 < 2 ^ 16) := by decide +kernel

theorem test_wit_beamLinkTrainRetry :
  (3 < 6) ∧
  ((s_beamLinkTrainRetry.eqs (s_beamLinkTrainRetry.rd Reg.RING_EVT_ROUTE_UNIT)).held = false) ∧
  ((s_beamLinkTrainRetry.eqs (s_beamLinkTrainRetry.rd Reg.RING_EVT_ROUTE_UNIT)).share.length < 250) ∧
  ((s_beamLinkTrainRetry.stns 3).expo = none) ∧
  (s_beamLinkTrainRetry.aLatched = false) ∧
  ((s_beamLinkTrainRetry.bls 3).load = none) ∧
  ((s_beamLinkTrainRetry.commits.any fun c => bitOf c.heads 3) = false) ∧
  ((s_beamLinkTrainRetry.bls 3).retryAt = some 9) ∧
  (9 ≤ s_beamLinkTrainRetry.now) ∧
  (s_beamLinkTrainRetry.bst 3 = Bst.off) ∧
  (s_beamLinkTrainRetry.lv Reg.BL_CFG_PORT 3 = 1) ∧
  (s_beamLinkTrainRetry.isLaid 3 = false) ∧
  (s_beamLinkTrainRetry.on Reg.BL_STAT_HEAD_PRESENT 3 = true) ∧
  (s_beamLinkTrainRetry.on Reg.SPLL_STAT_LOCKED 3 = true) ∧
  ((s_beamLinkTrainRetry.bls 3).refused = false) ∧
  (s_beamLinkTrainRetry.rd Reg.PWR_STAT_MODE = 0) := by decide +kernel

theorem test_wit_linkRetrain :
  (3 < 6) ∧
  (((bs 3 6 id).eqs ((bs 3 6 id).rd Reg.RING_EVT_ROUTE_UNIT)).held = false) ∧
  (((bs 3 6 id).eqs ((bs 3 6 id).rd Reg.RING_EVT_ROUTE_UNIT)).share.length < 250) ∧
  (((bs 3 6 id).stns 3).expo = none) ∧
  ((bs 3 6 id).aLatched = false) ∧
  (((bs 3 6 id).bls 3).load = none) ∧
  (((bs 3 6 id).commits.any fun c => bitOf c.heads 3) = false) ∧
  ((bs 3 6 id).bst 3 = Bst.up) ∧
  ((bs 3 6 id).retrainDue 3 = true) := by decide +kernel

theorem test_wit_linkRetrain_stays :
  (3 < 6) ∧
  ((s_linkRetrain_stays.eqs (s_linkRetrain_stays.rd Reg.RING_EVT_ROUTE_UNIT)).held = false) ∧
  ((s_linkRetrain_stays.eqs (s_linkRetrain_stays.rd Reg.RING_EVT_ROUTE_UNIT)).share.length < 250) ∧
  ((s_linkRetrain_stays.stns 3).expo = none) ∧
  (s_linkRetrain_stays.aLatched = false) ∧
  ((s_linkRetrain_stays.bls 3).load = none) ∧
  ((s_linkRetrain_stays.commits.any fun c => bitOf c.heads 3) = false) ∧
  (s_linkRetrain_stays.retrainDue 3 = false) := by decide +kernel

theorem test_wit_headStatusPoll :
  (3 < 6) ∧
  ((bb id).Room ((bb id).rd Reg.RING_EVT_ROUTE_UNIT)) ∧
  ((bb id).bst 3 = Bst.up) ∧
  (((bb id).bls 3).pollAt ≤ (bb id).now) ∧
  (((bb id).bls 3).stale = false) ∧
  (((bb id).bls 3).req = none) := by decide +kernel

theorem test_wit_sidebandReply :
  (3 < 6) ∧
  (s_sidebandReply.Room (s_sidebandReply.rd Reg.RING_EVT_ROUTE_UNIT)) ∧
  ((s_sidebandReply.bls 3).req = some q1) ∧
  ((s_sidebandReply.bls 3).queue = []) := by decide +kernel

theorem test_wit_sidebandReply_status :
  (3 < 6) ∧
  (s_sidebandReply_status.Room (s_sidebandReply_status.rd Reg.RING_EVT_ROUTE_UNIT)) ∧
  ((s_sidebandReply_status.bls 3).req = some q1) ∧
  ((s_sidebandReply_status.bls 3).queue = []) := by decide +kernel

theorem test_wit_sidebandReply_other :
  (3 < 6) ∧
  (s_sidebandReply_other.Room (s_sidebandReply_other.rd Reg.RING_EVT_ROUTE_UNIT)) ∧
  ((s_sidebandReply_other.bls 3).req = some q1) ∧
  ((s_sidebandReply_other.bls 3).queue = []) := by decide +kernel

theorem test_wit_sidebandTimeout_last :
  (3 < 6) ∧
  (s_sidebandTimeout_last.Room (s_sidebandTimeout_last.rd Reg.RING_EVT_ROUTE_UNIT)) ∧
  ((s_sidebandTimeout_last.bls 3).req = some q2) ∧
  ((s_sidebandTimeout_last.bls 3).queue = []) := by decide +kernel

theorem test_wit_sidebandTimeout :
  (3 < 6) ∧
  (s_sidebandTimeout.Room (s_sidebandTimeout.rd Reg.RING_EVT_ROUTE_UNIT)) ∧
  ((s_sidebandTimeout.bls 3).req = some q1) ∧
  ((s_sidebandTimeout.bls 3).queue = []) := by decide +kernel

theorem test_wit_gstat :
  (3 < 6) ∧
  (s_gstat.Room (s_gstat.rd Reg.RING_EVT_ROUTE_UNIT)) ∧
  (List.find? (fun g => g.sweep == (fr []).sweep) (s_gstat.bls 3).frames = some (fr [])) ∧
  ((fr []).missed = false) ∧
  (∀ (l : Nat × Nat × Nat), l ∈ (fr []).lines → (s_gstat.live? l.fst).isSome = true) := by decide +kernel

theorem test_wit_gstat_bad :
  (3 < 6) ∧
  (s_gstat_bad.Room (s_gstat_bad.rd Reg.RING_EVT_ROUTE_UNIT)) ∧
  (List.find? (fun g => g.sweep == (fr [(7, 4, 6)]).sweep) (s_gstat_bad.bls 3).frames = some (fr [(7, 4, 6)])) ∧
  ((fr [(7, 4, 6)]).missed = false) ∧
  (∀ (l : Nat × Nat × Nat), l ∈ (fr [(7, 4, 6)]).lines → (s_gstat_bad.live? l.fst).isSome = true) ∧
  (false = false ∨ true = true) ∧
  ((fr [(7, 4, 6)]).lines = [(7, 4, 6)]) ∧
  (s_gstat_bad.live? 7 = some cr3) ∧
  (s_gstat_bad.rd Reg.BL_GSTAT_CNT_FRAME_ERR 3 + 1 < 2 ^ 16) := by decide +kernel

theorem test_wit_gstatMissing :
  (3 < 6) ∧
  (s_gstatMissing.Room (s_gstatMissing.rd Reg.RING_EVT_ROUTE_UNIT)) ∧
  ((s_gstatMissing.bls 3).frames = [fr []]) ∧
  ((fr []).missed = false) ∧
  ((fr []).time + 100000 ≤ s_gstatMissing.now) ∧
  ((fr []).lines = []) ∧
  (s_gstatMissing.rd Reg.BL_GSTAT_CNT_FRAME_ERR 3 + 1 < 2 ^ 16) := by decide +kernel

theorem test_wit_emitterFault :
  (3 < 6) ∧
  ((bb id).Room ((bb id).rd Reg.RING_EVT_ROUTE_UNIT)) ∧
  (5 < 40) ∧
  (1 < 3) ∧
  ((bb id).lv Reg.BL_CFG_PORT 3 = 1) := by decide +kernel

theorem test_wit_emitterFault_row :
  (3 < 6) ∧
  (s_emitterFault_row.Room (s_emitterFault_row.rd Reg.RING_EVT_ROUTE_UNIT)) ∧
  (5 < 40) ∧
  (1 < 3) ∧
  (s_emitterFault_row.lv Reg.BL_CFG_PORT 3 = 1) := by decide +kernel

theorem test_wit_relief :
  (3 < 6) ∧
  (s_relief.Room (s_relief.rd Reg.RING_EVT_ROUTE_UNIT)) ∧
  ((s_relief.bls 3).relief = true) ∧
  (s_relief.lv Reg.BL_CFG_PORT 3 = 1) ∧
  (s_relief.on Reg.BL_STAT_ID_AGREE 3 = true) ∧
  ((s_relief.stns 3).expo = none) ∧
  (s_relief.on Reg.BL_STAT_CHAR_BUSY 3 = false) ∧
  (5 < min 32 (s_relief.rows 3)) ∧
  (∀ (q : Nat), q < min 32 (s_relief.rows 3) → (bitOf (s_relief.failed 3) (s_relief.rowEmitter 3 q) = true ↔ q = 5)) ∧
  (List.find?
    (fun p => s_relief.poolFree 3 p && (s_relief.bls 3).site p == (s_relief.bls 3).site (s_relief.rowEmitter 3 5))
    (List.range 40) =
  some 8) := by decide +kernel

theorem test_wit_wearWrite :
  (3 < 6) ∧
  (s_wearWrite.Room (s_wearWrite.rd Reg.RING_EVT_ROUTE_UNIT)) ∧
  (s_wearWrite.boot.running = true) ∧
  ((s_wearWrite.stns 3).expo = none) ∧
  (s_wearWrite.isLaid 3 = false) ∧
  (s_wearWrite.on Reg.BL_STAT_ID_AGREE 3 = true) ∧
  ((s_wearWrite.bls 3).wear = some (1, 3, [1, 2])) ∧
  (0 < 3) := by decide +kernel

theorem test_wit_wearWrite_last :
  (3 < 6) ∧
  (s_wearWrite_last.Room (s_wearWrite_last.rd Reg.RING_EVT_ROUTE_UNIT)) ∧
  (s_wearWrite_last.boot.running = true) ∧
  ((s_wearWrite_last.stns 3).expo = none) ∧
  (s_wearWrite_last.isLaid 3 = false) ∧
  (s_wearWrite_last.on Reg.BL_STAT_ID_AGREE 3 = true) ∧
  ((s_wearWrite_last.bls 3).wear = some (1, 7, [1, 2])) ∧
  (0 < 7) := by decide +kernel

end W11

/-! States that meet the hypotheses of the statements about drive. -/

namespace W12

def setL (l : List (Nat × Nat)) (s : State) : State := { s with live := l.foldl (fun t e => tput 0xFFFFFFFFFF t e.1 e.2) s.live }
def setD (n : Nat) (f : Drv → Drv) (s : State) : State := s.setDrv n (f (s.drvs n))
def drun (st : Nat) : State := setL [(Reg.DRV_COUNTS_COUNTS_REV.key 5 0, 4096), (Reg.DRV_CFG_SRC.key 5 0, 6), (Reg.DRV_CFG_EN.key 5 0, 1), (Reg.DRV_SCALE_I_FS.key 5 0, 32768), (Reg.DRV_SCALE_VBUS_FS.key 5 0, 4096),
  (Reg.DRV_SPD_SET_SPD_SET.key 5 0, 16000), (Reg.DRV_SPD_MAX_SPD_MAX.key 5 0, 48000), (Reg.DRV_ACCEL_ACCEL.key 5 0, 1000), (Reg.DRV_SPD_PI_KP.key 5 0, 3), (Reg.DRV_TQ_MAX_TQ_MAX.key 5 0, 1000)] (dev.wr Reg.DRV_STAT_STATE st 5)
def s_driveDecision : State := setD 5 (fun d => { d with vec := 2 }) (setL [(Reg.DRV_BUS_LVL2_UV_LEVEL.key 0 0, 0)] (drun Dst.run))
def s_driveSpeedStep : State := drun Dst.run
def s_driveSpeedStep_off : State := drun Dst.off
def s_drvStart : State := drun Dst.off
def s_drvStop : State := drun Dst.run
def s_drvStop_catch : State := drun Dst.catch_
def s_catchDone : State := setL [(Reg.DRV_CATCH_CATCH_MIN.key 5 0, 100)] (drun Dst.catch_)
def s_catchDone_runs : State := setD 5 (fun d => { d with fwd := false }) (setL [(Reg.DRV_CATCH_CATCH_MIN.key 5 0, 0)] (drun Dst.catch_))
def s_catchDone_none : State := setL [(Reg.DRV_SCALE_I_FS.key 5 0, 0)] (drun Dst.catch_)
def s_angleSearchDone : State := drun Dst.search
def s_angleSearchDone_fail : State := drun Dst.search
def s_angleSearchDone_fail2 : State := setD 5 (fun d => { d with searches := 1 }) (drun Dst.search)
def s_angleSearchRetry : State := setD 5 (fun d => { d with searches := 1, retryAt := some 0 }) (drun Dst.search)
def s_findAngle : State := drun Dst.off
theorem test_wit_catchDone_cases : s_catchDone.catchResult 5 (0, 0, 0) (0, 0, 0) (0, 0, 0) = some (0, 0) ∧ s_catchDone_none.catchResult 5 (1000, -500, 9) (-1000, 500, 9) (-1000, 500, 9) = none := by decide +kernel
def s_drvGate : State := drun Dst.run
def s_drvGate2 : State := (drun Dst.run).drvTrip 5 Src.drvGate
def s_drvOc : State := setL [(Reg.DRV_OC_OC_LIMIT.key 5 0, 1)] (drun Dst.run)
def s_drvOc2 : State := ((setL [(Reg.DRV_OC_OC_LIMIT.key 5 0, 1)] (drun Dst.run)).cnt Reg.DRV_CNT_OC_TRIPS 5).drvTrip 5 Src.drvOc
def s_drvOc_within : State := setL [(Reg.DRV_OC_OC_LIMIT.key 5 0, 65535)] (drun Dst.run)
def s_dfltRelease : State := drun Dst.run
def s_drvStall : State := setD 5 (fun d => { d with stallAt := some 0 }) { setL [(Reg.DRV_STALL_STALL_MS.key 5 0, 1)] (drun Dst.run) with now := 1000000 }
def s_drvStall2 : State := (setD 5 (fun d => { d with stallAt := none }) { setL [(Reg.DRV_STALL_STALL_MS.key 5 0, 1)] (drun Dst.run) with now := 1000000 }).motStop 5 4
def s_drvPinLost : State := setL [(Reg.DRV_CFG_SRC.key 5 0, 4)] (drun Dst.run)
def s_drvPinLost_reads : State := drun Dst.run
def grp (f : BusGrp → BusGrp) (s : State) : State := s.setBus 2 (f (s.buss 2))
def s_busGroupChange : State := setL [(Reg.DRV_CFG_BUS_GRP.key 5 0, 2), (Reg.DRV_BUS_CHOP_CHOP_EN.key 2 0, 1)] ((drun Dst.run).wr Reg.DRV_VBUS_VBUS 20000 5)
def s_busGroupChange_trip : State := setL [(Reg.DRV_CFG_BUS_GRP.key 5 0, 2), (Reg.DRV_BUS_CHOP_CHOP_EN.key 2 0, 1)] ((drun Dst.run).wr Reg.DRV_VBUS_VBUS 40000 5)
def s_chopSenseFail : State := grp (fun b => { b with mv := 20000, sense := true, chkAt := some 0 }) (setL [(Reg.DRV_BUS_CHOP_CHOP_EN.key 2 0, 1)] { dev with now := 2000000 })
def s_busReactionEnd : State := grp (fun b => { b with forced := true, forcedEnd := some 0 }) dev
def s_busReactionEnd_over : State := grp (fun b => { b with ovr := true, overEnd := some 0 }) dev

theorem test_wit_driveDecision :
  (5 < 16) ∧
  (s_driveDecision.edgeLive = none) ∧
  ((((s_driveDecision.wr Reg.DRV_VBUS_VBUS (s_driveDecision.drvVolts 5 [] 0) 5).wrI Reg.DRV_SPEED_SPEED
            (s_driveDecision.drvSpeed 5) 5).busMeasure
        (s_driveDecision.lv Reg.DRV_CFG_BUS_GRP 5)).dst
    5 =
  Dst.run) ∧
  (((((s_driveDecision.wr Reg.DRV_VBUS_VBUS (s_driveDecision.drvVolts 5 [] 0) 5).wrI Reg.DRV_SPEED_SPEED
              (s_driveDecision.drvSpeed 5) 5).busMeasure
          (s_driveDecision.lv Reg.DRV_CFG_BUS_GRP 5)).buss
      (s_driveDecision.lv Reg.DRV_CFG_BUS_GRP 5)).ovr =
  false) ∧
  (0 ≤
  ((((s_driveDecision.wr Reg.DRV_VBUS_VBUS (s_driveDecision.drvVolts 5 [] 0) 5).wrI Reg.DRV_SPEED_SPEED
                (s_driveDecision.drvSpeed 5) 5).busMeasure
            (s_driveDecision.lv Reg.DRV_CFG_BUS_GRP 5)).drvs
        5).tref *
    s_driveDecision.drvSpeed 5) := by decide +kernel

theorem test_wit_driveSpeedStep :
  (5 < 16) ∧
  (s_driveSpeedStep.lv Reg.DRV_CFG_SRC 5 = 6) := by decide +kernel

theorem test_wit_driveSpeedStep_off :
  (5 < 16) ∧
  (s_driveSpeedStep_off.lv Reg.DRV_CFG_SRC 5 = 6) := by decide +kernel

theorem test_wit_drvStart :
  (5 < 16) ∧
  (s_drvStart.fenced (6 + 5) = false) ∧
  (s_drvStart.stopWaits = []) ∧
  (s_drvStart.mst 5 = Mst.idle) ∧
  (s_drvStart.Granted Port.pf0 (Reg.DRV_CTL_START.addr 5 0)) := by decide +kernel

theorem test_wit_drvStop :
  (5 < 16) ∧
  (s_drvStop.fenced (6 + 5) = false) ∧
  (s_drvStop.stopWaits = []) ∧
  (s_drvStop.mst 5 = Mst.idle) ∧
  (s_drvStop.Granted Port.pf0 (Reg.DRV_CTL_START.addr 5 0)) := by decide +kernel

theorem test_wit_drvStop_catch :
  (5 < 16) ∧
  (s_drvStop_catch.fenced (6 + 5) = false) ∧
  (s_drvStop_catch.stopWaits = []) ∧
  (s_drvStop_catch.mst 5 = Mst.idle) ∧
  (s_drvStop_catch.Granted Port.pf0 (Reg.DRV_CTL_START.addr 5 0)) := by decide +kernel

theorem test_wit_catchDone :
  (5 < 16) ∧
  (s_catchDone.fenced (6 + 5) = false) ∧
  (s_catchDone.stopWaits = []) ∧
  (s_catchDone.mst 5 = Mst.idle) ∧
  (s_catchDone.dst 5 = Dst.catch_) ∧
  ((s_catchDone.drvs 5).stopPend = false) := by decide +kernel

theorem test_wit_catchDone_runs :
  (5 < 16) ∧
  (s_catchDone_runs.fenced (6 + 5) = false) ∧
  (s_catchDone_runs.stopWaits = []) ∧
  (s_catchDone_runs.mst 5 = Mst.idle) ∧
  (s_catchDone_runs.dst 5 = Dst.catch_) ∧
  ((s_catchDone_runs.drvs 5).stopPend = false) := by decide +kernel

theorem test_wit_catchDone_none :
  (5 < 16) ∧
  (s_catchDone_none.fenced (6 + 5) = false) ∧
  (s_catchDone_none.stopWaits = []) ∧
  (s_catchDone_none.mst 5 = Mst.idle) ∧
  (s_catchDone_none.dst 5 = Dst.catch_) ∧
  ((s_catchDone_none.drvs 5).stopPend = false) := by decide +kernel

theorem test_wit_angleSearchDone :
  (5 < 16) ∧
  (s_angleSearchDone.fenced (6 + 5) = false) ∧
  (s_angleSearchDone.stopWaits = []) ∧
  (s_angleSearchDone.mst 5 = Mst.idle) ∧
  (s_angleSearchDone.dst 5 = Dst.search) := by decide +kernel

theorem test_wit_angleSearchDone_fail :
  (5 < 16) ∧
  (s_angleSearchDone_fail.fenced (6 + 5) = false) ∧
  (s_angleSearchDone_fail.stopWaits = []) ∧
  (s_angleSearchDone_fail.mst 5 = Mst.idle) ∧
  (s_angleSearchDone_fail.dst 5 = Dst.search) := by decide +kernel

theorem test_wit_angleSearchDone_fail2 :
  (5 < 16) ∧
  (s_angleSearchDone_fail2.fenced (6 + 5) = false) ∧
  (s_angleSearchDone_fail2.stopWaits = []) ∧
  (s_angleSearchDone_fail2.mst 5 = Mst.idle) ∧
  (s_angleSearchDone_fail2.dst 5 = Dst.search) := by decide +kernel

theorem test_wit_angleSearchRetry :
  (5 < 16) ∧
  (s_angleSearchRetry.fenced (6 + 5) = false) ∧
  (s_angleSearchRetry.stopWaits = []) ∧
  (s_angleSearchRetry.mst 5 = Mst.idle) ∧
  (s_angleSearchRetry.dst 5 = Dst.search) := by decide +kernel

theorem test_wit_findAngle :
  (5 < 16) ∧
  (s_findAngle.fenced (6 + 5) = false) ∧
  (s_findAngle.stopWaits = []) ∧
  (s_findAngle.mst 5 = Mst.idle) ∧
  (s_findAngle.Granted Port.pf0 (Reg.DRV_CTL_START.addr 5 0)) := by decide +kernel

theorem test_wit_drvGate :
  (5 < 16) ∧
  (s_drvGate.stopWaits = []) ∧
  (s_drvGate.mst 5 = Mst.idle) ∧
  (s_drvGate.dst 5 ≠ Dst.off) := by decide +kernel

theorem test_wit_drvOc :
  (5 < 16) ∧
  (s_drvOc.stopWaits = []) ∧
  (s_drvOc.mst 5 = Mst.idle) ∧
  (s_drvOc.drvWithin 5 (s_drvOc.drvCurrent 5 (sinc3 8 (List.replicate 24 true))) (s_drvOc.drvCurrent 5 (sinc3 8 [])) =
  false) ∧
  (s_drvOc.dst 5 ≠ Dst.off) ∧
  (s_drvOc.rd Reg.DRV_CNT_OC_TRIPS 5 + 1 < 2 ^ 16) := by decide +kernel

theorem test_wit_drvOc_within :
  (5 < 16) ∧
  (s_drvOc_within.stopWaits = []) ∧
  (s_drvOc_within.mst 5 = Mst.idle) ∧
  (s_drvOc_within.drvWithin 5 (s_drvOc_within.drvCurrent 5 (sinc3 8 (List.replicate 24 true)))
    (s_drvOc_within.drvCurrent 5 (sinc3 8 [])) =
  true) := by decide +kernel

theorem test_wit_dfltRelease :
  (5 < 16) ∧
  (s_dfltRelease.stopWaits = []) ∧
  (s_dfltRelease.mst 5 = Mst.idle) := by decide +kernel

theorem test_wit_drvStall :
  (5 < 16) ∧
  (s_drvStall.stopWaits = []) ∧
  (s_drvStall.mst 5 = Mst.idle) ∧
  ((s_drvStall.drvs 5).stallAt = some 0) ∧
  (s_drvStall.dst 5 = Dst.run) ∧
  (0 < s_drvStall.lv Reg.DRV_STALL_STALL_MS 5) ∧
  (0 + 1000000 * s_drvStall.lv Reg.DRV_STALL_STALL_MS 5 ≤ s_drvStall.now) := by decide +kernel

theorem test_wit_drvPinLost :
  (5 < 16) ∧
  (s_drvPinLost.stopWaits = []) ∧
  (s_drvPinLost.mst 5 = Mst.idle) := by decide +kernel

theorem test_wit_drvPinLost_reads :
  (5 < 16) ∧
  (s_drvPinLost_reads.stopWaits = []) ∧
  (s_drvPinLost_reads.mst 5 = Mst.idle) := by decide +kernel

theorem test_wit_busGroupChange :
  (2 < 4) := by decide +kernel

theorem test_wit_busGroupChange_trip :
  (2 < 4) := by decide +kernel

theorem test_wit_chopSenseFail :
  (2 < 4) := by decide +kernel

theorem test_wit_busReactionEnd :
  (2 < 4) := by decide +kernel

theorem test_wit_busReactionEnd_over :
  (2 < 4) := by decide +kernel

end W12

/-! States that meet the hypotheses of the statements about motion. -/

namespace W13

def setL (l : List (Nat × Nat)) (s : State) : State := { s with live := l.foldl (fun t e => tput 0xFFFFFFFFFF t e.1 e.2) s.live }
def setM (m : Nat) (f : Mot → Mot) (s : State) : State := s.setMot m (f (s.mots m))
def dMot (opc m : Nat) (x : Nat) : Desc := BitVec.ofNat 512 (opc + 2 ^ 128 * m + x)
def dRun : Desc := dMot 0x60 5 (2 ^ 144 * 9)
def dMove : Desc := dMot 0x61 5 (2 ^ 133 + 2 ^ 192 * 1000 + 2 ^ 256 * 5 + 2 ^ 288 * 6)
def dHome : Desc := dMot 0x63 5 (2 ^ 133 + 2 ^ 160 * 5 + 2 ^ 192 * 6 + 2 ^ 256 * 4)
def mact (code arg target : Nat) : Decided :=
  { idx := 9, e := { pos := 50, axis := 39, action := code, late := false, eq := 2, target := target, arg := arg, crx := 0 }, time := 0, late := false, fenced := false, s := 0, cap := 77 }
def s_motionRun : State := withD 3 dRun (setM 5 (fun x => { x with reqs := [(.tide (mact 0x28 1 5), .profile 1)] }) dev)
def s_motionMove : State := withD 3 dMove dev
def hh : Home := ⟨true, false, 0, true, 5, 6, 0, 4, 0, 10000000000, none, none, 0, 0, false⟩
def s_motionHome : State := withD 3 dHome dev
def s_motionStart : State := { dev with issued := [mact 0x28 4100 5] }
def jb : Job := ⟨3, 2, 0, dRun⟩
def gd (f : Mot → Mot) (l : List (Nat × Nat)) : State := setL l (setM 5 f { dev with segs := [(9, ⟨0, 100, 5, 0, true, true⟩)], now := 12500 })
def s_motionSample_take : State := gd (fun x => { x with reqs := [(.desc jb, .profile 9)] }) [(Reg.DRV_CFG_EN.key 5 0, 1), (Reg.DRV_CFG_SRC.key 5 0, 1)]
def s_motionSample_refuse : State := gd (fun x => { x with reqs := [(.desc jb, .profile 9)] }) []
def s_motionSample_fenced : State := (gd (fun x => { x with reqs := [(.desc jb, .profile 9)] }) []).setBoomed 11 true
def dStop (mask : Nat) : Desc := dMot 0x62 mask 0
def s_motionStop : State := withD 3 (dStop (2 ^ 20)) dev
def s_motionStop_stepper : State := withD 3 (dStop (2 ^ 20)) ((dev.wr Reg.MOT_STAT_STATE 3 20).wr Reg.STP_STAT_STATE 1 4)
def s_motionStop_drive : State := withD 3 (dStop (2 ^ 5)) ((dev.wr Reg.MOT_STAT_STATE 3 5).wr Reg.DRV_STAT_STATE Dst.run 5)
def s_motionStopTimeout : State := { dev with stopWaits := [⟨jb, 32, 7⟩], now := 9 }
def s_tideMotionStop : State := { (dev.wr Reg.MOT_STAT_STATE 3 20) with issued := [mact 0x29 0 20] }
def s_motionSample_stops : State := (setM 20 (fun x => { x with v0 := 1600000, v := 1600000, stop := some 3 }) { dev with now := 12500 }).wr Reg.MOT_STAT_STATE 3 20
def dSegs : Desc := dMot 0x4A 7 (2 ^ 144 * 2 + 2 ^ 192 * 16)
def segBytes (last : Byte) : List Byte := [0, 0, 0, 0, 0, 1, 0, 0, 0, 0, 0, 0, 0, 0, 0, 0, 9, 0, 0, 0, 0, 2, 0, 0, 0, 0, 0, 0, 0, 0, 0, last]
def s_motionSegLoad : State := withD 3 dSegs dev
def s_motionSegLoad_bad : State := withD 3 dSegs dev
theorem test_wit_motionSegLoad_cases : (∀ v ∈ entries 16 2 (segBytes 0), (segOf v).isSome = true) ∧ ((entries 16 2 (segBytes 0x80)).any fun v => (segOf v).isNone) = true ∧
    s_motionSegLoad.segPinned 7 = false ∧ s_motionSegLoad.segPinned 8 = false := by decide +kernel
def s_motionSample_off : State := { dev with now := 6251 }
def s_motionSample : State := setL [(Reg.MOT_CFG_REVERSIBLE.key 5 0, 1)] (((gd (fun x => { x with v0 := 160000 }) []).wr Reg.DRV_STAT_STATE Dst.run 5).wr Reg.MOT_STAT_STATE 3 5)
def s_motionSample_idle : State := (gd (fun x => { x with v := 160000 }) []).wr Reg.AXIS_SCHED 77 5
def hm : Home := ⟨true, true, 4, true, 5, 6, 0, 4, 0, 9, none, none, 10, 20, false⟩
def s_homeEdge : State := (setM 5 (fun x => { x with home := some hm }) dev).wr Reg.MOT_STAT_STATE Mst.homeSeek 5
def s_homeEdge_second : State := (setM 5 (fun x => { x with home := some hm }) dev).wr Reg.MOT_STAT_STATE Mst.homeApproach 5
def s_homeTimeout : State := (setM 20 (fun x => { x with home := some hm, job := some jb }) { dev with now := 12 }).wr Reg.MOT_STAT_STATE Mst.homeApproach 20
def s_inposTimeout : State := (setM 5 (fun x => { x with inposBy := some 5, job := some jb }) { dev with now := 12 }).wr Reg.MOT_STAT_STATE Mst.move 5

theorem test_wit_motionRun :
  (dCrx dRun = 0) := by decide +kernel

theorem test_wit_motionMove :
  (dCrx dMove = 0) := by decide +kernel

theorem test_wit_motionHome :
  (dCrx dHome = 0) ∧
  (s_motionHome.Ready 3 99 dHome) ∧
  (dget dHome 20 0 32 ≠ 0) ∧
  (dget dHome 24 0 32 ≠ 0) ∧
  (dget dHome 16 7 1 = 0) ∧
  (dget dHome 17 7 1 = 0) ∧
  (dZero dHome 18 20 = true) ∧
  (dget dHome 32 40 24 = 0) ∧
  (dZero dHome 48 64 = true) := by decide +kernel

theorem test_wit_motionStart :
  (s_motionStart.OnTime 40 (mact 40 4100 5)) := by decide +kernel

theorem test_wit_motionSample_take :
  (5 < 16) ∧
  (s_motionSample_take.now % 6250 = 0) ∧
  ((s_motionSample_take.mots 5).lastK ≤ s_motionSample_take.now / 6250) ∧
  (s_motionSample_take.rd Reg.PWR_STAT_MODE ≠ 2) ∧
  (s_motionSample_take.mst 5 = Mst.idle) ∧
  (s_motionSample_take.dst 5 ≠ Dst.run) ∧
  (s_motionSample_take.lon Reg.MOT_CFG_LIM_EN 5 = false) ∧
  ((s_motionSample_take.mots 5).stop = none) ∧
  ((s_motionSample_take.mots 5).job = none) ∧
  ((s_motionSample_take.mots 5).reqs = [(MotSrc.desc jb, MotCmd.profile 9)]) ∧
  (s_motionSample_take.tideWaits = []) ∧
  (s_motionSample_take.Room jb.eq) := by decide +kernel

theorem test_wit_motionSample_refuse :
  (5 < 16) ∧
  (s_motionSample_refuse.now % 6250 = 0) ∧
  ((s_motionSample_refuse.mots 5).lastK ≤ s_motionSample_refuse.now / 6250) ∧
  (s_motionSample_refuse.rd Reg.PWR_STAT_MODE ≠ 2) ∧
  (s_motionSample_refuse.mst 5 = Mst.idle) ∧
  (s_motionSample_refuse.dst 5 ≠ Dst.run) ∧
  (s_motionSample_refuse.lon Reg.MOT_CFG_LIM_EN 5 = false) ∧
  ((s_motionSample_refuse.mots 5).stop = none) ∧
  ((s_motionSample_refuse.mots 5).job = none) ∧
  ((s_motionSample_refuse.mots 5).reqs = [(MotSrc.desc jb, MotCmd.profile 9)]) ∧
  (s_motionSample_refuse.tideWaits = []) ∧
  (s_motionSample_refuse.Room jb.eq) := by decide +kernel

theorem test_wit_motionSample_fenced :
  (5 < 16) ∧
  (s_motionSample_fenced.now % 6250 = 0) ∧
  ((s_motionSample_fenced.mots 5).lastK ≤ s_motionSample_fenced.now / 6250) ∧
  (s_motionSample_fenced.rd Reg.PWR_STAT_MODE ≠ 2) ∧
  (s_motionSample_fenced.mst 5 = Mst.idle) ∧
  (s_motionSample_fenced.dst 5 ≠ Dst.run) ∧
  (s_motionSample_fenced.lon Reg.MOT_CFG_LIM_EN 5 = false) ∧
  ((s_motionSample_fenced.mots 5).stop = none) ∧
  ((s_motionSample_fenced.mots 5).job = none) ∧
  ((s_motionSample_fenced.mots 5).reqs = [(MotSrc.desc jb, MotCmd.profile 9)]) ∧
  (s_motionSample_fenced.tideWaits = []) ∧
  (s_motionSample_fenced.Room jb.eq) := by decide +kernel

theorem test_wit_motionStop :
  (s_motionStop.Ready 3 98 (dStop (2 ^ 20))) ∧
  (dCrx (dStop (2 ^ 20)) = 0) ∧
  (dZero (dStop (2 ^ 20)) 20 64 = true) ∧
  (s_motionStop.Room (s_motionStop.rd Reg.SQ_CFG_EQ 3)) := by decide +kernel

theorem test_wit_motionStop_stepper :
  (s_motionStop_stepper.Ready 3 98 (dStop (2 ^ 20))) ∧
  (dCrx (dStop (2 ^ 20)) = 0) ∧
  (dZero (dStop (2 ^ 20)) 20 64 = true) ∧
  (s_motionStop_stepper.Room (s_motionStop_stepper.rd Reg.SQ_CFG_EQ 3)) := by decide +kernel

theorem test_wit_motionStop_drive :
  (s_motionStop_drive.Ready 3 98 (dStop (2 ^ 5))) ∧
  (dCrx (dStop (2 ^ 5)) = 0) ∧
  (dZero (dStop (2 ^ 5)) 20 64 = true) ∧
  (s_motionStop_drive.Room (s_motionStop_drive.rd Reg.SQ_CFG_EQ 3)) := by decide +kernel

theorem test_wit_motionStopTimeout :
  (List.find? (fun w => w.job.ring == 3 && decide (w.deadline ≤ s_motionStopTimeout.now))
    s_motionStopTimeout.stopWaits =
  some { job := jb, axes := 32, deadline := 7 : StopWait }) ∧
  (s_motionStopTimeout.Room { job := jb, axes := 32, deadline := 7 : StopWait }.job.eq) := by decide +kernel

theorem test_wit_tideMotionStop :
  (s_tideMotionStop.OnTime 41 (mact 41 0 20)) ∧
  (16 ≤ (mact 41 0 20).e.target) := by decide +kernel

theorem test_wit_motionSample_stops :
  (16 ≤ 20) ∧
  (20 < 32) ∧
  (s_motionSample_stops.now % 6250 = 0) ∧
  ((s_motionSample_stops.mots 20).lastK ≤ s_motionSample_stops.now / 6250) ∧
  (s_motionSample_stops.rd Reg.PWR_STAT_MODE ≠ 2) ∧
  (s_motionSample_stops.mst 20 = Mst.cruise) ∧
  (s_motionSample_stops.lon Reg.MOT_CFG_LIM_EN 20 = false) ∧
  (0 < (s_motionSample_stops.mots 20).v0) ∧
  ((s_motionSample_stops.mots 20).v0 ≤ ↑vTop) ∧
  ((s_motionSample_stops.mots 20).held = false) ∧
  ((s_motionSample_stops.mots 20).home = none) ∧
  ((s_motionSample_stops.mots 20).stop = some 3) ∧
  ((s_motionSample_stops.mots 20).reqs = []) ∧
  (s_motionSample_stops.tideWaits = []) := by decide +kernel

theorem test_wit_motionSegLoad :
  (s_motionSegLoad.Ready 3 74 dSegs) ∧
  (dCrx dSegs = 0) ∧
  (s_motionSegLoad.Calm) ∧
  ((s_motionSegLoad.pf (s_motionSegLoad.ownSq 3)).flr = false) ∧
  ((s_motionSegLoad.pf (s_motionSegLoad.ownSq 3)).bme = true) ∧
  (dget dSegs 16 12 4 = 0) ∧
  (dget dSegs 18 11 5 = 0) ∧
  (dZero dSegs 20 24 = true) ∧
  (dZero dSegs 32 64 = true) ∧
  (dget dSegs 24 0 4 = 0) ∧
  (dget dSegs 16 0 12 + dget dSegs 18 0 11 ≤ 4096) ∧
  (0 < dget dSegs 18 0 11) ∧
  (dget dSegs 18 0 11 ≤ 1024) := by decide +kernel

theorem test_wit_motionSegLoad_bad :
  (s_motionSegLoad_bad.Ready 3 74 dSegs) ∧
  (dCrx dSegs = 0) ∧
  (s_motionSegLoad_bad.Calm) ∧
  ((s_motionSegLoad_bad.pf (s_motionSegLoad_bad.ownSq 3)).flr = false) ∧
  ((s_motionSegLoad_bad.pf (s_motionSegLoad_bad.ownSq 3)).bme = true) ∧
  (dget dSegs 16 12 4 = 0) ∧
  (dget dSegs 18 11 5 = 0) ∧
  (dZero dSegs 20 24 = true) ∧
  (dZero dSegs 32 64 = true) ∧
  (dget dSegs 24 0 4 = 0) ∧
  (dget dSegs 16 0 12 + dget dSegs 18 0 11 ≤ 4096) ∧
  (0 < dget dSegs 18 0 11) ∧
  (dget dSegs 18 0 11 ≤ 1024) := by decide +kernel

theorem test_wit_motionSample_off :
  (s_motionSample_off.now % 6250 ≠ 0 ∨ s_motionSample_off.rd Reg.PWR_STAT_MODE = 2) := by decide +kernel

theorem test_wit_motionSample :
  (5 < 16) ∧
  (s_motionSample.now % 6250 = 0) ∧
  ((s_motionSample.mots 5).lastK ≤ s_motionSample.now / 6250) ∧
  (s_motionSample.rd Reg.PWR_STAT_MODE ≠ 2) ∧
  ((s_motionSample.mots 5).stop = none) ∧
  ((s_motionSample.mots 5).reqs = []) ∧
  (s_motionSample.tideWaits = []) := by decide +kernel

theorem test_wit_motionSample_idle :
  (5 < 16) ∧
  (s_motionSample_idle.now % 6250 = 0) ∧
  ((s_motionSample_idle.mots 5).lastK ≤ s_motionSample_idle.now / 6250) ∧
  (s_motionSample_idle.rd Reg.PWR_STAT_MODE ≠ 2) ∧
  ((s_motionSample_idle.mots 5).stop = none) ∧
  ((s_motionSample_idle.mots 5).reqs = []) ∧
  (s_motionSample_idle.tideWaits = []) := by decide +kernel

theorem test_wit_homeEdge :
  (5 < 32) := by decide +kernel

theorem test_wit_homeEdge_second :
  (5 < 32) := by decide +kernel

theorem test_wit_homeTimeout :
  (20 < 32) := by decide +kernel

theorem test_wit_inposTimeout :
  (5 < 32) := by decide +kernel

end W13

/-! States that meet the hypotheses of the statements about stepper. -/

namespace W14

def setL (l : List (Nat × Nat)) (s : State) : State := { s with live := l.foldl (fun t e => tput 0xFFFFFFFFFF t e.1 e.2) s.live }
def setC (f : Coil → Coil) (s : State) : State := s.setStp 4 { s.stps 4 with b := f (s.stps 4).b }
def sdev : State := (({ dev with now := 100000000 }.wr Reg.STP_STAT_STATE 1 4).wr Reg.STP_REF_REF_B 3000 4)
def s_chopperOnEnd : State := setC (fun c => { c with phase := 1 }) sdev
def s_chopperOffEnd : State := setC (fun c => { c with phase := 2 }) sdev
def s_chopperOffEnd_zero : State := setC (fun c => { c with phase := 3 }) (sdev.wr Reg.STP_REF_REF_B 0 4)
def s_chopperOffEnd_fast : State := setL [(Reg.STP_CHOP_TOFF.key 4 0, 20), (Reg.STP_CHOP_FAST.key 4 0, 8)] (setC (fun c => { c with phase := 2, start := 99985000 }) sdev)
def s_stpShort : State := setC (fun c => { c with phase := 1, shorts := 16 }) sdev
def s_stpShort2 : State := ((setC (fun c => { c with phase := 1, shorts := 16 }) sdev).cnt Reg.STP_CNT_SHORTS 4).stpTrip 4 Src.stpShort
def s_stpOpen : State := setC (fun c => { c with phase := 1 }) sdev
def s_stpOpen2 : State := (setC (fun c => { c with phase := 1 }) sdev).motHalt 20 4
def s_stepperHold : State := setL [(Reg.STP_CUR_HOLD_MS.key 4 0, 100)] sdev
def s_stpStall : State := setL [(Reg.STP_ENC_ENC_EN.key 4 0, 1), (Reg.STP_STALL_STALL_ERR.key 4 0, 3)] (sdev.setStp 4 { sdev.stps 4 with q := 9, q0 := 4 })
def s_stpStall2 : State := (setL [(Reg.STP_ENC_ENC_EN.key 4 0, 1), (Reg.STP_STALL_STALL_ERR.key 4 0, 3)] (sdev.setStp 4 { sdev.stps 4 with q := 9, q0 := 4 })).motHalt 20 4
def dMs : Desc := BitVec.ofNat 512 (0x4C + 2 ^ 128 * 2 + 2 ^ 192 * 64)
def s_microstepLoad : State := withD 1 dMs dev
def s_microstepLoad_used : State := withD 1 dMs (setL [(Reg.STP_CFG_EN.key 4 0, 1), (Reg.STP_CFG_TABLE.key 4 0, 2)] sdev)

theorem test_wit_chopperOnEnd :
  (4 < 16) := by decide +kernel

theorem test_wit_chopperOffEnd :
  (4 < 16) := by decide +kernel

theorem test_wit_chopperOffEnd_zero :
  (4 < 16) := by decide +kernel

theorem test_wit_chopperOffEnd_fast :
  (4 < 16) := by decide +kernel

theorem test_wit_stpShort :
  (4 < 16) ∧
  (16 ≤ ((s_stpShort.stps 4).coil true).shorts) ∧
  (s_stpShort.stopWaits = []) ∧
  (s_stpShort.mst (16 + 4) = Mst.idle) ∧
  (s_stpShort.rd Reg.STP_STAT_STATE 4 ≠ 0) := by decide +kernel

theorem test_wit_stpOpen :
  (4 < 16) ∧
  (((s_stpOpen.stps 4).coil true).phase = 1) ∧
  (512 ≤ entryMag (s_stpOpen.coilEntry 4 true)) ∧
  (((s_stpOpen.stps 4).coil true).start + 1000000 * max 1 (s_stpOpen.lv Reg.STP_GATE_OPEN_MS 4) ≤ s_stpOpen.now) := by decide +kernel

theorem test_wit_stepperHold :
  (4 < 16) := by decide +kernel

theorem test_wit_stpStall :
  (4 < 16) ∧
  (s_stpStall.lon Reg.STP_ENC_ENC_EN 4 = true) ∧
  (s_stpStall.rd Reg.STP_STAT_STATE 4 = 1) ∧
  (256 * s_stpStall.lv Reg.STP_STALL_STALL_ERR 4 <
  (256 * posDiff (s_stpStall.stps 4).q (s_stpStall.stps 4).q0 -
      posDiff (s_stpStall.rd Reg.ENC_CNT (s_stpStall.lv Reg.STP_ENC_ENC_PORT 4)) (s_stpStall.stps 4).c0 *
        ↑(s_stpStall.lv Reg.STP_ENC_ENC_SCALE 4)).natAbs) := by decide +kernel

theorem test_wit_microstepLoad :
  (1 < 64) ∧
  (s_microstepLoad.Ready 1 76 dMs) ∧
  (dCrx dMs = 0) ∧
  (dget dMs 24 0 3 = 0) ∧
  (dget dMs 16 2 6 = 0) ∧
  (dZero dMs 17 24 = true) ∧
  (dZero dMs 32 64 = true) ∧
  (s_microstepLoad.Room (s_microstepLoad.rd Reg.SQ_CFG_EQ 1)) ∧
  (s_microstepLoad.Calm) := by decide +kernel

theorem test_wit_microstepLoad_used :
  (1 < 64) ∧
  (s_microstepLoad_used.Ready 1 76 dMs) ∧
  (dCrx dMs = 0) ∧
  (dget dMs 24 0 3 = 0) ∧
  (dget dMs 16 2 6 = 0) ∧
  (dZero dMs 17 24 = true) ∧
  (dZero dMs 32 64 = true) ∧
  (s_microstepLoad_used.Room (s_microstepLoad_used.rd Reg.SQ_CFG_EQ 1)) ∧
  (s_microstepLoad_used.Calm) := by decide +kernel

end W14

/-! States that meet the hypotheses of the statements about feedback. -/

namespace W15

def setL (l : List (Nat × Nat)) (s : State) : State := { s with live := l.foldl (fun t e => tput 0xFFFFFFFFFF t e.1 e.2) s.live }
def setE (f : Enc → Enc) (s : State) : State := s.setEnc 7 (f (s.encs 7))
def edev (mode : Nat) : State := setL [(Reg.ENC_CFG_MODE.key 7 0, mode), (Reg.ENC_CFG_FILT.key 7 0, 2)] ({ dev with now := 1000000 }.wr Reg.ENC_STAT_SIG_OK 1 7)
def s_encoderCount_none : State := setE (fun x => { x with a := true }) (edev 1)
def s_encoderCount : State := setE (fun x => { x with a := true, dir := 1, times := [999960] }) (edev 1)
def s_encoderCount_b : State := setE (fun x => { x with a := true, dir := 1, times := [999960] }) (edev 1)
def s_indexEvent : State := setE (fun x => { x with a := true, dir := 1, times := [999960] }) (edev 1)
def s_ssiRequest : State := edev 2
def ssd (x : Nat) : State := setL [(Reg.ENC_CFG_BITS.key 7 0, 8), (Reg.ENC_CFG_LEAD.key 7 0, 1), (Reg.ENC_CFG_CRC_SEL.key 7 0, x), (Reg.ENC_CFG_CRC_INV.key 7 0, 0), (Reg.ENC_CFG_GRAY.key 7 0, 0), (Reg.ENC_POLL_JUMP_MAX.key 7 0, 0), (Reg.ENC_SPD_ERR_MAX.key 7 0, 3)] (setE (fun x => { x with req := some 0, word := some 250 }) (edev 2))
def s_ssiFrameDone : State := ssd 0
def s_ssiFrameDone_bad : State := ssd 1
theorem test_wit_ssiFrameDone_cases : s_ssiFrameDone.ssiRead 7 [true, false, false, false, false, false, true, false, true] = (5, 0) ∧ s_ssiFrameDone.ssiWant 7 5 = 0 ∧
    s_ssiFrameDone_bad.ssiEdges 7 = 15 ∧ (s_ssiFrameDone_bad.ssiRead 7 [true, false, false, false, false, false, true, false, true, true, false, false, false, false, false]).2 ≠ s_ssiFrameDone_bad.ssiWant 7 5 := by decide +kernel
def s_encoderSpeed_off : State := edev 1
def s_encoderSpeed : State := { setE (fun x => { x with dir := -1, times := [1000000, 999000, 998000, 997000, 996000, 995000] }) (edev 1) with now := 1006250 }
def s_encoderSpeed_dead : State := { edev 1 with now := 1006250, regs := [] }
def s_encSignal : State := edev 1
def s_encSignal2 : State := ((setE (fun x => { x with fault := true }) (edev 1)).wr Reg.ENC_STAT_SIG_OK 0 7).wr Reg.ENC_SPEED_SPEED 0 7
def s_encSignalRestored : State := setE (fun x => { x with fault := true }) (edev 1)
def mdev (f : Emu → Emu) : State := (({ dev with now := 1000000 }.wr Reg.EMU_CFG_EN 1 3).wr Reg.EMU_CFG_GATE 1 3).setEmu 3 (f (dev.emus 3))
def s_emuEdge : State := mdev fun x => { x with owed := -4, lastEdge := some 4 }
def s_emuEdge_soon : State := mdev fun x => { x with owed := -4, lastEdge := some 999990 }
def s_emuOverrun : State := mdev fun x => { x with owed := 40000, ovr := true }
def s_resync : State := mdev fun x => { x with owed := 40000, stopped := true }
def acE (arg : Nat) : Decided :=
  { idx := 9, e := { pos := 50, axis := 39, action := 0x38, late := false, eq := 2, target := 3, arg := arg, crx := 0 }, time := 0, late := false, fenced := false, s := 0, cap := 77 }
def s_emuGate : State := { (mdev fun x => { x with owed := -4, lastEdge := some 4 }) with issued := [acE 2] }
def s_emuGate_on : State := { (mdev fun x => { x with owed := -4, lastEdge := some 4 }) with issued := [acE 3] }

theorem test_wit_encoderCount_none :
  (7 < 24) := by decide +kernel

theorem test_wit_encoderCount :
  (7 < 24) ∧
  (s_encoderCount.lv Reg.ENC_CFG_MODE 7 = 1) ∧
  (s_encoderCount.encLive 7 = true) := by decide +kernel

theorem test_wit_encoderCount_b :
  (7 < 24) ∧
  (s_encoderCount_b.lv Reg.ENC_CFG_MODE 7 = 1) ∧
  (s_encoderCount_b.encLive 7 = true) := by decide +kernel

theorem test_wit_indexEvent :
  (7 < 24) ∧
  (s_indexEvent.lv Reg.ENC_CFG_MODE 7 = 1) ∧
  (s_indexEvent.encLive 7 = true) := by decide +kernel

theorem test_wit_ssiRequest :
  (7 < 24) ∧
  (s_ssiRequest.lv Reg.ENC_CFG_MODE 7 = 2) := by decide +kernel

theorem test_wit_ssiFrameDone :
  (7 < 24) ∧
  (s_ssiFrameDone.lv Reg.ENC_CFG_MODE 7 = 2) := by decide +kernel

theorem test_wit_ssiFrameDone_bad :
  (7 < 24) ∧
  (s_ssiFrameDone_bad.lv Reg.ENC_CFG_MODE 7 = 2) := by decide +kernel

theorem test_wit_encoderSpeed_off :
  (7 < 24) := by decide +kernel

theorem test_wit_encoderSpeed :
  (7 < 24) ∧
  (s_encoderSpeed.now % 6250 = 0) ∧
  (s_encoderSpeed.lv Reg.ENC_CFG_MODE 7 = 1) ∧
  ((s_encoderSpeed.encs 7).win = false) ∧
  (s_encoderSpeed.now / 6250 % 2 ^ s_encoderSpeed.lv Reg.ENC_SPD_WIN_SHIFT 7 ≠ 0) := by decide +kernel

theorem test_wit_encoderSpeed_dead :
  (7 < 24) ∧
  (s_encoderSpeed_dead.now % 6250 = 0) ∧
  (s_encoderSpeed_dead.lv Reg.ENC_CFG_MODE 7 = 1) ∧
  ((s_encoderSpeed_dead.encs 7).win = false) ∧
  (s_encoderSpeed_dead.now / 6250 % 2 ^ s_encoderSpeed_dead.lv Reg.ENC_SPD_WIN_SHIFT 7 ≠ 0) := by decide +kernel

theorem test_wit_encSignal :
  (7 < 24) ∧
  ((s_encSignal.encs 7).fault = false) ∧
  (s_encSignal.lv Reg.ENC_CFG_MODE 7 ≠ 0) := by decide +kernel

theorem test_wit_encSignalRestored :
  (7 < 24) := by decide +kernel

theorem test_wit_emuEdge :
  (3 < 8) := by decide +kernel

theorem test_wit_emuEdge_soon :
  (3 < 8) := by decide +kernel

theorem test_wit_emuOverrun :
  (3 < 8) := by decide +kernel

theorem test_wit_resync :
  (3 < 8) := by decide +kernel

theorem test_wit_emuGate :
  (3 < 8) := by decide +kernel

theorem test_wit_emuGate_on :
  (3 < 8) := by decide +kernel

end W15

/-! States that meet the hypotheses of the statements about capstan. -/

namespace W16

def setL (l : List (Nat × Nat)) (s : State) : State := { s with live := l.foldl (fun t e => tput 0xFFFFFFFFFF t e.1 e.2) s.live }
def s_capstanPeriod_off : State := { dev with now := 6251 }
def s_capstanPeriod : State := { dev with now := 6250 }
def s_capstanPeriod2 : State := (List.range 4).foldl (fun s h => s.htrPeriod h) ((List.range 32).foldl (fun s h => s.hvReference h) ((List.range 128).foldl (fun s l => s.flushHeld l) ((List.range 128).foldl (fun s l => s.endSample l) { dev with now := 6250, capAt := some 6250 })))
def pd (done : Bool) : Pend := ⟨5, [(3, -4)], [(2, 9)], [(2, -7)], none, false, 4, done⟩
def ldev (done : Bool) : State := (dev.wr Reg.LOOP_STAT_TALLY 5 9).setLoop 9 { dev.loops 9 with pend := some (pd done) }
def s_loop_publish : State := ldev true
def s_loopSampleComplete : State := ldev false
def s_loopSampleComplete_tally : State := (ldev false).wr Reg.LOOP_STAT_TALLY 6 9
def acL (arg target : Nat) : Decided :=
  { idx := 9, e := { pos := 50, axis := 39, action := 0x30, late := false, eq := 2, target := target, arg := arg, crx := 0 }, time := 0, late := false, fenced := false, s := 0, cap := 77 }
def s_lawParam : State := setL [(Reg.LOOP_CFG_EN.key 9 0, 1)] { dev with issued := [acL 0xFFFFFE03 9] }
def s_lawParam_held : State := setL [(Reg.LOOP_CFG_EN.key 9 0, 1)] { ldev false with issued := [acL 0xFFFFFE03 9] }
def s_stale : State := dev.wr Reg.CAP_STAT_STATE Cst.stale 3
def s_stale_dead : State := dev.wr Reg.CAP_STAT_STATE Cst.dead 3
def s_stale_dead2 : State := ((dev.wr Reg.CAP_CNT_STALE_WRITES 1 3).wr Reg.CAP_STAT_STATE Cst.stale 3).capReport 3 3 St.staleTally 0
def dLaw (opc x : Nat) : Desc := BitVec.ofNat 512 (opc + 2 ^ 128 * x)
def dL0 : Desc := dLaw 0x50 (5 + 2 ^ 16 * 1)
def s_lawLoad : State := withD 2 dL0 dev
def s_lawLoad_bad : State := withD 2 dL0 dev
def s_lawLoad_used : State := setL [(Reg.LOOP_CFG_EN.key 9 0, 1), (Reg.LOOP_PROG_FIRST.key 9 0, 4), (Reg.LOOP_PROG_COUNT.key 9 0, 2)] (withD 2 dL0 dev)
def dL1 : Desc := dLaw 0x51 (9 + 2 ^ 8 * 7 + 2 ^ 16 * 2)
def s_lawParamSet : State := withD 2 dL1 dev
def dL2 : Desc := dLaw 0x52 3
def s_ffTableLoad : State := withD 2 dL2 dev
def s_ffTableLoad_used : State := setL [(Reg.LOOP_CFG_EN.key 9 0, 1), (Reg.LOOP_PROG_FIRST.key 9 0, 4), (Reg.LOOP_PROG_COUNT.key 9 0, 2)] { withD 2 dL2 dev with block := [(5, 6 + 2 ^ 40 * 3)] }

theorem test_wit_capstanPeriod :
  (s_capstanPeriod.now % 6250 = 0) ∧
  (s_capstanPeriod.capAt ≠ some s_capstanPeriod.now) ∧
  (s_capstanPeriod.rd Reg.PWR_STAT_MODE ≠ 2) ∧
  (∀ (c : Nat), c < 16 → s_capstanPeriod.isLaid (62 + c) = true ∨ s_capstanPeriod.lon Reg.CAP_CFG_EN c = false) := by decide +kernel

theorem test_wit_loop_publish :
  (9 < 128) ∧
  ((s_loop_publish.loops 9).pend = some (pd true)) := by decide +kernel

theorem test_wit_loopSampleComplete :
  (9 < 128) ∧
  ((s_loopSampleComplete.loops 9).pend = some (pd false)) := by decide +kernel

theorem test_wit_loopSampleComplete_tally :
  (9 < 128) ∧
  ((s_loopSampleComplete_tally.loops 9).pend = some (pd false)) := by decide +kernel

theorem test_wit_lawParam :
  (s_lawParam.OnTime 48 (acL 4294966787 9)) ∧
  (s_lawParam.lon Reg.LOOP_CFG_EN (acL 4294966787 9).e.target = true) ∧
  (s_lawParam.on Reg.LOOP_STAT_ORPHAN (acL 4294966787 9).e.target = false) := by decide +kernel

theorem test_wit_lawParam_held :
  (s_lawParam_held.OnTime 48 (acL 4294966787 9)) ∧
  (s_lawParam_held.lon Reg.LOOP_CFG_EN (acL 4294966787 9).e.target = true) ∧
  (s_lawParam_held.on Reg.LOOP_STAT_ORPHAN (acL 4294966787 9).e.target = false) := by decide +kernel

theorem test_wit_stale :
  (3 < 16) ∧
  (s_stale.rd Reg.CAP_CNT_STALE_WRITES 3 + 1 < 2 ^ 16) ∧
  (s_stale.Room (s_stale.rd Reg.RING_EVT_ROUTE_UNIT)) := by decide +kernel

theorem test_wit_stale_dead :
  (3 < 16) ∧
  (s_stale_dead.rd Reg.CAP_CNT_STALE_WRITES 3 + 1 < 2 ^ 16) ∧
  (s_stale_dead.Room (s_stale_dead.rd Reg.RING_EVT_ROUTE_UNIT)) ∧
  (s_stale_dead.rd Reg.CAP_STAT_STATE 3 = Cst.dead) := by decide +kernel

theorem test_wit_lawLoad :
  (2 < 64) ∧
  (dCrx dL0 = 0) ∧
  (dZero dL0 32 64 = true) ∧
  (s_lawLoad.Calm) ∧
  ((s_lawLoad.pf (s_lawLoad.ownSq 2)).flr = false) ∧
  ((s_lawLoad.pf (s_lawLoad.ownSq 2)).bme = true) ∧
  (s_lawLoad.Ready 2 80 dL0) ∧
  (dget dL0 16 12 4 = 0) ∧
  (dget dL0 18 11 5 = 0) ∧
  (dZero dL0 20 24 = true) ∧
  (0 < dget dL0 18 0 11) ∧
  (dget dL0 18 0 11 ≤ 1024) ∧
  (dget dL0 16 0 12 + dget dL0 18 0 11 ≤ 4096) ∧
  (dget dL0 24 0 64 % 8 = 0) := by decide +kernel

theorem test_wit_lawLoad_bad :
  (2 < 64) ∧
  (dCrx dL0 = 0) ∧
  (dZero dL0 32 64 = true) ∧
  (s_lawLoad_bad.Calm) ∧
  ((s_lawLoad_bad.pf (s_lawLoad_bad.ownSq 2)).flr = false) ∧
  ((s_lawLoad_bad.pf (s_lawLoad_bad.ownSq 2)).bme = true) ∧
  (s_lawLoad_bad.Ready 2 80 dL0) ∧
  (dget dL0 16 12 4 = 0) ∧
  (dget dL0 18 11 5 = 0) ∧
  (dZero dL0 20 24 = true) ∧
  (0 < dget dL0 18 0 11) ∧
  (dget dL0 18 0 11 ≤ 1024) ∧
  (dget dL0 16 0 12 + dget dL0 18 0 11 ≤ 4096) ∧
  (dget dL0 24 0 64 % 8 = 0) := by decide +kernel

theorem test_wit_lawLoad_used :
  (2 < 64) ∧
  (dCrx dL0 = 0) ∧
  (dZero dL0 32 64 = true) ∧
  (s_lawLoad_used.Calm) ∧
  ((s_lawLoad_used.pf (s_lawLoad_used.ownSq 2)).flr = false) ∧
  ((s_lawLoad_used.pf (s_lawLoad_used.ownSq 2)).bme = true) ∧
  (s_lawLoad_used.Ready 2 80 dL0) ∧
  (dget dL0 16 12 4 = 0) ∧
  (dget dL0 18 11 5 = 0) ∧
  (dZero dL0 20 24 = true) ∧
  (0 < dget dL0 18 0 11) ∧
  (dget dL0 18 0 11 ≤ 1024) ∧
  (dget dL0 16 0 12 + dget dL0 18 0 11 ≤ 4096) ∧
  (dget dL0 24 0 64 % 8 = 0) := by decide +kernel

theorem test_wit_lawParamSet :
  (2 < 64) ∧
  (dCrx dL1 = 0) ∧
  (dZero dL1 32 64 = true) ∧
  (s_lawParamSet.Calm) ∧
  ((s_lawParamSet.pf (s_lawParamSet.ownSq 2)).flr = false) ∧
  ((s_lawParamSet.pf (s_lawParamSet.ownSq 2)).bme = true) ∧
  (s_lawParamSet.Ready 2 81 dL1) ∧
  (dget dL1 18 9 7 = 0) ∧
  (dZero dL1 20 24 = true) ∧
  (dget dL1 17 0 8 + dget dL1 18 0 9 ≤ 256) ∧
  (dget dL1 24 0 64 % 4 = 0) ∧
  (0 < dget dL1 18 0 9) ∧
  (dget dL1 16 7 1 = 0) ∧
  ((s_lawParamSet.loops (dget dL1 16 0 7)).pend = none) := by decide +kernel

theorem test_wit_ffTableLoad :
  (2 < 64) ∧
  (dCrx dL2 = 0) ∧
  (dZero dL2 32 64 = true) ∧
  (s_ffTableLoad.Calm) ∧
  ((s_ffTableLoad.pf (s_ffTableLoad.ownSq 2)).flr = false) ∧
  ((s_ffTableLoad.pf (s_ffTableLoad.ownSq 2)).bme = true) ∧
  (s_ffTableLoad.Ready 2 82 dL2) ∧
  (dget dL2 16 5 3 = 0) ∧
  (dZero dL2 17 24 = true) ∧
  (dget dL2 24 0 64 % 4 = 0) := by decide +kernel

theorem test_wit_ffTableLoad_used :
  (2 < 64) ∧
  (dCrx dL2 = 0) ∧
  (dZero dL2 32 64 = true) ∧
  (s_ffTableLoad_used.Calm) ∧
  ((s_ffTableLoad_used.pf (s_ffTableLoad_used.ownSq 2)).flr = false) ∧
  ((s_ffTableLoad_used.pf (s_ffTableLoad_used.ownSq 2)).bme = true) ∧
  (s_ffTableLoad_used.Ready 2 82 dL2) ∧
  (dget dL2 16 5 3 = 0) ∧
  (dZero dL2 17 24 = true) ∧
  (dget dL2 24 0 64 % 4 = 0) := by decide +kernel

end W16

/-! States that meet the hypotheses of the statements about hv. -/

namespace W17

def setL (l : List (Nat × Nat)) (s : State) : State := { s with live := l.foldl (fun t e => tput 0xFFFFFFFFFF t e.1 e.2) s.live }
def acD (code target arg : Nat) : Decided :=
  { idx := 9, e := { pos := 50, axis := 39, action := code, late := false, eq := 2, target := target, arg := arg, crx := 0 }, time := 0, late := false, fenced := false, s := 0, cap := 77 }
def hvRun : State := (setL [(Reg.LOOP_CFG_EN.key 9 0, 1), (Reg.HV_CFG_LOOP.key 3 0, 9), (Reg.HV_FB_FB_MV.key 3 0, 1000)] (((dev.wr Reg.HV_CEIL_V_V_CEIL_POS 900 3).wr Reg.HV_CEIL_V_V_CEIL_NEG 0 3).wr Reg.HV_CEIL_D_DUTY_CEIL 3000 3)).setHst 3 Hst.run
def s_hvStep : State := { hvRun with issued := [acD 0x20 3 (500 + 65536 * 7)] }
def s_hvStep_ceil : State := { hvRun with issued := [acD 0x20 3 (65536 - 500)] }
def s_hvStep_ceil2 : State := ({ hvRun with issued := [] }.setHv 3 { Hv.init with target := 0, ramp := 0 }).cnt Reg.HV_CNT_CEIL_HITS 3
def s_hvPwm : State := hvRun.wr Reg.LOOP_OUT_OUT 2000 9 0
def s_hvPwm_blank : State := (hvRun.setHst 3 Hst.blank).setHv 3 { Hv.init with blank := 2 }
def s_hvOver_in : State := hvRun.wr Reg.HV_CEIL_D_V_TRIP 50 3
def s_hvOver_trip : State := hvRun.wr Reg.HV_CEIL_D_V_TRIP 50 3
def s_hvOver_trip2 : State := ((hvRun.wr Reg.HV_CEIL_D_V_TRIP 50 3).wrI Reg.HV_LEVEL_FB_V 60 3).hvTrip 3 Src.hvOver
def s_hvArc : State := setL [(Reg.HV_ARC_ARC_MAX.key 3 0, 1)] hvRun
def s_hvArc_boom : State := setL [(Reg.HV_ARC_ARC_MAX.key 3 0, 0)] hvRun
def s_hvArc_boom2 : State := ((setL [(Reg.HV_ARC_ARC_MAX.key 3 0, 0)] hvRun).cnt Reg.HV_CNT_ARCS 3).setHst 3 Hst.blank |>.setHv 3 { Hv.init with arcs := [0], blank := max 1 (dev.lv Reg.HV_ARC_ARC_BLANK 3) }
def s_arcBlankEnd : State := hvRun.setHst 3 Hst.blank
def s_hvRearm : State := hvRun.setHst 3 Hst.down
def htRun : State := (setL [(Reg.LOOP_CFG_EN.key 9 0, 1), (Reg.HTR_CFG_LOOP.key 2 0, 9)] ((dev.wr Reg.HTR_CEIL_DUTY_CEIL 3000 2).wr Reg.LOOP_OUT_OUT 2000 9 0)).wr Reg.HTR_STAT_STATE Tst.run 2
def s_htrStep : State := { htRun with issued := [acD 0x21 2 (200 + 65536)] }
def s_halfCycle_unlocked : State := htRun.setHtr 2 { Htr.init with fire := true }
def s_halfCycle_unlocked2 : State := (htRun.setHtr 2 { Htr.init with fire := false }).cnt Reg.HTR_CNT_NOSYNC_HALVES 2
def s_halfCycle : State := htRun.wr Reg.MAINS_STAT_LOCKED 1
def s_halfCycle_on : State := (htRun.wr Reg.MAINS_STAT_LOCKED 1).setHtr 2 { Htr.init with acc := 3000 }
def s_gateEnd : State := { htRun with now := 500 }.setHtr 2 { Htr.init with fire := true, pulseEnd := some 400 }
def s_htrRearm : State := htRun.wr Reg.HTR_STAT_STATE Tst.down 2
def s_zcross_first : State := { dev with now := 900000000 }
def s_zcross : State := { dev with now := 900000000, mains := { dev.mains with last := some 880000000, period := 20000000, good := 0 } }.wr Reg.MAINS_CFG_WIN 10
def s_zcross_lock : State := ({ dev with now := 900000000, mains := { dev.mains with last := some 880000000, period := 20000000, good := 20 } }.wr Reg.MAINS_CFG_WIN 10).wr Reg.MAINS_CFG_ZC_DELAY 0
def s_mainsLost : State := { dev with now := 960000000, mains := { dev.mains with last := some 880000000, period := 20000000, good := 20, base := 7, baseAt := 880000000 } }.wr Reg.MAINS_STAT_LOCKED 1
def s_mainsLost2 : State := { dev with now := 960000000, mains := { dev.mains with last := none, period := 0, good := 0, lostOnce := true, base := 262151, baseAt := 960000000 } }

theorem test_wit_hvStep :
  (3 < 32) ∧
  (s_hvStep.OnTime 32 (acD 32 3 (500 + 65536 * 7))) ∧
  ((acD 32 3 (500 + 65536 * 7)).e.target = 3) ∧
  (s_hvStep.hst 3 ≠ Hst.down) ∧
  (s_hvStep.hst 3 ≠ Hst.tripped) ∧
  (clampI (signed 16 ((acD 32 3 (500 + 65536 * 7)).e.arg % 2 ^ 16)) (-(↑(s_hvStep.rd Reg.HV_CEIL_V_V_CEIL_NEG 3) : Int))
    (↑(s_hvStep.rd Reg.HV_CEIL_V_V_CEIL_POS 3) : Int) =
  signed 16 ((acD 32 3 (500 + 65536 * 7)).e.arg % 2 ^ 16)) := by decide +kernel

theorem test_wit_hvStep_ceil :
  (3 < 32) ∧
  (s_hvStep_ceil.OnTime 32 (acD 32 3 (65536 - 500))) ∧
  ((acD 32 3 (65536 - 500)).e.target = 3) ∧
  (s_hvStep_ceil.hst 3 ≠ Hst.down) ∧
  (s_hvStep_ceil.hst 3 ≠ Hst.tripped) ∧
  (clampI (signed 16 ((acD 32 3 (65536 - 500)).e.arg % 2 ^ 16))
    (-(↑(s_hvStep_ceil.rd Reg.HV_CEIL_V_V_CEIL_NEG 3) : Int)) (↑(s_hvStep_ceil.rd Reg.HV_CEIL_V_V_CEIL_POS 3) : Int) ≠
  signed 16 ((acD 32 3 (65536 - 500)).e.arg % 2 ^ 16)) ∧
  (s_hvStep_ceil.rd Reg.HV_CNT_CEIL_HITS 3 + 1 < 2 ^ 16) := by decide +kernel

theorem test_wit_hvPwm :
  (3 < 32) ∧
  (s_hvPwm.hst 3 = Hst.run) ∧
  (s_hvPwm.hvHeld = false) ∧
  ((s_hvPwm.hvs 3).soft = 0) ∧
  ((s_hvPwm.hvs 3).endAt ≤ s_hvPwm.now) := by decide +kernel

theorem test_wit_hvPwm_blank :
  (3 < 32) ∧
  (s_hvPwm_blank.hst 3 ≠ Hst.run) ∧
  (s_hvPwm_blank.hst 3 ≠ Hst.down) ∧
  ((s_hvPwm_blank.hvs 3).endAt ≤ s_hvPwm_blank.now) := by decide +kernel

theorem test_wit_hvOver_in :
  (3 < 32) ∧
  ((((↑40 : Int) - (↑(s_hvOver_in.lv Reg.HV_FB_FB_ZERO 3) : Int)) *
      (↑(s_hvOver_in.lv Reg.HV_FB_FB_MV 3) : Int)).natAbs ≤
  s_hvOver_in.rd Reg.HV_CEIL_D_V_TRIP 3 * 1000) := by decide +kernel

theorem test_wit_hvOver_trip :
  (3 < 32) ∧
  (s_hvOver_trip.rd Reg.HV_CEIL_D_V_TRIP 3 * 1000 <
  (((↑60 : Int) - (↑(s_hvOver_trip.lv Reg.HV_FB_FB_ZERO 3) : Int)) *
      (↑(s_hvOver_trip.lv Reg.HV_FB_FB_MV 3) : Int)).natAbs) ∧
  (s_hvOver_trip.hst 3 = Hst.run) := by decide +kernel

theorem test_wit_hvArc :
  (3 < 32) ∧
  (s_hvArc.hst 3 = Hst.run) ∧
  (s_hvArc.rd Reg.HV_CNT_ARCS 3 + 1 < 2 ^ 16) ∧
  ((s_hvArc.now ::
      List.filter (fun t => decide (s_hvArc.now < t + 1000000 * max 1 (s_hvArc.lv Reg.HV_ARC_ARC_WIN 3)))
        (s_hvArc.hvs 3).arcs).length ≤
  s_hvArc.lv Reg.HV_ARC_ARC_MAX 3) := by decide +kernel

theorem test_wit_hvArc_boom :
  (3 < 32) ∧
  (s_hvArc_boom.hst 3 = Hst.run) ∧
  (s_hvArc_boom.rd Reg.HV_CNT_ARCS 3 + 1 < 2 ^ 16) ∧
  (s_hvArc_boom.lv Reg.HV_ARC_ARC_MAX 3 <
  (s_hvArc_boom.now ::
      List.filter (fun t => decide (s_hvArc_boom.now < t + 1000000 * max 1 (s_hvArc_boom.lv Reg.HV_ARC_ARC_WIN 3)))
        (s_hvArc_boom.hvs 3).arcs).length) := by decide +kernel

theorem test_wit_arcBlankEnd :
  (3 < 32) ∧
  (s_arcBlankEnd.hst 3 = Hst.blank) ∧
  ((s_arcBlankEnd.hvs 3).blank = 0) := by decide +kernel

theorem test_wit_hvRearm :
  (3 < 32) ∧
  (s_hvRearm.Granted Port.pf0 (Reg.HV_CTL_REARM.addr 3 0)) ∧
  (s_hvRearm.hst 3 = Hst.down) ∧
  (s_hvRearm.abLatched = false) ∧
  ((s_hvRearm.hvs 3).offAfter = false) := by decide +kernel

theorem test_wit_htrStep :
  (2 < 4) ∧
  (s_htrStep.OnTime 33 (acD 33 2 (200 + 65536))) ∧
  ((acD 33 2 (200 + 65536)).e.target = 2) ∧
  (s_htrStep.tst 2 ≠ Tst.down) ∧
  (s_htrStep.tst 2 ≠ Tst.tripped) := by decide +kernel

theorem test_wit_halfCycle_unlocked :
  (2 < 4) ∧
  (s_halfCycle_unlocked.tst 2 = Tst.run) ∧
  (s_halfCycle_unlocked.on Reg.MAINS_STAT_LOCKED = false) ∧
  (s_halfCycle_unlocked.rd Reg.HTR_CNT_NOSYNC_HALVES 2 + 1 < 2 ^ 16) := by decide +kernel

theorem test_wit_halfCycle :
  (2 < 4) ∧
  (s_halfCycle.tst 2 = Tst.run) ∧
  (s_halfCycle.on Reg.MAINS_STAT_LOCKED = true) ∧
  ((s_halfCycle.htrs 2).half ≠ some (s_halfCycle.mainsPos / 32768)) ∧
  (s_halfCycle.lon Reg.HTR_CFG_MODE 2 = false) ∧
  (s_halfCycle.lon Reg.HTR_CFG_BURST_UNIT 2 = false) := by decide +kernel

theorem test_wit_halfCycle_on :
  (2 < 4) ∧
  (s_halfCycle_on.tst 2 = Tst.run) ∧
  (s_halfCycle_on.on Reg.MAINS_STAT_LOCKED = true) ∧
  ((s_halfCycle_on.htrs 2).half ≠ some (s_halfCycle_on.mainsPos / 32768)) ∧
  (s_halfCycle_on.lon Reg.HTR_CFG_MODE 2 = false) ∧
  (s_halfCycle_on.lon Reg.HTR_CFG_BURST_UNIT 2 = false) := by decide +kernel

theorem test_wit_gateEnd :
  (2 < 4) ∧
  ((s_gateEnd.htrs 2).pulseEnd = some 400) ∧
  (400 ≤ s_gateEnd.now) ∧
  ((s_gateEnd.htrs 2).offAt = none) := by decide +kernel

theorem test_wit_htrRearm :
  (2 < 4) ∧
  (s_htrRearm.Granted Port.pf0 (Reg.HTR_CTL_REARM.addr 2 0)) ∧
  (s_htrRearm.tst 2 = Tst.down) ∧
  (s_htrRearm.abLatched = false) := by decide +kernel

theorem test_wit_zcross_first :
  (s_zcross_first.mains.last = none) := by decide +kernel

theorem test_wit_zcross :
  (s_zcross.mains.last = some 880000000) ∧
  (s_zcross.on Reg.MAINS_STAT_LOCKED = false) ∧
  (s_zcross.mains.period ≠ 0) ∧
  (s_zcross.mains.period ≤ 2 * (s_zcross.now - 1000 * s_zcross.rd Reg.MAINS_CFG_ZC_DELAY - 880000000)) ∧
  (2 * (s_zcross.now - 1000 * s_zcross.rd Reg.MAINS_CFG_ZC_DELAY - 880000000) < 3 * s_zcross.mains.period) ∧
  (((↑(s_zcross.now - 1000 * s_zcross.rd Reg.MAINS_CFG_ZC_DELAY) : Int) - (↑880000000 : Int) -
        (↑s_zcross.mains.period : Int)).natAbs *
    256 ≤
  max 1 (s_zcross.rd Reg.MAINS_CFG_WIN) * s_zcross.mains.period) ∧
  (880000000 ≤ s_zcross.now - 1000 * s_zcross.rd Reg.MAINS_CFG_ZC_DELAY) := by decide +kernel

theorem test_wit_zcross_lock :
  (s_zcross_lock.mains.last = some 880000000) ∧
  (s_zcross_lock.on Reg.MAINS_STAT_LOCKED = false) ∧
  (s_zcross_lock.mains.period ≠ 0) ∧
  (s_zcross_lock.mains.period ≤ 2 * (s_zcross_lock.now - 1000 * s_zcross_lock.rd Reg.MAINS_CFG_ZC_DELAY - 880000000)) ∧
  (2 * (s_zcross_lock.now - 1000 * s_zcross_lock.rd Reg.MAINS_CFG_ZC_DELAY - 880000000) <
  3 * s_zcross_lock.mains.period) ∧
  (((↑(s_zcross_lock.now - 1000 * s_zcross_lock.rd Reg.MAINS_CFG_ZC_DELAY) : Int) - (↑880000000 : Int) -
        (↑s_zcross_lock.mains.period : Int)).natAbs *
    256 ≤
  max 1 (s_zcross_lock.rd Reg.MAINS_CFG_WIN) * s_zcross_lock.mains.period) ∧
  (880000000 ≤ s_zcross_lock.now - 1000 * s_zcross_lock.rd Reg.MAINS_CFG_ZC_DELAY) := by decide +kernel

theorem test_wit_mainsLost :
  (s_mainsLost.mains.last = some 880000000) ∧
  (s_mainsLost.on Reg.MAINS_STAT_LOCKED = true) ∧
  (880000000 + 2 * s_mainsLost.mains.period +
    max 1 (s_mainsLost.rd Reg.MAINS_CFG_WIN) * s_mainsLost.mains.period / 256 <
  s_mainsLost.now) := by decide +kernel

end W17

/-! States that meet the hypotheses of the statements about therm. -/

namespace W18

def s_sensorRead_off : State := { dev with now := 7 }
def s_sensorRead : State := { dev with now := 7000000 }
def s_sensorTake_hot : State := (dev.wr Reg.THM_SENS_THR_T_THR 600 3).wr Reg.THM_SENS_THR_T_SPAN 100 3
def s_sensorTake_broken : State := (dev.wr Reg.THM_SENS_STAT_BROKEN 1 9).wr Reg.THM_SENS_CFG_EN 1 9
def dtBase : State := (((dev.wr Reg.DRV_STAT_STATE Dst.run 4).setHst 3 Hst.run).wr Reg.HTR_STAT_STATE Tst.run 2).wr Reg.BL_STAT_LEN 1 5
def s_dieTrip : State := (((((dtBase.wr Reg.THM_HW_STAT_DIE_HOLD 1).wr Reg.THM_HW_STAT_DIE_TRIPPED 1).wr Reg.BL_STAT_LEN 0 5).drvTrip 4 Src.dieTrip).hvTrip 3 Src.dieTrip).htrTrip 2 Src.dieTrip
def s_dieHoldRelease : State := ((List.range 8).foldl (fun s i => s.wr Reg.THM_SENS_STAT_BROKEN 0 i) dev |>.wr Reg.THM_HW_STAT_DIE_HOLD 1 |>.wr Reg.FLT_LATCH (2 ^ Src.dieTrip)).setCause Src.dieTrip Src.noUnit true 6
def fus : State := ((dev.wr Reg.THM_FUS_CMP_HTR_MASK 4 3).wr Reg.THM_FUS_CMP_LO 100 3).wr Reg.THM_FUS_CMP_HI 3000 3
def s_htrHwtrip : State := { fus with now := 77 }.setHtr 2 { Htr.init with fire := true }
def s_htrHwtrip2 : State := ((({ fus with now := 77, fusAt := [(3, 77)] }.setHtr 2 { Htr.init with fire := true })).wr Reg.THM_HW_STAT_FUS_HOLD 8).wr Reg.THM_HW_STAT_FUS_TRIPPED 8
def s_fuserCmpRelease_out : State := { fus with now := 77 }.wr Reg.THM_HW_STAT_FUS_HOLD 8
def s_fuserCmpRelease : State := { fus with now := 1000000077, fusAt := [(3, 77)] }.wr Reg.THM_HW_STAT_FUS_HOLD 8
def s_coreDroop : State := ((({ dev with hbDroop := min 16 (max 4 (dev.rd Reg.THM_DROOP_DROOP_SIXT)) }.hbShow).wr Reg.GEN_CLK_STAT_DROOP 1).cnt Reg.THM_DROOP_CNT_EVENTS)
def s_droopRecover : State := { dev with hbDroop := 15, now := 5000 }.wr Reg.GEN_CLK_STAT_DROOP 1

theorem test_wit_sensorRead_off :
  (s_sensorRead_off.now % 1000000 ≠ 0 ∨
  s_sensorRead_off.now / 1000000 < s_sensorRead_off.thermMs) := by decide +kernel

theorem test_wit_sensorRead :
  (s_sensorRead.now % 1000000 = 0) ∧
  (s_sensorRead.thermMs ≤ s_sensorRead.now / 1000000) := by decide +kernel

theorem test_wit_sensorTake :
  (9 < 48) ∧
  (-2 ^ 15 ≤ 640) ∧
  (640 < 2 ^ 15) := by decide +kernel

theorem test_wit_sensorTake_hot :
  (3 < 48) ∧
  (-2 ^ 15 ≤ 640) ∧
  (640 < 2 ^ 15) := by decide +kernel

theorem test_wit_sensorTake_cold :
  (3 < 48) ∧
  (-2 ^ 15 ≤ -320) ∧
  (-320 < 2 ^ 15) := by decide +kernel

theorem test_wit_sensorTake_broken :
  (9 < 48) ∧
  (s_sensorTake_broken.on Reg.THM_SENS_STAT_BROKEN 9 = true) ∧
  (s_sensorTake_broken.on Reg.THM_SENS_CFG_EN 9 = true) := by decide +kernel

theorem test_wit_dieTrip :
  (6 < 8) ∧
  (dtBase.hasCause Src.dieTrip Src.noUnit 6 = false) ∧
  (dtBase.on Reg.THM_HW_STAT_DIE_HOLD = false) ∧
  (dtBase.stopWaits = []) ∧
  (∀ (m : Nat), m < 32 → dtBase.mst m = Mst.idle) ∧
  (∀ (n : Nat), n < 6 → (dtBase.stns n).expo = none ∧ dtBase.lv Reg.BL_CFG_PORT n ≠ 2) := by decide +kernel

theorem test_wit_dieHoldRelease :
  (s_dieHoldRelease.on Reg.THM_HW_STAT_DIE_HOLD = true) ∧
  (∀ (i : Nat),
  i < 8 →
    s_dieHoldRelease.on Reg.THM_SENS_STAT_BROKEN i = false ∧ s_dieHoldRelease.rdI Reg.THM_SENS_STAT_TEMP i < 1760) ∧
  (∀ (n : Nat), n < 6 → s_dieHoldRelease.on Reg.BL_STAT_LEN n = false) ∧
  (bitOf (s_dieHoldRelease.rd Reg.FLT_LATCH) Src.dieTrip = true) ∧
  (s_dieHoldRelease.Room (s_dieHoldRelease.rd Reg.RING_EVT_ROUTE_POWER)) := by decide +kernel

theorem test_wit_htrHwtrip :
  (3 < 8) ∧
  (s_htrHwtrip.rd Reg.THM_FUS_CMP_HTR_MASK 3 ≠ 0) ∧
  (¬(s_htrHwtrip.rd Reg.THM_FUS_CMP_LO 3 < 3000 ∧ 3000 < s_htrHwtrip.rd Reg.THM_FUS_CMP_HI 3)) ∧
  (bitOf (s_htrHwtrip.rd Reg.THM_HW_STAT_FUS_HOLD) 3 = false) ∧
  (10 ≤ 10) := by decide +kernel

theorem test_wit_fuserCmpRelease_out :
  (3 < 8) ∧
  (s_fuserCmpRelease_out.fusInside 3 115 = false) := by decide +kernel

theorem test_wit_fuserCmpRelease :
  (3 < 8) ∧
  (bitOf (s_fuserCmpRelease.rd Reg.THM_HW_STAT_FUS_HOLD) 3 = true) ∧
  (s_fuserCmpRelease.fusInside 3 116 = true) ∧
  (tget 0 s_fuserCmpRelease.fusAt 3 + 1000000000 ≤ s_fuserCmpRelease.now) ∧
  (s_fuserCmpRelease.Room (s_fuserCmpRelease.rd Reg.RING_EVT_ROUTE_POWER)) := by decide +kernel

theorem test_wit_coreDroop :
  (649 < min 725 (max 650 (dev.rd Reg.THM_DROOP_DROOP_MV))) ∧
  (dev.rd Reg.THM_DROOP_CNT_EVENTS + 1 < 2 ^ 32) := by decide +kernel

theorem test_wit_droopRecover :
  (s_droopRecover.on Reg.GEN_CLK_STAT_DROOP = true) ∧
  ((s_droopRecover.droopAt +
    1000 *
      if s_droopRecover.hasCause Src.coreDroop Src.noUnit = true then max 1 (s_droopRecover.rd Reg.THM_DROOP_DROOP_HOLD)
      else 1) ≤
  s_droopRecover.now) := by decide +kernel

end W18

/-! States that meet the hypotheses of the statements about seq. -/

namespace W19

def setSq_ (q : Sequ) (s : State) : State := { s with sequ := q }
def ups : State := ((dev.setSst Sst.up).wr Reg.RAIL_SCALE_SCALE 256 4)
def s_seqGo : State := (dev.wr Reg.RAIL_CFG_EN 1 4).wr Reg.RAIL_CFG_STAGE_ON 0 4
def s_railGood : State := { ups with sequ := { dev.sequ with wait := 16 } }.wr Reg.RAIL_LVL1_GOOD_MV 900 4
def s_railGood_off : State := ({ ups with sequ := { dev.sequ with wait := 16, mon := 16 } }.wr Reg.RAIL_LVL1_OFF_MV 90 4).setSst Sst.down
def s_stageDwellEnd : State := { ups with now := 80, sequ := { dev.sequ with dwellAt := some 70 } }
def s_seqbellStageAdvance : State := { ups with now := 8080, sequ := { dev.sequ with released := some 70 } }
def s_seqbellStageAdvance_last : State := { ups with now := 8080, sequ := { dev.sequ with released := some 70 } }.wr Reg.SEQ_STAT_STAGE 63
def s_seqbellStageAdvance_down : State := ({ ups with now := 8080, sequ := { dev.sequ with released := some 70 } }.wr Reg.SEQ_STAT_STAGE 63).setSst Sst.down
def s_seqbellStageAdvance_off : State := ({ ups with now := 8080, sequ := { dev.sequ with released := some 70 } }.wr Reg.SEQ_STAT_STAGE 0).setSst Sst.down
def s_railUpTimeout : State := { ups with now := 2 ^ 36, sequ := { dev.sequ with wait := 16 } }
def s_railUpTimeout2 : State := ({ ups with now := 2 ^ 36, sequ := { dev.sequ with wait := 16 } }.wr Reg.RAIL_STAT_UP_FAIL 1 4).railRec 4 0
def s_railDownTimeout : State := { ups with now := 2 ^ 36, sequ := { dev.sequ with wait := 16 } }.setSst Sst.down
def s_railDownTimeout2 : State := (({ ups with now := 2 ^ 36, sequ := { dev.sequ with wait := 16 } }.setSst Sst.down).wr Reg.RAIL_STAT_DOWN_TMO 1 4).railRec 4 1
def s_railRunFault : State := { ups with sequ := { dev.sequ with mon := 16 } }.wr Reg.RAIL_LVL2_HI_MV 900 4
def s_railRunFault2 : State := ((({ ups with sequ := { dev.sequ with mon := 16 } }.wr Reg.RAIL_LVL2_HI_MV 900 4).railSense 4 1000).wr Reg.RAIL_STAT_RUN_FAULT 1 4).railRec 4 2
def s_seqbellGlitch : State := { ups with sequ := { dev.sequ with released := some 70 } }.wr Reg.SEQ_CFG_SEQBELL_EN 1
def rn : State := { dev with now := 90 }.setSst Sst.running
def s_inputFailure_moored : State := { rn with pwr := { rn.pwr with target := some 2, step := 3 } }
def s_ebbNRelease : State := { rn with sequ := { rn.sequ with extEbb := true } }.wr Reg.SEQ_STAT_EBB 1
def s_tShutExpire : State := (({ rn with now := 2 ^ 36, sequ := { dev.sequ with shutAt := some 4 } }.setSst Sst.shutdown).wr Reg.RAIL_CFG_EN 1 4).wr Reg.RAIL_CFG_STAGE_OFF 63 4
def s_tOffMinExpire : State := ({ rn with now := 2 ^ 36, sequ := { dev.sequ with offAt := some 4 } }.setSst Sst.offWait).wr Reg.SEQ_STAT_INPUT_GOOD 1
def s_tOffMinExpire_idle : State := ({ rn with now := 2 ^ 36, sequ := { dev.sequ with idleEbb := true } }.setSst Sst.halted).wr Reg.SEQ_STAT_INPUT_GOOD 1

theorem test_wit_seqGo :
  (s_seqGo.Room (s_seqGo.rd Reg.RING_EVT_ROUTE_POWER)) ∧
  (s_seqGo.Granted Port.pf0 508424) ∧
  (tget none s_seqGo.post 507904 = none) ∧
  (s_seqGo.sst = Sst.idle) := by decide +kernel

theorem test_wit_railGood :
  (s_railGood.Room (s_railGood.rd Reg.RING_EVT_ROUTE_POWER)) ∧
  (4 < 16) ∧
  (s_railGood.sequ.wait = 2 ^ 4) ∧
  (s_railGood.sst = Sst.up) ∧
  (s_railGood.rd Reg.RAIL_LVL1_GOOD_MV 4 ≤
  (Config.rnd (↑(1000 * s_railGood.rd Reg.RAIL_SCALE_SCALE 4) : Int) 256).toNat) := by decide +kernel

theorem test_wit_railGood_off :
  (s_railGood_off.Room (s_railGood_off.rd Reg.RING_EVT_ROUTE_POWER)) ∧
  (4 < 16) ∧
  (s_railGood_off.sequ.wait = 2 ^ 4) ∧
  (s_railGood_off.sst = Sst.down) ∧
  (s_railGood_off.pwr.step = 0) ∧
  ((Config.rnd (↑(80 * s_railGood_off.rd Reg.RAIL_SCALE_SCALE 4) : Int) 256).toNat <
  s_railGood_off.rd Reg.RAIL_LVL1_OFF_MV 4) := by decide +kernel

theorem test_wit_stageDwellEnd :
  (s_stageDwellEnd.Room (s_stageDwellEnd.rd Reg.RING_EVT_ROUTE_POWER)) ∧
  (s_stageDwellEnd.sequ.dwellAt = some 70) ∧
  (70 ≤ s_stageDwellEnd.now) ∧
  (s_stageDwellEnd.sst = Sst.up) := by decide +kernel

theorem test_wit_seqbellStageAdvance :
  (s_seqbellStageAdvance.Room (s_seqbellStageAdvance.rd Reg.RING_EVT_ROUTE_POWER)) ∧
  (s_seqbellStageAdvance.sequ.released = some 70) ∧
  (70 + 4000 ≤ s_seqbellStageAdvance.now) ∧
  (s_seqbellStageAdvance.on Reg.SEQ_CFG_SEQBELL_EN = true → 4000 ≤ 5000 ∧ 70 + 5000 ≤ s_seqbellStageAdvance.now) ∧
  (s_seqbellStageAdvance.sst = Sst.up) ∧
  (s_seqbellStageAdvance.rd Reg.SEQ_STAT_STAGE < 63) := by decide +kernel

theorem test_wit_seqbellStageAdvance_last :
  (s_seqbellStageAdvance_last.Room
  (s_seqbellStageAdvance_last.rd Reg.RING_EVT_ROUTE_POWER)) ∧
  (s_seqbellStageAdvance_last.sequ.released = some 70) ∧
  (70 + 4000 ≤ s_seqbellStageAdvance_last.now) ∧
  (s_seqbellStageAdvance_last.on Reg.SEQ_CFG_SEQBELL_EN = true →
  4000 ≤ 5000 ∧ 70 + 5000 ≤ s_seqbellStageAdvance_last.now) ∧
  (s_seqbellStageAdvance_last.sst = Sst.up) ∧
  (s_seqbellStageAdvance_last.rd Reg.SEQ_STAT_STAGE = 63) := by decide +kernel

theorem test_wit_seqbellStageAdvance_down :
  (s_seqbellStageAdvance_down.Room
  (s_seqbellStageAdvance_down.rd Reg.RING_EVT_ROUTE_POWER)) ∧
  (s_seqbellStageAdvance_down.sequ.released = some 70) ∧
  (70 + 4000 ≤ s_seqbellStageAdvance_down.now) ∧
  (s_seqbellStageAdvance_down.on Reg.SEQ_CFG_SEQBELL_EN = true →
  4000 ≤ 5000 ∧ 70 + 5000 ≤ s_seqbellStageAdvance_down.now) ∧
  (s_seqbellStageAdvance_down.sst = Sst.down) ∧
  (0 < s_seqbellStageAdvance_down.rd Reg.SEQ_STAT_STAGE) ∧
  (s_seqbellStageAdvance_down.rd Reg.SEQ_STAT_STAGE < 64) := by decide +kernel

theorem test_wit_seqbellStageAdvance_off :
  (s_seqbellStageAdvance_off.Room
  (s_seqbellStageAdvance_off.rd Reg.RING_EVT_ROUTE_POWER)) ∧
  (s_seqbellStageAdvance_off.sequ.released = some 70) ∧
  (70 + 4000 ≤ s_seqbellStageAdvance_off.now) ∧
  (s_seqbellStageAdvance_off.on Reg.SEQ_CFG_SEQBELL_EN = true →
  4000 ≤ 5000 ∧ 70 + 5000 ≤ s_seqbellStageAdvance_off.now) ∧
  (s_seqbellStageAdvance_off.sst = Sst.down) ∧
  (s_seqbellStageAdvance_off.rd Reg.SEQ_STAT_STAGE = 0) := by decide +kernel

theorem test_wit_railUpTimeout :
  (s_railUpTimeout.Room (s_railUpTimeout.rd Reg.RING_EVT_ROUTE_POWER)) ∧
  (4 < 16) ∧
  (bitOf s_railUpTimeout.sequ.wait 4 = true) ∧
  (s_railUpTimeout.sequ.stageAt + 1000000 * max 1 (s_railUpTimeout.rd Reg.RAIL_TIME_T_UP 4) ≤ s_railUpTimeout.now) ∧
  (s_railUpTimeout.sst = Sst.up) := by decide +kernel

theorem test_wit_railDownTimeout :
  (s_railDownTimeout.Room (s_railDownTimeout.rd Reg.RING_EVT_ROUTE_POWER)) ∧
  (4 < 16) ∧
  (bitOf s_railDownTimeout.sequ.wait 4 = true) ∧
  (s_railDownTimeout.sequ.stageAt + 1000000 * max 1 (s_railDownTimeout.rd Reg.RAIL_TIME_T_DOWN 4) ≤
  s_railDownTimeout.now) ∧
  (s_railDownTimeout.sst = Sst.down) := by decide +kernel

theorem test_wit_railRunFault :
  (s_railRunFault.Room (s_railRunFault.rd Reg.RING_EVT_ROUTE_POWER)) ∧
  (4 < 16) ∧
  (bitOf s_railRunFault.sequ.mon 4 = true) ∧
  (s_railRunFault.rd Reg.RAIL_TIME_FLT_US 4 / 10 * 10 ≤ 20000) ∧
  ((Config.rnd (↑(1000 * s_railRunFault.rd Reg.RAIL_SCALE_SCALE 4) : Int) 256).toNat <
    s_railRunFault.rd Reg.RAIL_LVL2_LO_MV 4 ∨
  s_railRunFault.rd Reg.RAIL_LVL2_HI_MV 4 <
    (Config.rnd (↑(1000 * s_railRunFault.rd Reg.RAIL_SCALE_SCALE 4) : Int) 256).toNat) := by decide +kernel

theorem test_wit_seqbellGlitch :
  (s_seqbellGlitch.Room (s_seqbellGlitch.rd Reg.RING_EVT_ROUTE_POWER)) ∧
  (s_seqbellGlitch.on Reg.SEQ_CFG_SEQBELL_EN = true) ∧
  (s_seqbellGlitch.sequ.released.isSome = true) ∧
  (s_seqbellGlitch.rd Reg.SEQ_CNT_BELL_GLITCH + 1 < 2 ^ 16) := by decide +kernel

theorem test_wit_seqDown :
  (rn.Room (rn.rd Reg.RING_EVT_ROUTE_POWER)) ∧
  (rn.eng = none) ∧
  (rn.Granted Port.pf0 508424) ∧
  (tget none rn.post 507904 = none) ∧
  (rn.sst = Sst.running) := by decide +kernel

theorem test_wit_seqDown_idle :
  (dev.Room (dev.rd Reg.RING_EVT_ROUTE_POWER)) ∧
  (dev.eng = none) ∧
  (dev.Granted Port.pf0 508424) ∧
  (tget none dev.post 507904 = none) ∧
  (dev.sst = Sst.idle) := by decide +kernel

theorem test_wit_inputFailure :
  (rn.Room (rn.rd Reg.RING_EVT_ROUTE_POWER)) ∧
  (rn.eng = none) ∧
  (299 < min 1000 (max 300 (rn.rd Reg.SEQ_PFAIL_PFAIL_MV))) ∧
  (max 1 (rn.rd Reg.SEQ_PFAIL_PFAIL_US) ≤ 70000) ∧
  (rn.sst = Sst.running) := by decide +kernel

theorem test_wit_inputFailure_moored :
  (s_inputFailure_moored.Room (s_inputFailure_moored.rd Reg.RING_EVT_ROUTE_POWER)) ∧
  (s_inputFailure_moored.eng = none) ∧
  (299 < min 1000 (max 300 (s_inputFailure_moored.rd Reg.SEQ_PFAIL_PFAIL_MV))) ∧
  (max 1 (s_inputFailure_moored.rd Reg.SEQ_PFAIL_PFAIL_US) ≤ 70000) ∧
  (s_inputFailure_moored.sst = Sst.running) := by decide +kernel

theorem test_wit_externalEbb :
  (rn.Room (rn.rd Reg.RING_EVT_ROUTE_POWER)) ∧
  (rn.eng = none) ∧
  (2000 ≤ 2000) ∧
  (rn.sst = Sst.running) := by decide +kernel

theorem test_wit_ebbNRelease :
  (s_ebbNRelease.Room (s_ebbNRelease.rd Reg.RING_EVT_ROUTE_POWER)) ∧
  (s_ebbNRelease.eng = none) := by decide +kernel

theorem test_wit_inputGood :
  (rn.Room (rn.rd Reg.RING_EVT_ROUTE_POWER)) ∧
  (rn.eng = none) ∧
  (min 1000 (max 300 (rn.rd Reg.SEQ_PFAIL_PFAIL_MV)) + 50 < 1051) := by decide +kernel

theorem test_wit_tShutExpire :
  (s_tShutExpire.Room (s_tShutExpire.rd Reg.RING_EVT_ROUTE_POWER)) ∧
  (s_tShutExpire.eng = none) ∧
  (s_tShutExpire.sequ.shutAt = some 4) ∧
  (s_tShutExpire.sst = Sst.shutdown) ∧
  (4 + 1000000 * s_tShutExpire.tShut ≤ s_tShutExpire.now) := by decide +kernel

theorem test_wit_tOffMinExpire :
  (s_tOffMinExpire.Room (s_tOffMinExpire.rd Reg.RING_EVT_ROUTE_POWER)) ∧
  (s_tOffMinExpire.eng = none) ∧
  (s_tOffMinExpire.on Reg.SEQ_STAT_INPUT_GOOD = true) ∧
  (s_tOffMinExpire.sst = Sst.offWait) ∧
  (s_tOffMinExpire.sequ.offAt = some 4) ∧
  (4 + 1000000 * s_tOffMinExpire.rd Reg.SEQ_CFG_T_OFF_MIN ≤ s_tOffMinExpire.now) := by decide +kernel

theorem test_wit_tOffMinExpire_idle :
  (s_tOffMinExpire_idle.Room (s_tOffMinExpire_idle.rd Reg.RING_EVT_ROUTE_POWER)) ∧
  (s_tOffMinExpire_idle.eng = none) ∧
  (s_tOffMinExpire_idle.on Reg.SEQ_STAT_INPUT_GOOD = true) ∧
  (s_tOffMinExpire_idle.sst = Sst.idle ∨ s_tOffMinExpire_idle.sst = Sst.halted) ∧
  (s_tOffMinExpire_idle.sequ.idleEbb = true) ∧
  (s_tOffMinExpire_idle.sequ.goodAt + 1000000 * s_tOffMinExpire_idle.rd Reg.SEQ_CFG_T_OFF_MIN ≤
  s_tOffMinExpire_idle.now) := by decide +kernel

end W19

/-! States that meet the hypotheses of the statements about power. -/

namespace W20

def pw (t : Option Nat) (step : Nat) : State := { dev with now := 2 ^ 36, pwr := { dev.pwr with target := t, step := step } }
def chg (t : Option Nat) (step : Nat) : State := (pw t step).wr Reg.PWR_STAT_CHANGING 1
def s_pwrReq_kept : State := chg (some 1) 0
def s_pwrReq_same : State := pw none 0
def s_pwrReq_held : State := { pw none 0 with crossings := [{ crossingOf [] with crx := 7, state := 3 }] }
def s_pwrReq_exit : State := (pw none 0).wr Reg.PWR_STAT_MODE 2
def s_pwrReq_begin : State := pw none 0
def s_wake_not : State := (pw none 0).wr Reg.PWR_WAKE_FENLINK_EN 0
def s_wake : State := ((pw none 0).wr Reg.PWR_STAT_MODE 2).wr Reg.PWR_WAKE_PIN_EN 1
def s_wake_wait : State := (chg (some 2) 3).wr Reg.PWR_WAKE_FENLINK_EN 1
def s_slackDeclared : State := chg (some 1) 0
def s_slackDeclared_underway : State := chg (some 0) 0
def s_mooredStopTimeout : State := chg (some 2) 1
def s_mooredEntry_waits : State := (chg (some 2) 1).wr Reg.DRV_STAT_STATE Dst.run 4
def s_mooredEntry_off : State := { (chg (some 2) 1).wr Reg.LT_STAT_BUSY 1 15 with xfer := [(15, [⟨⟨2, 3, 0, 0⟩, 1, 0, 0, 64, 64, false, false, false, 0, 0, [], none, false, true, none, 0, none, 64⟩])] }.wr Reg.DRV_STAT_STATE Dst.held 4
def s_mooredEntry_stage : State := { (((chg (some 2) 3).wr Reg.RAIL_CFG_EN 1 4).wr Reg.RAIL_CFG_STAGE_OFF 7 4).wr Reg.RAIL_STAT_ON 1 4 with pwr := { dev.pwr with target := some 2, step := 3, stage := 64 } }
def s_mooredEntry_end : State := { (chg (some 2) 3).wr Reg.HOSTIF_LINK_RATE 0 with pwr := { dev.pwr with target := some 2, step := 3, stage := 64 } }
def s_mooredExit_stage : State := { (((chg (some 1) 4).wr Reg.RAIL_CFG_EN 1 4).wr Reg.RAIL_CFG_STAGE_ON 7 4) with pwr := { dev.pwr with target := some 1, step := 4, off := 16 } }
def s_mooredExit_wait : State := chg (some 1) 4
def s_mooredExit_not : State := { chg (some 1) 5 with now := 0, pwr := { dev.pwr with target := some 1, step := 5, readyAt := 5 } }
def s_mooredExit_end : State := chg (some 1) 5
def xf (r : Option Nat) : Xfer := ⟨⟨2, 3, 0, 0⟩, 1, 0, 0, 64, 64, false, false, false, 0, 0, [], r, false, false, none, 0, some 0, 64⟩
def s_drainTimeout_reading : State := { (pw none 0).wr Reg.LT_STAT_BUSY 1 15 with xfer := [(15, [xf (some 64)])] }
def s_drainTimeout : State := { (pw none 0).wr Reg.LT_STAT_BUSY 1 15 with xfer := [(15, [xf none])] }

theorem test_wit_pwrReq_kept :
  (s_pwrReq_kept.Granted Port.pf0 589824) ∧
  (tget none s_pwrReq_kept.post 589824 = none) ∧
  (2 < 3) ∧
  (s_pwrReq_kept.on Reg.PWR_STAT_CHANGING = true) := by decide +kernel

theorem test_wit_pwrReq_same :
  (s_pwrReq_same.Granted Port.pf0 589824) ∧
  (tget none s_pwrReq_same.post 589824 = none) ∧
  (0 < 3) ∧
  (s_pwrReq_same.on Reg.PWR_STAT_CHANGING = false) ∧
  (s_pwrReq_same.on Reg.PWR_STAT_HELD = false) ∧
  (s_pwrReq_same.rd Reg.PWR_STAT_MODE = 0) := by decide +kernel

theorem test_wit_pwrReq_held :
  (s_pwrReq_held.Granted Port.pf0 589824) ∧
  (tget none s_pwrReq_held.post 589824 = none) ∧
  (1 < 3) ∧
  (s_pwrReq_held.on Reg.PWR_STAT_CHANGING = false) ∧
  (s_pwrReq_held.on Reg.PWR_STAT_HELD = false) ∧
  (s_pwrReq_held.rd Reg.PWR_STAT_MODE = 0) ∧
  (1 ≠ 0) ∧
  (s_pwrReq_held.liveCrx.isEmpty = false) := by decide +kernel

theorem test_wit_pwrReq_exit :
  (s_pwrReq_exit.Granted Port.pf0 589824) ∧
  (tget none s_pwrReq_exit.post 589824 = none) ∧
  (1 < 3) ∧
  (s_pwrReq_exit.on Reg.PWR_STAT_CHANGING = false) ∧
  (s_pwrReq_exit.rd Reg.PWR_STAT_MODE = 2) ∧
  (1 < 2) := by decide +kernel

theorem test_wit_pwrReq_begin :
  (s_pwrReq_begin.Granted Port.pf0 589824) ∧
  (tget none s_pwrReq_begin.post 589824 = none) ∧
  (2 < 3) ∧
  (s_pwrReq_begin.on Reg.PWR_STAT_CHANGING = false) ∧
  (s_pwrReq_begin.on Reg.PWR_STAT_HELD = false) ∧
  (s_pwrReq_begin.rd Reg.PWR_STAT_MODE ≠ 2) ∧
  (s_pwrReq_begin.rd Reg.PWR_STAT_MODE ≠ 2) ∧
  (s_pwrReq_begin.liveCrx.isEmpty = true) := by decide +kernel

theorem test_wit_wake_not :
  (((3 == 1 && s_wake_not.on Reg.PWR_WAKE_DOORBELL_EN &&
        (List.range 64).any fun n => s_wake_not.on Reg.SQ_CTL_EN n) ||
      3 == 2 && s_wake_not.on Reg.PWR_WAKE_PIN_EN && decide (1000 ≤ 0) ||
    3 == 3 && s_wake_not.on Reg.PWR_WAKE_FENLINK_EN) =
  false) ∧
  (3 ≠ 4) := by decide +kernel

theorem test_wit_wake :
  (((2 == 1 && s_wake.on Reg.PWR_WAKE_DOORBELL_EN &&
        (List.range 64).any fun n => s_wake.on Reg.SQ_CTL_EN n) ||
      2 == 2 && s_wake.on Reg.PWR_WAKE_PIN_EN && decide (1000 ≤ 1000) ||
    2 == 3 && s_wake.on Reg.PWR_WAKE_FENLINK_EN) =
  true) ∧
  (s_wake.on Reg.PWR_STAT_CHANGING = false) ∧
  (s_wake.rd Reg.PWR_STAT_MODE = 2) := by decide +kernel

theorem test_wit_wake_wait :
  (((3 == 1 && s_wake_wait.on Reg.PWR_WAKE_DOORBELL_EN &&
        (List.range 64).any fun n => s_wake_wait.on Reg.SQ_CTL_EN n) ||
      3 == 2 && s_wake_wait.on Reg.PWR_WAKE_PIN_EN && decide (1000 ≤ 0) ||
    3 == 3 && s_wake_wait.on Reg.PWR_WAKE_FENLINK_EN) =
  true) ∧
  (s_wake_wait.on Reg.PWR_STAT_CHANGING = true) ∧
  (s_wake_wait.pwr.target = some 2) ∧
  (s_wake_wait.pwr.wake = none) ∧
  (s_wake_wait.pwr.ebb = false) := by decide +kernel

theorem test_wit_slackDeclared :
  (s_slackDeclared.on Reg.PWR_STAT_CHANGING = true) ∧
  (s_slackDeclared.pwr.kept = none) ∧
  (s_slackDeclared.pwr.step = 0) ∧
  (s_slackDeclared.pwr.target = some 1) ∧
  (∀ (n : Nat), n ∈ s_slackDeclared.enPlls → s_slackDeclared.on Reg.SPLL_STAT_PARKED n = true) ∧
  (s_slackDeclared.Room (s_slackDeclared.rd Reg.RING_EVT_ROUTE_POWER)) := by decide +kernel

theorem test_wit_slackDeclared_underway :
  (s_slackDeclared_underway.on Reg.PWR_STAT_CHANGING = true) ∧
  (s_slackDeclared_underway.pwr.kept = none) ∧
  (s_slackDeclared_underway.pwr.step = 0) ∧
  (s_slackDeclared_underway.pwr.target = some 0) ∧
  (∀ (n : Nat), n ∈ s_slackDeclared_underway.enPlls → s_slackDeclared_underway.on Reg.SPLL_STAT_LOCKED n = true) := by decide +kernel

theorem test_wit_mooredStopTimeout :
  (s_mooredStopTimeout.pwr.target = some 2) ∧
  (s_mooredStopTimeout.pwr.kept = none) ∧
  (s_mooredStopTimeout.pwr.step = 1) ∧
  (s_mooredStopTimeout.pwr.start + 10000000000 ≤ s_mooredStopTimeout.now) := by decide +kernel

theorem test_wit_mooredEntry_waits :
  (s_mooredEntry_waits.pwr.target = some 2) ∧
  (s_mooredEntry_waits.pwr.kept = none) ∧
  (s_mooredEntry_waits.pwr.step = 1) ∧
  (s_mooredEntry_waits.allStopped = false) := by decide +kernel

theorem test_wit_mooredEntry_off :
  (s_mooredEntry_off.pwr.target = some 2) ∧
  (s_mooredEntry_off.pwr.kept = none) ∧
  (s_mooredEntry_off.pwr.step = 1) ∧
  (s_mooredEntry_off.allStopped = true) ∧
  (s_mooredEntry_off.pwr.ebb = false) ∧
  (s_mooredEntry_off.draining Xfer.onHold = true) := by decide +kernel

theorem test_wit_mooredEntry_stage :
  (s_mooredEntry_stage.pwr.target = some 2) ∧
  (s_mooredEntry_stage.pwr.kept = none) ∧
  (s_mooredEntry_stage.pwr.step = 3) ∧
  (s_mooredEntry_stage.sequ.wait = 0) ∧
  (s_mooredEntry_stage.pwr.ebb = false) ∧
  (7 < s_mooredEntry_stage.pwr.stage) ∧
  (s_mooredEntry_stage.moorRails 7 ≠ 0) ∧
  (∀ (j : Nat), j < s_mooredEntry_stage.pwr.stage → 7 < j → s_mooredEntry_stage.moorRails j = 0) := by decide +kernel

theorem test_wit_mooredEntry_end :
  (s_mooredEntry_end.pwr.target = some 2) ∧
  (s_mooredEntry_end.pwr.kept = none) ∧
  (s_mooredEntry_end.pwr.step = 3) ∧
  (s_mooredEntry_end.sequ.wait = 0) ∧
  (s_mooredEntry_end.pwr.ebb = false) ∧
  (∀ (j : Nat), j < s_mooredEntry_end.pwr.stage → s_mooredEntry_end.moorRails j = 0) ∧
  (s_mooredEntry_end.rd Reg.HOSTIF_LINK_RATE = 0) ∧
  (s_mooredEntry_end.pwr.wake = none) ∧
  (s_mooredEntry_end.Room (s_mooredEntry_end.rd Reg.RING_EVT_ROUTE_POWER)) := by decide +kernel

theorem test_wit_mooredExit_stage :
  (s_mooredExit_stage.pwr.step = 4) ∧
  (s_mooredExit_stage.sequ.wait = 0) ∧
  (s_mooredExit_stage.sequ.dwellAt = none) ∧
  (7 < 64) ∧
  (s_mooredExit_stage.exitRails 7 ≠ 0) ∧
  (∀ (j : Nat), j < 7 → s_mooredExit_stage.exitRails j = 0) := by decide +kernel

theorem test_wit_mooredExit_wait :
  (s_mooredExit_wait.pwr.step = 4) ∧
  (s_mooredExit_wait.sequ.wait = 0) ∧
  (s_mooredExit_wait.sequ.dwellAt = none) ∧
  (∀ (k : Nat), k < 64 → s_mooredExit_wait.exitRails k = 0) := by decide +kernel

theorem test_wit_mooredExit_not :
  (s_mooredExit_not.pwr.step = 5) ∧
  (s_mooredExit_not.now < s_mooredExit_not.pwr.readyAt) := by decide +kernel

theorem test_wit_mooredExit_end :
  (s_mooredExit_end.pwr.step = 5) ∧
  (s_mooredExit_end.pwr.readyAt ≤ s_mooredExit_end.now) ∧
  (s_mooredExit_end.pwr.target = some 1) ∧
  (s_mooredExit_end.pwr.kept = none) ∧
  (s_mooredExit_end.xfer = []) ∧
  (s_mooredExit_end.tide = []) := by decide +kernel

theorem test_wit_drainTimeout_reading :
  (14 ≤ 15) ∧
  (15 < 32) ∧
  (s_drainTimeout_reading.on Reg.LT_STAT_BUSY 15 = true) ∧
  ((xf (some 64)).drainAt = some 0) ∧
  (0 + s_drainTimeout_reading.drainNs ≤ s_drainTimeout_reading.now) ∧
  (s_drainTimeout_reading.xfers 15 = [xf (some 64)]) ∧
  ((xf (some 64)).reading ≠ none) := by decide +kernel

theorem test_wit_drainTimeout :
  (14 ≤ 15) ∧
  (15 < 32) ∧
  (s_drainTimeout.on Reg.LT_STAT_BUSY 15 = true) ∧
  ((xf none).drainAt = some 0) ∧
  (0 + s_drainTimeout.drainNs ≤ s_drainTimeout.now) ∧
  (s_drainTimeout.xfers 15 = [xf none]) ∧
  ((xf none).reading = none) ∧
  ((xf none).flush = false) ∧
  ((xf none).desc = false) ∧
  ((xf none).irq = false) ∧
  (s_drainTimeout.Room (xf none).job.eq) := by decide +kernel

end W20

/-! States that meet the hypotheses of the statements about fenlink. -/

namespace W21

def setL (l : List (Nat × Nat)) (s : State) : State := { s with live := l.foldl (fun t e => tput 0xFFFFFFFFFF t e.1 e.2) s.live }
def nd : FNode := { FNode.init with id := 0x1234, en := true, ev := 3, slot := 1, phase := 0 }
def fl (gen : Nat) : State :=
  ((setL [(Reg.FL_CFG_EN.key 1 0, 1), (Reg.FL_CFG_GEN.key 1 0, gen), (Reg.FL_CFG_CYCLE_US.key 1 0, 100), (Reg.FL_CFG_REPLY_US.key 1 0, 50)] { dev with now := 70000000, fnode := [(256 + 9, nd)] }).wr
    Reg.FL_NODE_ADMITTED 1 1 9).wr Reg.FL_NODE_TALLY_TALLY 0x77 1 9
def s_fenlinkCycle : State := fl 1
def s_fenlinkPoll : State := { fl 0 with fport := [(1, { FPort.init with roundAt := some 50000000 })] }
def s_fenlinkPoll_end : State := { fl 0 with fport := [(1, { FPort.init with last := 9, roundAt := some 50000000 })] }
def rp (tally : Nat) (pay : List Byte) : List Byte := flBody 9 Fl.reply tally pay
def bad : List Byte := [1#8, 2#8]
def s_reply_bad : State := fl 1
def s_reply_bus : State := { fl 1 with fport := [(1, { FPort.init with errs := List.replicate 16 60000000 })] }
def s_reply_bus2 : State := { (fl 1).wr Reg.FL_CNT1_CRC_ERR 1 1 with fport := [(1, { FPort.init with errs := 70000000 :: List.replicate 16 60000000 })] }
def s_reply_stale : State := (fl 1).setFnode 1 9 { nd with retired := 0x66 }
def s_reply_stale2 : State := ((((fl 1).setFnode 1 9 { nd with retired := 0x66 }).wr Reg.FL_NODE_STALE_SEEN 1 1 9).cnt Reg.FL_CNT2_STALE 1).flRec 1 9 5 St.staleTally 0x66
def s_reply_unawaited : State := fl 1
def aw : State := { fl 1 with now := 70045000, fport := [(1, { FPort.init with due := [9], cycAt := some 70000000 })] }
def s_reply_other : State := aw
def s_reply : State := aw
def s_reply_overflow : State := aw
def s_reply_edge : State := aw
def s_replyMissed_not : State := fl 1
def s_replyMissed : State := { aw with now := 70056000 }
def s_replyMissed_boom : State := { aw with now := 70056000 }.wr Reg.FL_NODE_MISSES 2 1 9
def s_replyMissed_boom2 : State := { ({ aw with now := 70056000 }.wr Reg.FL_NODE_MISSES 2 1 9).cnt Reg.FL_CNT1_MISSED 1 with fport := [(1, { FPort.init with cycAt := some 70000000 })] }
def hl (tally : Nat) : List Byte := flBody 9 Fl.hello 0 (leBytes 4 0x1234 ++ leBytes 2 tally)
def hq (k : Bool) : State := { (fl 1).wr Reg.FL_NODE_ADMITTED 0 1 9 with now := 70080000, fport := [(1, { FPort.init with cycAt := some 70000000, roll := some (9, k) })] }
def s_hello : State := hq true
def s_hello_mismatch : State := (hq true).setFnode 1 9 { nd with id := 0x1235 }
def s_hello_stranger : State := hq false
def s_hello_stranger2 : State := (({ hq false with fport := [(1, { FPort.init with cycAt := some 70000000 })] }.wr Reg.FL_NODE_ID_UNIT_ID 0x1234 1 9).cnt Reg.FL_CNT2_STRANGERS 1).flRec 1 9 3 St.ok 0x1234
def dNl : Desc := BitVec.ofNat 512 (0x56 + 2 ^ 128 * (1 + 2 ^ 8 * 9 + 2 ^ 16 * 1))
def e9 (slot : Nat) : List Byte := leBytes 16 (0x1234 + 2 ^ 32 + 2 ^ 64 * slot)
def s_nodeListLoad_bad : State := withD 2 dNl (fl 1)
def s_nodeListLoad_clash : State := withD 2 dNl (fl 1)
def s_nodeListLoad : State := withD 2 dNl (fl 1)

theorem test_wit_fenlinkCycle :
  (1 < 4) ∧
  (s_fenlinkCycle.flRunning 1 = true) ∧
  ((s_fenlinkCycle.fports 1).due = []) ∧
  (∀ (a : Nat), a < 256 → s_fenlinkCycle.Sound 2 (nodeWord 1 a)) ∧
  (s_fenlinkCycle.lv Reg.FL_CFG_GEN 1 = 1) ∧
  (s_fenlinkCycle.lv Reg.FL_CFG_CYCLE_US 1 ≠ 0) ∧
  (s_fenlinkCycle.now % (1000 * s_fenlinkCycle.lv Reg.FL_CFG_CYCLE_US 1) = 0) ∧
  ((s_fenlinkCycle.fports 1).cycAt ≠ some s_fenlinkCycle.now) ∧
  ((s_fenlinkCycle.fports 1).resumeAt ≤ s_fenlinkCycle.now) := by decide +kernel

theorem test_wit_fenlinkPoll :
  (1 < 4) ∧
  (s_fenlinkPoll.flRunning 1 = true) ∧
  ((s_fenlinkPoll.fports 1).due = []) ∧
  (∀ (a : Nat), a < 256 → s_fenlinkPoll.Sound 2 (nodeWord 1 a)) ∧
  (s_fenlinkPoll.lv Reg.FL_CFG_GEN 1 = 0) ∧
  ((s_fenlinkPoll.fports 1).roll = none ∨
  (s_fenlinkPoll.fports 1).pollAt + 80000 + 1000 * s_fenlinkPoll.lv Reg.FL_CFG_REPLY_US 1 ≤ s_fenlinkPoll.now) ∧
  (List.find? (fun n => decide ((s_fenlinkPoll.fports 1).last < n.fst) && s_fenlinkPoll.flServed 1 n.fst)
    (List.filter (fun n => n.snd.en) (s_fenlinkPoll.flList 1)) =
  some (9, nd)) := by decide +kernel

theorem test_wit_fenlinkPoll_end :
  (1 < 4) ∧
  (s_fenlinkPoll_end.flRunning 1 = true) ∧
  ((s_fenlinkPoll_end.fports 1).due = []) ∧
  (∀ (a : Nat), a < 256 → s_fenlinkPoll_end.Sound 2 (nodeWord 1 a)) ∧
  (s_fenlinkPoll_end.lv Reg.FL_CFG_GEN 1 = 0) ∧
  ((s_fenlinkPoll_end.fports 1).roll = none ∨
  (s_fenlinkPoll_end.fports 1).pollAt + 80000 + 1000 * s_fenlinkPoll_end.lv Reg.FL_CFG_REPLY_US 1 ≤
    s_fenlinkPoll_end.now) ∧
  (∀ (n : Nat × FNode),
  n ∈ List.filter (fun n => n.snd.en) (s_fenlinkPoll_end.flList 1) →
    n.fst ≤ (s_fenlinkPoll_end.fports 1).last ∨ s_fenlinkPoll_end.flServed 1 n.fst = false) := by decide +kernel

theorem test_wit_reply_bad :
  (1 < 4) ∧
  (s_reply_bad.flRunning 1 = true) ∧
  (s_reply_bad.rd Reg.FL_CNT1_CRC_ERR 1 + 1 < 2 ^ 16) ∧
  (flParse bad = none) ∧
  ((List.filter (fun t => decide (s_reply_bad.now < t + 1000000000)) (s_reply_bad.fports 1).errs).length < 16) := by decide +kernel

theorem test_wit_reply_bus :
  (1 < 4) ∧
  (s_reply_bus.flRunning 1 = true) ∧
  (s_reply_bus.rd Reg.FL_CNT1_CRC_ERR 1 + 1 < 2 ^ 16) ∧
  (flParse bad = none) ∧
  (16 ≤ (List.filter (fun t => decide (s_reply_bus.now < t + 1000000000)) (s_reply_bus.fports 1).errs).length) := by decide +kernel

theorem test_wit_reply_stale :
  (1 < 4) ∧
  (s_reply_stale.flRunning 1 = true) ∧
  (flParse (rp 102 [5#8, 0#8, 0#8]) = some (9, Fl.reply, 102, [5#8, 0#8, 0#8])) ∧
  (0 < 9) ∧
  ([5#8, 0#8, 0#8].length = 3 + 4 * byteAt [5#8, 0#8, 0#8] 2) ∧
  (byteAt [5#8, 0#8, 0#8] 2 ≤ 6) ∧
  (s_reply_stale.lv Reg.FL_CFG_GEN 1 = 1) ∧
  (102 ≠ 0) ∧
  (102 = (s_reply_stale.fnodes 1 9).retired) ∧
  (102 ≠ s_reply_stale.rd Reg.FL_NODE_TALLY_TALLY 1 9) ∧
  (s_reply_stale.Room (s_reply_stale.rd Reg.RING_EVT_ROUTE_FENLINK)) ∧
  (s_reply_stale.rd Reg.FL_CNT2_STALE 1 + 1 < 2 ^ 16) := by decide +kernel

theorem test_wit_reply_unawaited :
  (1 < 4) ∧
  (s_reply_unawaited.flRunning 1 = true) ∧
  (flParse (rp 119 [5#8, 0#8, 0#8]) = some (9, Fl.reply, 119, [5#8, 0#8, 0#8])) ∧
  (0 < 9) ∧
  ([5#8, 0#8, 0#8].length = 3 + 4 * byteAt [5#8, 0#8, 0#8] 2) ∧
  (byteAt [5#8, 0#8, 0#8] 2 ≤ 6) ∧
  (s_reply_unawaited.lv Reg.FL_CFG_GEN 1 = 1) ∧
  ((s_reply_unawaited.fports 1).due.contains 9 = false) ∧
  (119 ≠ (s_reply_unawaited.fnodes 1 9).retired) ∧
  (s_reply_unawaited.rd Reg.FL_CNT1_CRC_ERR 1 + 1 < 2 ^ 16) ∧
  ((List.filter (fun t => decide (s_reply_unawaited.now < t + 1000000000)) (s_reply_unawaited.fports 1).errs).length <
  16) := by decide +kernel

theorem test_wit_reply_other :
  (1 < 4) ∧
  (s_reply_other.flRunning 1 = true) ∧
  (flParse (rp 120 [5#8, 0#8, 0#8]) = some (9, Fl.reply, 120, [5#8, 0#8, 0#8])) ∧
  (0 < 9) ∧
  ([5#8, 0#8, 0#8].length = 3 + 4 * byteAt [5#8, 0#8, 0#8] 2) ∧
  (byteAt [5#8, 0#8, 0#8] 2 ≤ 6) ∧
  (s_reply_other.lv Reg.FL_CFG_GEN 1 = 1) ∧
  ((s_reply_other.fports 1).due.contains 9 = true) ∧
  (s_reply_other.flInSlot 1 (s_reply_other.fnodes 1 9).slot = true) ∧
  (120 ≠ (s_reply_other.fnodes 1 9).retired) ∧
  (120 ≠ s_reply_other.rd Reg.FL_NODE_TALLY_TALLY 1 9) := by decide +kernel

theorem test_wit_reply :
  (1 < 4) ∧
  (s_reply.flRunning 1 = true) ∧
  (flParse (rp 119 [5#8, 0#8, 0#8]) = some (9, Fl.reply, 119, [5#8, 0#8, 0#8])) ∧
  (0 < 9) ∧
  ([5#8, 0#8, 0#8].length = 3 + 4 * byteAt [5#8, 0#8, 0#8] 2) ∧
  (byteAt [5#8, 0#8, 0#8] 2 ≤ 6) ∧
  (s_reply.lv Reg.FL_CFG_GEN 1 = 1) ∧
  ((s_reply.fports 1).due.contains 9 = true) ∧
  (s_reply.flInSlot 1 (s_reply.fnodes 1 9).slot = true) ∧
  (119 = s_reply.rd Reg.FL_NODE_TALLY_TALLY 1 9) ∧
  ((s_reply.fports 1).mode = 0) ∧
  (s_reply.flWait = []) ∧
  (s_reply.crossings = []) ∧
  (s_reply.marks = []) ∧
  (∀ (k : Nat), k < 32 → s_reply.lon Reg.IO_SHEET_EN k = false) ∧
  (byteAt [5#8, 0#8, 0#8] 2 = 0) ∧
  (bitOf (byteAt [5#8, 0#8, 0#8] 1) 1 = false) := by decide +kernel

theorem test_wit_reply_overflow :
  (1 < 4) ∧
  (s_reply_overflow.flRunning 1 = true) ∧
  (flParse (rp 119 [5#8, 2#8, 0#8]) = some (9, Fl.reply, 119, [5#8, 2#8, 0#8])) ∧
  (0 < 9) ∧
  ([5#8, 2#8, 0#8].length = 3 + 4 * byteAt [5#8, 2#8, 0#8] 2) ∧
  (byteAt [5#8, 2#8, 0#8] 2 ≤ 6) ∧
  (s_reply_overflow.lv Reg.FL_CFG_GEN 1 = 1) ∧
  ((s_reply_overflow.fports 1).due.contains 9 = true) ∧
  (s_reply_overflow.flInSlot 1 (s_reply_overflow.fnodes 1 9).slot = true) ∧
  (119 = s_reply_overflow.rd Reg.FL_NODE_TALLY_TALLY 1 9) ∧
  ((s_reply_overflow.fports 1).mode = 0) ∧
  (s_reply_overflow.flWait = []) ∧
  (s_reply_overflow.crossings = []) ∧
  (s_reply_overflow.marks = []) ∧
  (∀ (k : Nat), k < 32 → s_reply_overflow.lon Reg.IO_SHEET_EN k = false) ∧
  (byteAt [5#8, 2#8, 0#8] 2 = 0) ∧
  (bitOf (byteAt [5#8, 2#8, 0#8] 1) 1 = true) ∧
  (s_reply_overflow.Room (s_reply_overflow.rd Reg.RING_EVT_ROUTE_FENLINK)) ∧
  (s_reply_overflow.rd Reg.FL_CNT3_EDGE_OVF 1 + 1 < 2 ^ 16) := by decide +kernel

theorem test_wit_reply_edge :
  (1 < 4) ∧
  (s_reply_edge.flRunning 1 = true) ∧
  (flParse (rp 119 [5#8, 0#8, 1#8, 25#8, 0#8, 0#8, 0#8]) =
  some (9, Fl.reply, 119, [5#8, 0#8, 1#8, 25#8, 0#8, 0#8, 0#8])) ∧
  (0 < 9) ∧
  ([5#8, 0#8, 1#8, 25#8, 0#8, 0#8, 0#8].length = 3 + 4 * byteAt [5#8, 0#8, 1#8, 25#8, 0#8, 0#8, 0#8] 2) ∧
  (byteAt [5#8, 0#8, 1#8, 25#8, 0#8, 0#8, 0#8] 2 ≤ 6) ∧
  (s_reply_edge.lv Reg.FL_CFG_GEN 1 = 1) ∧
  ((s_reply_edge.fports 1).due.contains 9 = true) ∧
  (s_reply_edge.flInSlot 1 (s_reply_edge.fnodes 1 9).slot = true) ∧
  (119 = s_reply_edge.rd Reg.FL_NODE_TALLY_TALLY 1 9) ∧
  ((s_reply_edge.fports 1).mode = 0) ∧
  (s_reply_edge.flWait = []) ∧
  (s_reply_edge.crossings = []) ∧
  (s_reply_edge.marks = []) ∧
  (∀ (k : Nat), k < 32 → s_reply_edge.lon Reg.IO_SHEET_EN k = false) ∧
  (flRecords [5#8, 0#8, 1#8, 25#8, 0#8, 0#8, 0#8] = [(1, true, 1)]) ∧
  (bitOf (s_reply_edge.fnodes 1 9).ev 1 = true) ∧
  (bitOf (s_reply_edge.fnodes 1 9).dir 1 = false) ∧
  (bitOf (byteAt [5#8, 0#8, 1#8, 25#8, 0#8, 0#8, 0#8] 1) 1 = false) ∧
  (s_reply_edge.Room (s_reply_edge.rd Reg.RING_EVT_ROUTE_FENLINK)) := by decide +kernel

theorem test_wit_replyMissed_not :
  (1 < 4) ∧
  (0 < 9) ∧
  (9 < 256) ∧
  ((s_replyMissed_not.fports 1).due.contains 9 = false) := by decide +kernel

theorem test_wit_replyMissed :
  (1 < 4) ∧
  (0 < 9) ∧
  (9 < 256) ∧
  ((s_replyMissed.fports 1).due.contains 9 = true) ∧
  (if s_replyMissed.lv Reg.FL_CFG_GEN 1 = 1 ∧ (s_replyMissed.fports 1).mode = 0 then
  (s_replyMissed.fports 1).cycAt.getD 0 + 40000 + 16000 * (s_replyMissed.fnodes 1 9).slot ≤ s_replyMissed.now
else (s_replyMissed.fports 1).pollAt + 80000 + 1000 * s_replyMissed.lv Reg.FL_CFG_REPLY_US 1 ≤ s_replyMissed.now) ∧
  (s_replyMissed.rd Reg.FL_CNT1_MISSED 1 + 1 < 2 ^ 16) ∧
  (s_replyMissed.rd Reg.FL_NODE_MISSES 1 9 < 2) := by decide +kernel

theorem test_wit_replyMissed_boom :
  (1 < 4) ∧
  (0 < 9) ∧
  (9 < 256) ∧
  ((s_replyMissed_boom.fports 1).due.contains 9 = true) ∧
  (if s_replyMissed_boom.lv Reg.FL_CFG_GEN 1 = 1 ∧ (s_replyMissed_boom.fports 1).mode = 0 then
  (s_replyMissed_boom.fports 1).cycAt.getD 0 + 40000 + 16000 * (s_replyMissed_boom.fnodes 1 9).slot ≤
    s_replyMissed_boom.now
else
  (s_replyMissed_boom.fports 1).pollAt + 80000 + 1000 * s_replyMissed_boom.lv Reg.FL_CFG_REPLY_US 1 ≤
    s_replyMissed_boom.now) ∧
  (s_replyMissed_boom.rd Reg.FL_CNT1_MISSED 1 + 1 < 2 ^ 16) ∧
  (2 ≤ s_replyMissed_boom.rd Reg.FL_NODE_MISSES 1 9) := by decide +kernel

theorem test_wit_hello :
  (1 < 4) ∧
  (0 < 9) ∧
  (9 < 256) ∧
  (s_hello.flRunning 1 = true) ∧
  (s_hello.Room (s_hello.rd Reg.RING_EVT_ROUTE_FENLINK)) ∧
  (flParse (hl 1) = some (9, Fl.hello, 0, leBytes 4 4660 ++ leBytes 2 1)) ∧
  ((leBytes 4 4660 ++ leBytes 2 1).length = 6) ∧
  (s_hello.flInSlot 1 (s_hello.flSlots 1 - 1) = true) ∧
  ((s_hello.fports 1).roll = some (9, true)) ∧
  (bytesAt (leBytes 4 4660 ++ leBytes 2 1) 0 4 = (s_hello.fnodes 1 9).id) ∧
  (bytesAt (leBytes 4 4660 ++ leBytes 2 1) 4 2 = s_hello.rd Reg.FL_TALLY_NEXT 1) ∧
  (s_hello.rd Reg.FL_TALLY_NEXT 1 < 2 ^ 16) ∧
  (s_hello.rd Reg.FL_STAT_ADMITTED 1 + 1 < 2 ^ 8) := by decide +kernel

theorem test_wit_hello_mismatch :
  (1 < 4) ∧
  (0 < 9) ∧
  (9 < 256) ∧
  (s_hello_mismatch.flRunning 1 = true) ∧
  (s_hello_mismatch.Room (s_hello_mismatch.rd Reg.RING_EVT_ROUTE_FENLINK)) ∧
  (flParse (hl 1) = some (9, Fl.hello, 0, leBytes 4 4660 ++ leBytes 2 1)) ∧
  ((leBytes 4 4660 ++ leBytes 2 1).length = 6) ∧
  (s_hello_mismatch.flInSlot 1 (s_hello_mismatch.flSlots 1 - 1) = true) ∧
  ((s_hello_mismatch.fports 1).roll = some (9, true)) ∧
  (bytesAt (leBytes 4 4660 ++ leBytes 2 1) 0 4 ≠ (s_hello_mismatch.fnodes 1 9).id) ∧
  ((s_hello_mismatch.fnodes 1 9).wrong.contains (bytesAt (leBytes 4 4660 ++ leBytes 2 1) 0 4) = false) := by decide +kernel

theorem test_wit_hello_stranger :
  (1 < 4) ∧
  (0 < 9) ∧
  (9 < 256) ∧
  (s_hello_stranger.flRunning 1 = true) ∧
  (s_hello_stranger.Room (s_hello_stranger.rd Reg.RING_EVT_ROUTE_FENLINK)) ∧
  (flParse (hl 1) = some (9, Fl.hello, 0, leBytes 4 4660 ++ leBytes 2 1)) ∧
  ((leBytes 4 4660 ++ leBytes 2 1).length = 6) ∧
  (s_hello_stranger.flInSlot 1 (s_hello_stranger.flSlots 1 - 1) = true) ∧
  ((s_hello_stranger.fports 1).roll = some (9, false)) ∧
  (s_hello_stranger.rd Reg.FL_CNT2_STRANGERS 1 + 1 < 2 ^ 16) := by decide +kernel

theorem test_wit_nodeListLoad_bad :
  (2 < 64) ∧
  (s_nodeListLoad_bad.Ready 2 86 dNl) ∧
  (dget dNl 16 2 6 = 0) ∧
  (dZero dNl 19 24 = true) ∧
  (dZero dNl 32 64 = true) ∧
  (dCrx dNl = 0) ∧
  (dget dNl 17 0 8 ≠ 0) ∧
  (dget dNl 17 0 8 + dget dNl 18 0 8 ≤ 256) ∧
  (0 < dget dNl 18 0 8) ∧
  (dget dNl 24 0 3 = 0) ∧
  (s_nodeListLoad_bad.Calm) ∧
  ((s_nodeListLoad_bad.pf (s_nodeListLoad_bad.ownSq 2)).flr = false) ∧
  ((s_nodeListLoad_bad.pf (s_nodeListLoad_bad.ownSq 2)).bme = true) ∧
  (∀ (c : Crossing), c ∈ s_nodeListLoad_bad.crossings → c.state ≠ 2 ∧ c.state ≠ 3) ∧
  (∃ v, v ∈ entries 16 (dget dNl 18 0 8) (leBytes 16 (2 ^ 33)) ∧ nodeOf FNode.init v = none) := by decide +kernel

theorem test_wit_nodeListLoad_clash :
  (2 < 64) ∧
  (s_nodeListLoad_clash.Ready 2 86 dNl) ∧
  (dget dNl 16 2 6 = 0) ∧
  (dZero dNl 19 24 = true) ∧
  (dZero dNl 32 64 = true) ∧
  (dCrx dNl = 0) ∧
  (dget dNl 17 0 8 ≠ 0) ∧
  (dget dNl 17 0 8 + dget dNl 18 0 8 ≤ 256) ∧
  (0 < dget dNl 18 0 8) ∧
  (dget dNl 24 0 3 = 0) ∧
  (s_nodeListLoad_clash.Calm) ∧
  ((s_nodeListLoad_clash.pf (s_nodeListLoad_clash.ownSq 2)).flr = false) ∧
  ((s_nodeListLoad_clash.pf (s_nodeListLoad_clash.ownSq 2)).bme = true) ∧
  (∀ (c : Crossing), c ∈ s_nodeListLoad_clash.crossings → c.state ≠ 2 ∧ c.state ≠ 3) ∧
  (∀ (v : Nat), v ∈ entries 16 (dget dNl 18 0 8) (e9 50) → nodeOf FNode.init v ≠ none) ∧
  (listClash (s_nodeListLoad_clash.lv Reg.FL_CFG_GEN (dget dNl 16 0 2)) (s_nodeListLoad_clash.flSlots (dget dNl 16 0 2))
    (List.filter (fun x => x.en)
      (List.map
        (fun a =>
          if dget dNl 17 0 8 ≤ a ∧ a < dget dNl 17 0 8 + dget dNl 18 0 8 then
            (nodeOf (s_nodeListLoad_clash.fnodes (dget dNl 16 0 2) a)
                  ((entries 16 (dget dNl 18 0 8) (e9 50)).getD (a - dget dNl 17 0 8) 0)).getD
              (s_nodeListLoad_clash.fnodes (dget dNl 16 0 2) a)
          else s_nodeListLoad_clash.fnodes (dget dNl 16 0 2) a)
        (List.range 256))) =
  true) := by decide +kernel

theorem test_wit_nodeListLoad :
  (2 < 64) ∧
  (s_nodeListLoad.Ready 2 86 dNl) ∧
  (dget dNl 16 2 6 = 0) ∧
  (dZero dNl 19 24 = true) ∧
  (dZero dNl 32 64 = true) ∧
  (dCrx dNl = 0) ∧
  (dget dNl 17 0 8 ≠ 0) ∧
  (dget dNl 17 0 8 + dget dNl 18 0 8 ≤ 256) ∧
  (0 < dget dNl 18 0 8) ∧
  (dget dNl 24 0 3 = 0) ∧
  (s_nodeListLoad.Calm) ∧
  ((s_nodeListLoad.pf (s_nodeListLoad.ownSq 2)).flr = false) ∧
  ((s_nodeListLoad.pf (s_nodeListLoad.ownSq 2)).bme = true) ∧
  (∀ (c : Crossing), c ∈ s_nodeListLoad.crossings → c.state ≠ 2 ∧ c.state ≠ 3) ∧
  (∀ (v : Nat), v ∈ entries 16 (dget dNl 18 0 8) (e9 2) → nodeOf FNode.init v ≠ none) ∧
  (listClash (s_nodeListLoad.lv Reg.FL_CFG_GEN (dget dNl 16 0 2)) (s_nodeListLoad.flSlots (dget dNl 16 0 2))
    (List.filter (fun x => x.en)
      (List.map
        (fun a =>
          if dget dNl 17 0 8 ≤ a ∧ a < dget dNl 17 0 8 + dget dNl 18 0 8 then
            (nodeOf (s_nodeListLoad.fnodes (dget dNl 16 0 2) a)
                  ((entries 16 (dget dNl 18 0 8) (e9 2)).getD (a - dget dNl 17 0 8) 0)).getD
              (s_nodeListLoad.fnodes (dget dNl 16 0 2) a)
          else s_nodeListLoad.fnodes (dget dNl 16 0 2) a)
        (List.range 256))) =
  false) ∧
  (∀ (a : Nat), a < 256 → s_nodeListLoad.Sound 2 (nodeWord (dget dNl 16 0 2) a)) := by decide +kernel

end W21

/-! States that meet the hypotheses of the statements about lighter. -/

namespace W22

def setL (l : List (Nat × Nat)) (s : State) : State := { s with live := l.foldl (fun t e => tput 0xFFFFFFFFFF t e.1 e.2) s.live }
def cp (lt src dst len : Nat) : Desc := BitVec.ofNat 512 (0xA0 + 2 ^ 128 * (lt + 2 ^ 8 * 4) + 2 ^ 192 * src + 2 ^ 256 * dst + 2 ^ 320 * len + 2 ^ 352 * 0xABCD)
def s_lighterCopy_bad : State := withD 3 (cp 13 0 0 64) dev
def cr5 : Crossing := { crossingOf [] with crx := 7, state := 3, stations := 32, parts := [partOf (BitVec.ofNat 512 (0x02 + 2 ^ 128 * (5 + 2 ^ 3 + 2 ^ 4) + 2 ^ 160 * 1000 + 2 ^ 192 * 10 + 2 ^ 224 * 4096 + 2 ^ 256 * 0x10000 + 2 ^ 320 * 0x90000))] }
def s_lighterCopy_share : State := setL [(Reg.STN_HOLD_CFG_HOLD_BASE.key 5 0, 0), (Reg.STN_HOLD_CFG_HOLD_SIZE.key 5 0, 8)] { withD 3 (cp 15 0 64 64) dev with crossings := [cr5] }
def s_lighterCopy_none : State := withD 3 (cp 15 0 64 0) dev
def xf (r : Option Nat) (dn : Nat) (fl : Bool) : Xfer := { xferOf ⟨3, 4, 0, cp 15 0x1000 64 128⟩ with reading := r, done := dn, flush := fl }
def s_lighterCopy_wait : State := { (withD 3 (cp 15 0 64 64) dev).wr Reg.LT_STAT_BUSY 1 15 with xfer := [(15, [xf (some 64) 0 false])] }
def s_lighterCopy : State := withD 3 (cp 15 0 64 8192) dev
def b64 : List Byte := List.replicate 32 1#8 ++ List.replicate 32 7#8
def s_lighterReadComplete_last : State := { dev.wr Reg.LT_STAT_BUSY 1 15 with xfer := [(15, [xf (some 64) 64 false])] }
def s_lighterReadComplete : State := { dev.wr Reg.LT_STAT_BUSY 1 15 with xfer := [(15, [xf (some 64) 0 false])] }
def s_lighterTransferComplete : State := { dev.wr Reg.LT_STAT_BUSY 1 15 with xfer := [(15, [xf none 128 true])] }
def s_lighterReadFail : State := { dev.wr Reg.LT_STAT_BUSY 1 15 with xfer := [(15, [xf (some 64) 0 false])] }

theorem test_wit_lighterCopy_bad :
  (3 < 64) ∧
  (s_lighterCopy_bad.Ready 3 160 (cp 13 0 0 64)) ∧
  (xferOk (cp 13 0 0 64) (xferOf (s_lighterCopy_bad.jobOf 3 (cp 13 0 0 64))) = false) ∧
  (s_lighterCopy_bad.Room (s_lighterCopy_bad.rd Reg.SQ_CFG_EQ 3)) := by decide +kernel

theorem test_wit_lighterCopy_share :
  (3 < 64) ∧
  (s_lighterCopy_share.Ready 3 160 (cp 15 0 64 64)) ∧
  (xferOk (cp 15 0 64 64) (xferOf (s_lighterCopy_share.jobOf 3 (cp 15 0 64 64))) = true) ∧
  (s_lighterCopy_share.shareHit (xferOf (s_lighterCopy_share.jobOf 3 (cp 15 0 64 64))) = true) ∧
  (s_lighterCopy_share.Room (s_lighterCopy_share.rd Reg.SQ_CFG_EQ 3)) := by decide +kernel

theorem test_wit_lighterCopy_none :
  (3 < 64) ∧
  (s_lighterCopy_none.Ready 3 160 (cp 15 0 64 0)) ∧
  (xferOk (cp 15 0 64 0) (xferOf (s_lighterCopy_none.jobOf 3 (cp 15 0 64 0))) = true) ∧
  (s_lighterCopy_none.shareHit (xferOf (s_lighterCopy_none.jobOf 3 (cp 15 0 64 0))) = false) ∧
  ((xferOf (s_lighterCopy_none.jobOf 3 (cp 15 0 64 0))).len = 0) ∧
  ((xferOf (s_lighterCopy_none.jobOf 3 (cp 15 0 64 0))).append = false) ∧
  ((xferOf (s_lighterCopy_none.jobOf 3 (cp 15 0 64 0))).irq = false) ∧
  (s_lighterCopy_none.Room (s_lighterCopy_none.rd Reg.SQ_CFG_EQ 3)) := by decide +kernel

theorem test_wit_lighterCopy_wait :
  (3 < 64) ∧
  (s_lighterCopy_wait.Ready 3 160 (cp 15 0 64 64)) ∧
  (xferOk (cp 15 0 64 64) (xferOf (s_lighterCopy_wait.jobOf 3 (cp 15 0 64 64))) = true) ∧
  (s_lighterCopy_wait.shareHit (xferOf (s_lighterCopy_wait.jobOf 3 (cp 15 0 64 64))) = false) ∧
  (0 < (xferOf (s_lighterCopy_wait.jobOf 3 (cp 15 0 64 64))).len) ∧
  (s_lighterCopy_wait.on Reg.LT_STAT_BUSY (dget (cp 15 0 64 64) 16 0 5) = true) := by decide +kernel

theorem test_wit_lighterCopy :
  (3 < 64) ∧
  (s_lighterCopy.Ready 3 160 (cp 15 0 64 8192)) ∧
  (xferOk (cp 15 0 64 8192) (xferOf (s_lighterCopy.jobOf 3 (cp 15 0 64 8192))) = true) ∧
  (s_lighterCopy.shareHit (xferOf (s_lighterCopy.jobOf 3 (cp 15 0 64 8192))) = false) ∧
  (0 < (xferOf (s_lighterCopy.jobOf 3 (cp 15 0 64 8192))).len) ∧
  (s_lighterCopy.on Reg.LT_STAT_BUSY (dget (cp 15 0 64 8192) 16 0 5) = false) ∧
  (s_lighterCopy.xfers (dget (cp 15 0 64 8192) 16 0 5) = []) ∧
  ((xferOf (s_lighterCopy.jobOf 3 (cp 15 0 64 8192))).srcSp = 0) ∧
  ((s_lighterCopy.pf (s_lighterCopy.ownSq 3)).bme = true) ∧
  ((s_lighterCopy.pf (s_lighterCopy.ownSq 3)).flr = false) ∧
  ((xferOf (s_lighterCopy.jobOf 3 (cp 15 0 64 8192))).dstSp = 1 → s_lighterCopy.holdGated = false) ∧
  (s_lighterCopy.readsOut < s_lighterCopy.tagLimit (s_lighterCopy.ownSq 3)) := by decide +kernel

theorem test_wit_lighterReadComplete_last :
  (14 ≤ 15) ∧
  (15 < 32) ∧
  (s_lighterReadComplete_last.on Reg.LT_STAT_BUSY 15 = true) ∧
  ((xf (some 64) 64 false).desc = false) ∧
  ((xf (some 64) 64 false).append = false) ∧
  ((xf (some 64) 64 false).irq = false) ∧
  ((xf (some 64) 64 false).fail = none) ∧
  (s_lighterReadComplete_last.xfers 15 = [xf (some 64) 64 false]) ∧
  ((xf (some 64) 64 false).reading = some b64.length) ∧
  (0 < b64.length) ∧
  (b64.length % 32 = 0) ∧
  ((xf (some 64) 64 false).flush = false) ∧
  ((xf (some 64) 64 false).srcSp = 0) ∧
  ((xf (some 64) 64 false).dstSp = 1) ∧
  (s_lighterReadComplete_last.Calm) ∧
  (s_lighterReadComplete_last.rd Reg.LT_BYTES 15 + b64.length < 2 ^ 64) ∧
  ((xf (some 64) 64 false).done + b64.length = (xf (some 64) 64 false).len) := by decide +kernel

theorem test_wit_lighterReadComplete :
  (14 ≤ 15) ∧
  (15 < 32) ∧
  (s_lighterReadComplete.on Reg.LT_STAT_BUSY 15 = true) ∧
  ((xf (some 64) 0 false).desc = false) ∧
  ((xf (some 64) 0 false).append = false) ∧
  ((xf (some 64) 0 false).irq = false) ∧
  ((xf (some 64) 0 false).fail = none) ∧
  (s_lighterReadComplete.xfers 15 = [xf (some 64) 0 false]) ∧
  ((xf (some 64) 0 false).reading = some b64.length) ∧
  (0 < b64.length) ∧
  (b64.length % 32 = 0) ∧
  ((xf (some 64) 0 false).flush = false) ∧
  ((xf (some 64) 0 false).srcSp = 0) ∧
  ((xf (some 64) 0 false).dstSp = 1) ∧
  (s_lighterReadComplete.Calm) ∧
  (s_lighterReadComplete.rd Reg.LT_BYTES 15 + b64.length < 2 ^ 64) ∧
  ((xf (some 64) 0 false).done + b64.length < (xf (some 64) 0 false).len) ∧
  ((s_lighterReadComplete.pf (xf (some 64) 0 false).job.pf).bme = true) ∧
  ((s_lighterReadComplete.putXfer 15
      { job := (xf (some 64) 0 false).job, srcSp := (xf (some 64) 0 false).srcSp, dstSp := (xf (some 64) 0 false).dstSp,
        src := (xf (some 64) 0 false).src, dst := (xf (some 64) 0 false).dst, len := (xf (some 64) 0 false).len,
        append := (xf (some 64) 0 false).append, irq := (xf (some 64) 0 false).irq, desc := (xf (some 64) 0 false).desc,
        done := (xf (some 64) 0 false).done, crc := (xf (some 64) 0 false).crc, got := (xf (some 64) 0 false).got,
        reading := none, appended := (xf (some 64) 0 false).appended, flush := (xf (some 64) 0 false).flush,
        fail := (xf (some 64) 0 false).fail, issuedAt := (xf (some 64) 0 false).issuedAt,
        drainAt := (xf (some 64) 0 false).drainAt, blk := (xf (some 64) 0 false).blk : Xfer }).readsOut <
  s_lighterReadComplete.tagLimit (xf (some 64) 0 false).job.pf) := by decide +kernel

theorem test_wit_lighterTransferComplete :
  (14 ≤ 15) ∧
  (15 < 32) ∧
  (s_lighterTransferComplete.on Reg.LT_STAT_BUSY 15 = true) ∧
  ((xf none 128 true).desc = false) ∧
  ((xf none 128 true).append = false) ∧
  ((xf none 128 true).irq = false) ∧
  ((xf none 128 true).fail = none) ∧
  (s_lighterTransferComplete.xfers 15 = [xf none 128 true]) ∧
  (s_lighterTransferComplete.Room (xf none 128 true).job.eq) ∧
  ((xf none 128 true).flush = true) := by decide +kernel

theorem test_wit_lighterReadFail :
  (14 ≤ 15) ∧
  (15 < 32) ∧
  (s_lighterReadFail.on Reg.LT_STAT_BUSY 15 = true) ∧
  ((xf (some 64) 0 false).desc = false) ∧
  ((xf (some 64) 0 false).append = false) ∧
  ((xf (some 64) 0 false).irq = false) ∧
  ((xf (some 64) 0 false).fail = none) ∧
  (s_lighterReadFail.xfers 15 = [xf (some 64) 0 false]) ∧
  (s_lighterReadFail.Room (xf (some 64) 0 false).job.eq) ∧
  ((xf (some 64) 0 false).reading ≠ none) ∧
  ((xf (some 64) 0 false).flush = false) ∧
  ((xf (some 64) 0 false).done = 0) ∧
  ((xf (some 64) 0 false).appended = false) ∧
  (s_lighterReadFail.rd Reg.LT_ERR_READ_FAIL 15 + 1 < 2 ^ 16) := by decide +kernel

end W22

/-! States that meet the hypotheses of the statements about hostlink. -/

namespace W23

def ms3 : State := ({ dev with now := 3000000 }.wr Reg.CHART_CTL_EN 1).wr Reg.CHART_BASE_LO_BASE_LO 0x4000
def s_chartEnable_on : State := dev.wr Reg.CHART_CTL_EN 1
def s_chartEnable : State := dev
def s_chartWrite_not : State := { dev with now := 7 }
def s_chartWrite_off : State := { dev with now := 3000000, crossings := [{ crossingOf [] with state := 5 }] }
def s_linkChange_same : State := ((dev.wr Reg.HOSTIF_LINK_RATE 5).wr Reg.HOSTIF_LINK_WIDTH 4).wr Reg.HOSTIF_LINK_MPS 1
def s_linkChange : State := ((dev.wr Reg.HOSTIF_LINK_RATE 5).wr Reg.HOSTIF_LINK_WIDTH 4).wr Reg.HOSTIF_LINK_MPS 1
def lk : State := (((dev.wr Reg.HOSTIF_LINK_RATE 5).wr Reg.HOSTIF_LINK_WIDTH 4).wr Reg.HOSTIF_LINK_MPS 1).wr Reg.HOSTIF_BUDGET_CAP_CAP 12400
def s_linkChange_down : State := lk
def s_linkChange_down2 : State := ((((lk.wr Reg.HOSTIF_LINK_RATE 0).wr Reg.HOSTIF_LINK_WIDTH 0).wr Reg.HOSTIF_LINK_MPS 0).wr Reg.HOSTIF_BUDGET_CAP_CAP 0).produce (dev.rd Reg.RING_EVT_ROUTE_LINK) (mkRec 5 St.ok 0 0 (5 + 2 ^ 6 * 4 + 2 ^ 12 * 1 + 2 ^ 16 * 12400)) |>.signal 0 50
def xf (r : Option Nat) : Xfer := ⟨⟨2, 3, 0, 0⟩, 0, 1, 0, 64, 64, false, false, false, 0, 0, [], r, false, false, none, 0, none, 64⟩
def s_flrRequest : State := { dev.wr Reg.LT_STAT_BUSY 1 15 with xfer := [(15, [xf (some 64)])] }
def fd (a b : Bool) : State := { (((dev.wr Reg.HOSTIF_OWN_SQ_LO_SQ_LO 8).wr Reg.HOSTIF_OWN_EQ_EQ 4).wr Reg.SQ_CTL_EN 1 3).wr Reg.SQ_CTL_EN 1 4 with pf0 := { dev.pf0 with flr := a }, pf1 := { dev.pf1 with flr := b } }
def s_flrResetEdge_waits : State := { (fd true false).wr Reg.LT_STAT_BUSY 1 15 with xfer := [(15, [xf (some 64)])] }
def s_flrResetEdge : State := fd true false
def s_flrPf1 : State := fd false false
def s_hotReset : State := fd false true

theorem test_wit_chartEnable_on :
  (s_chartEnable_on.Granted Port.pf0 22536) := by decide +kernel

theorem test_wit_chartEnable :
  (s_chartEnable.Granted Port.pf0 22536) := by decide +kernel

theorem test_wit_chartWrite_not :
  (s_chartWrite_not.chartWant = false) ∧
  (s_chartWrite_not.now % 1000000 ≠ 0 ∨ s_chartWrite_not.chartMs = s_chartWrite_not.now / 1000000 + 1) := by decide +kernel

theorem test_wit_chartWrite :
  (ms3.now % 1000000 = 0) ∧
  (ms3.chartMs ≠ ms3.now / 1000000 + 1) ∧
  (ms3.on Reg.CHART_CTL_EN = true) ∧
  ((ms3.pf (ms3.ownBlk 2)).bme = true) ∧
  (ms3.rd Reg.PWR_STAT_MODE ≠ 2) := by decide +kernel

theorem test_wit_chartWrite_off :
  (s_chartWrite_off.now % 1000000 = 0) ∧
  (s_chartWrite_off.chartMs ≠ s_chartWrite_off.now / 1000000 + 1) ∧
  (s_chartWrite_off.on Reg.CHART_CTL_EN = false) := by decide +kernel

theorem test_wit_linkChange_none :
  (6 ≤ 3 ∨ 3 ≤ 0 ∨ 0 < 3 ∧ ¬3 ∈ [1, 2, 4]) := by decide +kernel

theorem test_wit_linkChange_same :
  (0 < 5) ∧
  (5 < 6) ∧
  (1 < 3) ∧
  (4 = 1 ∨ 4 = 2 ∨ 4 = 4) ∧
  (s_linkChange_same.rd Reg.HOSTIF_LINK_RATE = 5) ∧
  (s_linkChange_same.rd Reg.HOSTIF_LINK_WIDTH = 4) ∧
  (s_linkChange_same.rd Reg.HOSTIF_LINK_MPS = 1) := by decide +kernel

theorem test_wit_linkChange :
  (0 < 3) ∧
  (3 < 6) ∧
  (0 < 3) ∧
  (2 = 1 ∨ 2 = 2 ∨ 2 = 4) ∧
  (¬(s_linkChange.rd Reg.HOSTIF_LINK_RATE = 3 ∧
    s_linkChange.rd Reg.HOSTIF_LINK_WIDTH = 2 ∧ s_linkChange.rd Reg.HOSTIF_LINK_MPS = 0)) ∧
  (s_linkChange.Room (s_linkChange.rd Reg.RING_EVT_ROUTE_LINK)) := by decide +kernel

theorem test_wit_linkChange_down :
  (0 < 3) ∧
  (s_linkChange_down.rd Reg.HOSTIF_LINK_RATE ≠ 0) ∧
  (s_linkChange_down.Room (s_linkChange_down.rd Reg.RING_EVT_ROUTE_LINK)) := by decide +kernel

theorem test_wit_flrResetEdge_waits :
  (∀ (c : Crossing), c ∈ s_flrResetEdge_waits.crossings → c.state ≠ 1) ∧
  (s_flrResetEdge_waits.pf0.flr = true) ∧
  (s_flrResetEdge_waits.pf1.flr = false) ∧
  (s_flrResetEdge_waits.flrReady 0 = false) := by decide +kernel

theorem test_wit_flrResetEdge :
  (∀ (c : Crossing), c ∈ s_flrResetEdge.crossings → c.state ≠ 1) ∧
  (s_flrResetEdge.pf0.flr = true) ∧
  (s_flrResetEdge.pf1.flr = false) ∧
  (s_flrResetEdge.flrReady 0 = true) := by decide +kernel

theorem test_wit_flrPf1 :
  (∀ (c : Crossing), c ∈ s_flrPf1.crossings → c.state ≠ 1) ∧
  (s_flrPf1.pf0.flr = false) ∧
  (s_flrPf1.pf1.flr = false) ∧
  (s_flrPf1.draining (Xfer.hostOf 1) = false) := by decide +kernel

theorem test_wit_hotReset :
  (∀ (c : Crossing), c ∈ s_hotReset.crossings → c.state ≠ 1) ∧
  (s_hotReset.flrReady 0 = true) ∧
  (s_hotReset.flrReady 1 = true) := by decide +kernel

end W23

/-! States that meet the hypotheses of the statements about service. -/

namespace W24

def rn : State := { dev with boot := { dev.boot with running := true } }
def sd (opc x : Nat) : Desc := BitVec.ofNat 512 (opc + 2 ^ 128 * x)
def dSt : Desc := sd 0xC0 (2 ^ 64 * 4096 + 2 ^ 128 * 300)
def s_imageStage : State := withD 2 dSt rn
def s_imageStage_fail : State := withD 2 dSt rn
def s_imageSwitch : State := (withD 2 (sd 0xC1 50) rn).wr Reg.GEN_BOOT_STAT_STAGED 1
def s_imageSwitch_refused : State := withD 2 (sd 0xC1 50) rn
def s_flashWrite : State := (withD 2 (sd 0xC2 1) rn).wr Reg.GEN_BOOT_STAT_STAGED 1
def s_flashWrite_refused : State := withD 2 (sd 0xC2 1) rn
def jb : Job := ⟨2, 3, 0, sd 0xC1 50⟩
def s_imageHandover_waits : State := { rn with crossings := [{ crossingOf [] with crx := 7, state := 1 }], boot := { rn.boot with switch := some (jb, 5) } }
def s_imageHandover : State := { rn with boot := { rn.boot with switch := some (jb, 5) } }
def s_imageSwitchTimeout : State := { rn with now := 7, boot := { rn.boot with switch := some (jb, 5) } }
def s_handoverArmTimeout : State := { rn with now := 7, boot := { rn.boot with armBy := some 5, armJob := some jb } }
def s_handoverArmTimeout2 : State := let s := { rn with now := 7, boot := { rn.boot with armBy := none, armJob := none } }; s.swapBanks
def dLu (u a force tmo : Nat) : Desc := sd 0xC4 (u + 2 ^ 8 * a + 2 ^ 16 * force + 2 ^ 32 * tmo)
def s_unitLayup_foreign : State := (withD 2 (dLu 30 0 0 9) rn).wr Reg.HOSTIF_OWN_SQ_LO_SQ_LO 4
def s_unitLayup_foreign2 : State := let s := (withD 2 (dLu 30 0 0 9) rn).wr Reg.HOSTIF_OWN_SQ_LO_SQ_LO 4; { s.begun 2 with free := s.free + 1 }
def s_unitLayup_twice : State := (withD 2 (dLu 30 0 0 9) rn).setLaid 30 true
def s_unitLayup_wait : State := withD 2 (dLu 30 0 0 9) rn
def s_unitLayup_force : State := withD 2 (dLu 40 0 1 9) rn
def lay (u : Nat) (ap : Bool) : Layup := ⟨⟨2, 3, 0, dLu u 0 0 9⟩, u, 0, false, 5000, ap⟩
def s_layupApply_waits : State := { rn with layups := [lay 10 false], crossings := [{ crossingOf [] with crx := 7, state := 3, uses := [(10, 0)] }] }
def s_layupApply : State := { rn.wr Reg.DRV_STAT_STATE Dst.run 4 with layups := [lay 10 false] }
def s_laidUp_waits : State := { rn.wr Reg.DRV_STAT_STATE Dst.stopping 4 with layups := [lay 10 true] }
def s_laidUp : State := { rn.wr Reg.RING_EVT_ROUTE_UNIT 5 with layups := [lay 10 true] }
def s_layupTimeout : State := { rn with now := 5000, layups := [lay 10 false] }
def dRe (u : Nat) : Desc := sd 0xC5 u
def s_unitReadmit_in : State := withD 2 (dRe 10) rn
def s_unitReadmit_live : State := ((withD 2 (dRe 10) rn).setLaid 10 true).setCause Src.drvStall 10 true
def s_unitReadmit : State := let s := ((withD 2 (dRe 112) rn).setLaid 112 true).setBoomed 112 true; { s with live := [(Reg.HTR_CFG_EN.key 2 0, 1)] }
def dLb (off len : Nat) : Desc := sd 0xC8 (off + 2 ^ 32 * len)
def s_logbookWrite_low : State := withD 2 (dLb 0xFFF8 8) rn
def s_logbookWrite : State := withD 2 (dLb 0x10000 8) rn
def s_crossingCounterWrite : State := { rn.wr Reg.GEN_LB_STAT_PENDING 9 with lbDue := [3] }
def s_journalEntryWrite : State := { rn with lbDue := [] }
def s_lbAddrWrite : State := { rn with logbook := [(4098, 55)] }

theorem test_wit_imageStage :
  (2 < 64) ∧
  (s_imageStage.boot.running = true) ∧
  (s_imageStage.Room (s_imageStage.rd Reg.SQ_CFG_EQ 2)) ∧
  (s_imageStage.Ready 2 192 dSt) ∧
  (dget dSt 24 0 6 = 0) ∧
  (dget dSt 32 0 32 ≤ 528704) ∧
  (dCrx dSt = 0) ∧
  (dZero dSt 16 24 = true) ∧
  (dZero dSt 36 64 = true) ∧
  (s_imageStage.boot.switch = none) ∧
  (s_imageStage.Calm) ∧
  ((s_imageStage.pf (s_imageStage.ownSq 2)).flr = false) ∧
  ((s_imageStage.pf (s_imageStage.ownSq 2)).bme = true) := by decide +kernel

theorem test_wit_imageStage_fail :
  (2 < 64) ∧
  (s_imageStage_fail.boot.running = true) ∧
  (s_imageStage_fail.Room (s_imageStage_fail.rd Reg.SQ_CFG_EQ 2)) ∧
  (s_imageStage_fail.Ready 2 192 dSt) ∧
  (dget dSt 24 0 6 = 0) ∧
  (dget dSt 32 0 32 ≤ 528704) ∧
  (dCrx dSt = 0) ∧
  (dZero dSt 16 24 = true) ∧
  (dZero dSt 36 64 = true) ∧
  (s_imageStage_fail.boot.switch = none) ∧
  (s_imageStage_fail.Calm) ∧
  ((s_imageStage_fail.pf (s_imageStage_fail.ownSq 2)).flr = false) ∧
  ((s_imageStage_fail.pf (s_imageStage_fail.ownSq 2)).bme = true) := by decide +kernel

theorem test_wit_imageSwitch :
  (2 < 64) ∧
  (s_imageSwitch.boot.running = true) ∧
  (s_imageSwitch.Room (s_imageSwitch.rd Reg.SQ_CFG_EQ 2)) ∧
  (s_imageSwitch.Ready 2 193 (sd 193 50)) ∧
  (dZero (sd 193 50) 20 64 = true) ∧
  (s_imageSwitch.boot.switch = none) ∧
  (s_imageSwitch.on Reg.GEN_BOOT_STAT_STAGED = true) := by decide +kernel

theorem test_wit_imageSwitch_refused :
  (2 < 64) ∧
  (s_imageSwitch_refused.boot.running = true) ∧
  (s_imageSwitch_refused.Room (s_imageSwitch_refused.rd Reg.SQ_CFG_EQ 2)) ∧
  (s_imageSwitch_refused.Ready 2 193 (sd 193 50)) ∧
  (dZero (sd 193 50) 20 64 = true) ∧
  (s_imageSwitch_refused.boot.switch = none) ∧
  (s_imageSwitch_refused.on Reg.GEN_BOOT_STAT_STAGED = false) := by decide +kernel

theorem test_wit_flashWrite :
  (2 < 64) ∧
  (s_flashWrite.boot.running = true) ∧
  (s_flashWrite.Room (s_flashWrite.rd Reg.SQ_CFG_EQ 2)) ∧
  (s_flashWrite.Ready 2 194 (sd 194 1)) ∧
  (dget (sd 194 1) 16 1 7 = 0) ∧
  (dZero (sd 194 1) 17 64 = true) ∧
  (s_flashWrite.on Reg.GEN_BOOT_STAT_STAGED = true) := by decide +kernel

theorem test_wit_flashWrite_refused :
  (2 < 64) ∧
  (s_flashWrite_refused.boot.running = true) ∧
  (s_flashWrite_refused.Room (s_flashWrite_refused.rd Reg.SQ_CFG_EQ 2)) ∧
  (s_flashWrite_refused.Ready 2 194 (sd 194 1)) ∧
  (dget (sd 194 1) 16 1 7 = 0) ∧
  (dZero (sd 194 1) 17 64 = true) ∧
  (s_flashWrite_refused.on Reg.GEN_BOOT_STAT_STAGED = false) := by decide +kernel

theorem test_wit_imageHandover_waits :
  (s_imageHandover_waits.boot.switch = some (jb, 5)) ∧
  (∃ c, c ∈ s_imageHandover_waits.liveCrx ∧ c.state = 1) := by decide +kernel

theorem test_wit_imageHandover :
  (s_imageHandover.boot.switch = some (jb, 5)) ∧
  (s_imageHandover.boot.running = true) ∧
  (∀ (c : Crossing), c ∈ s_imageHandover.liveCrx → c.state ≠ 1) ∧
  (s_imageHandover.layups = []) ∧
  (∀ (n : Nat), n < 6 → (s_imageHandover.bls n).wear = none) ∧
  (s_imageHandover.rd Reg.GEN_BOOT_STAT_BANK < 2) := by decide +kernel

theorem test_wit_imageSwitchTimeout :
  (s_imageSwitchTimeout.boot.switch = some (jb, 5)) ∧
  (5 ≤ s_imageSwitchTimeout.now) ∧
  (s_imageSwitchTimeout.Room jb.eq) := by decide +kernel

theorem test_wit_handoverArmTimeout :
  (s_handoverArmTimeout.boot.armBy = some 5) ∧
  (s_handoverArmTimeout.boot.armJob = some jb) ∧
  (5 ≤ s_handoverArmTimeout.now) := by decide +kernel

theorem test_wit_unitLayup_foreign :
  (2 < 64) ∧
  (s_unitLayup_foreign.boot.running = true) ∧
  (s_unitLayup_foreign.Ready 2 196 (dLu 30 0 0 9)) ∧
  (unitOk (dLu 30 0 0 9) = true) ∧
  (dget (dLu 30 0 0 9) 18 1 7 = 0) ∧
  (dZero (dLu 30 0 0 9) 19 20 = true) ∧
  (dZero (dLu 30 0 0 9) 24 64 = true) ∧
  (s_unitLayup_foreign.unitOwned (s_unitLayup_foreign.jobOf 2 (dLu 30 0 0 9)) (dget (dLu 30 0 0 9) 16 0 8) =
  false) := by decide +kernel

theorem test_wit_unitLayup_twice :
  (2 < 64) ∧
  (s_unitLayup_twice.boot.running = true) ∧
  (s_unitLayup_twice.Ready 2 196 (dLu 30 0 0 9)) ∧
  (unitOk (dLu 30 0 0 9) = true) ∧
  (dget (dLu 30 0 0 9) 18 1 7 = 0) ∧
  (dZero (dLu 30 0 0 9) 19 20 = true) ∧
  (dZero (dLu 30 0 0 9) 24 64 = true) ∧
  (s_unitLayup_twice.unitOwned (s_unitLayup_twice.jobOf 2 (dLu 30 0 0 9)) (dget (dLu 30 0 0 9) 16 0 8) = true) ∧
  (s_unitLayup_twice.outOf (dget (dLu 30 0 0 9) 16 0 8) (dget (dLu 30 0 0 9) 17 0 8) = true) ∧
  (s_unitLayup_twice.Room (s_unitLayup_twice.rd Reg.SQ_CFG_EQ 2)) := by decide +kernel

theorem test_wit_unitLayup_wait :
  (2 < 64) ∧
  (s_unitLayup_wait.boot.running = true) ∧
  (s_unitLayup_wait.Ready 2 196 (dLu 30 0 0 9)) ∧
  (unitOk (dLu 30 0 0 9) = true) ∧
  (dget (dLu 30 0 0 9) 18 1 7 = 0) ∧
  (dZero (dLu 30 0 0 9) 19 20 = true) ∧
  (dZero (dLu 30 0 0 9) 24 64 = true) ∧
  (s_unitLayup_wait.unitOwned (s_unitLayup_wait.jobOf 2 (dLu 30 0 0 9)) (dget (dLu 30 0 0 9) 16 0 8) = true) ∧
  (s_unitLayup_wait.outOf (dget (dLu 30 0 0 9) 16 0 8) (dget (dLu 30 0 0 9) 17 0 8) = false) ∧
  (dget (dLu 30 0 0 9) 18 0 1 = 0) ∧
  (s_unitLayup_wait.brokenOf (dget (dLu 30 0 0 9) 16 0 8) (dget (dLu 30 0 0 9) 17 0 8) = false) := by decide +kernel

theorem test_wit_unitLayup_force :
  (2 < 64) ∧
  (s_unitLayup_force.boot.running = true) ∧
  (s_unitLayup_force.Ready 2 196 (dLu 40 0 1 9)) ∧
  (unitOk (dLu 40 0 1 9) = true) ∧
  (dget (dLu 40 0 1 9) 18 1 7 = 0) ∧
  (dZero (dLu 40 0 1 9) 19 20 = true) ∧
  (dZero (dLu 40 0 1 9) 24 64 = true) ∧
  (s_unitLayup_force.unitOwned (s_unitLayup_force.jobOf 2 (dLu 40 0 1 9)) (dget (dLu 40 0 1 9) 16 0 8) = true) ∧
  (s_unitLayup_force.outOf (dget (dLu 40 0 1 9) 16 0 8) (dget (dLu 40 0 1 9) 17 0 8) = false) ∧
  (dget (dLu 40 0 1 9) 18 0 1 = 1) ∧
  (38 ≤ dget (dLu 40 0 1 9) 16 0 8) ∧
  (dget (dLu 40 0 1 9) 16 0 8 < 62) ∧
  (s_unitLayup_force.layupRefused (dget (dLu 40 0 1 9) 16 0 8) = false) := by decide +kernel

theorem test_wit_layupApply_waits :
  (s_layupApply_waits.layups[0]? = some (lay 10 false)) ∧
  ((lay 10 false).applied = false) ∧
  (s_layupApply_waits.unitUsed (lay 10 false).unit (lay 10 false).node = true) := by decide +kernel

theorem test_wit_layupApply :
  (s_layupApply.layups[0]? = some (lay 10 false)) ∧
  ((lay 10 false).applied = false) ∧
  (s_layupApply.boot.running = true) ∧
  (s_layupApply.unitUsed (lay 10 false).unit (lay 10 false).node = false) ∧
  (6 ≤ (lay 10 false).unit) ∧
  ((lay 10 false).unit < 22) ∧
  (s_layupApply.isBoomed (lay 10 false).unit = false) ∧
  (s_layupApply.dst ((lay 10 false).unit - 6) = Dst.run) := by decide +kernel

theorem test_wit_laidUp_waits :
  (s_laidUp_waits.layups[0]? = some (lay 10 true)) ∧
  ((lay 10 true).applied = true) ∧
  (s_laidUp_waits.boot.running = true) ∧
  (6 ≤ (lay 10 true).unit) ∧
  (s_laidUp_waits.atRest (lay 10 true).unit (lay 10 true).node = false) := by decide +kernel

theorem test_wit_laidUp :
  (s_laidUp.layups[0]? = some (lay 10 true)) ∧
  ((lay 10 true).applied = true) ∧
  (s_laidUp.boot.running = true) ∧
  (6 ≤ (lay 10 true).unit) ∧
  (s_laidUp.atRest (lay 10 true).unit (lay 10 true).node = true) ∧
  (s_laidUp.Room (s_laidUp.rd Reg.RING_EVT_ROUTE_UNIT)) ∧
  (s_laidUp.Room (lay 10 true).job.eq) ∧
  (s_laidUp.rd Reg.RING_EVT_ROUTE_UNIT ≠ (lay 10 true).job.eq) ∧
  (dQuiet (lay 10 true).job.d = false) := by decide +kernel

theorem test_wit_layupTimeout :
  (s_layupTimeout.layups[0]? = some (lay 10 false)) ∧
  ((lay 10 false).applied = false) ∧
  ((lay 10 false).deadline ≤ s_layupTimeout.now) ∧
  (s_layupTimeout.Room (lay 10 false).job.eq) := by decide +kernel

theorem test_wit_unitReadmit_in :
  (2 < 64) ∧
  (s_unitReadmit_in.boot.running = true) ∧
  (s_unitReadmit_in.Ready 2 197 (dRe 10)) ∧
  (unitOk (dRe 10) = true) ∧
  (dZero (dRe 10) 18 64 = true) ∧
  (s_unitReadmit_in.unitOwned (s_unitReadmit_in.jobOf 2 (dRe 10)) (dget (dRe 10) 16 0 8) = true) ∧
  (s_unitReadmit_in.Room (s_unitReadmit_in.rd Reg.SQ_CFG_EQ 2)) ∧
  (s_unitReadmit_in.outOf (dget (dRe 10) 16 0 8) (dget (dRe 10) 17 0 8) = false) := by decide +kernel

theorem test_wit_unitReadmit_live :
  (2 < 64) ∧
  (s_unitReadmit_live.boot.running = true) ∧
  (s_unitReadmit_live.Ready 2 197 (dRe 10)) ∧
  (unitOk (dRe 10) = true) ∧
  (dZero (dRe 10) 18 64 = true) ∧
  (s_unitReadmit_live.unitOwned (s_unitReadmit_live.jobOf 2 (dRe 10)) (dget (dRe 10) 16 0 8) = true) ∧
  (s_unitReadmit_live.Room (s_unitReadmit_live.rd Reg.SQ_CFG_EQ 2)) ∧
  (s_unitReadmit_live.outOf (dget (dRe 10) 16 0 8) (dget (dRe 10) 17 0 8) = true) ∧
  (s_unitReadmit_live.liveOf (dget (dRe 10) 16 0 8) (dget (dRe 10) 17 0 8) = some Src.drvStall) := by decide +kernel

theorem test_wit_unitReadmit :
  (2 < 64) ∧
  (s_unitReadmit.boot.running = true) ∧
  (s_unitReadmit.Ready 2 197 (dRe 112)) ∧
  (unitOk (dRe 112) = true) ∧
  (dZero (dRe 112) 18 64 = true) ∧
  (s_unitReadmit.unitOwned (s_unitReadmit.jobOf 2 (dRe 112)) (dget (dRe 112) 16 0 8) = true) ∧
  (s_unitReadmit.outOf (dget (dRe 112) 16 0 8) (dget (dRe 112) 17 0 8) = true) ∧
  (s_unitReadmit.liveOf (dget (dRe 112) 16 0 8) (dget (dRe 112) 17 0 8) = none) ∧
  (6 ≤ dget (dRe 112) 16 0 8 ∧ dget (dRe 112) 16 0 8 < 22 ∨
  38 ≤ dget (dRe 112) 16 0 8 ∧ dget (dRe 112) 16 0 8 < 62 ∨
    110 ≤ dget (dRe 112) 16 0 8 ∧ dget (dRe 112) 16 0 8 < 114) := by decide +kernel

theorem test_wit_logbookWrite_low :
  (2 < 64) ∧
  (s_logbookWrite_low.boot.running = true) ∧
  (s_logbookWrite_low.Ready 2 200 (dLb 65528 8)) ∧
  (s_logbookWrite_low.Room (s_logbookWrite_low.rd Reg.SQ_CFG_EQ 2)) ∧
  (dget (dLb 65528 8) 16 0 32 % 8 = 0) ∧
  (dget (dLb 65528 8) 20 0 32 % 8 = 0) ∧
  (dget (dLb 65528 8) 20 0 32 ≤ 65536) ∧
  (dget (dLb 65528 8) 24 0 3 = 0) ∧
  (dCrx (dLb 65528 8) = 0) ∧
  (dZero (dLb 65528 8) 32 64 = true) ∧
  (dget (dLb 65528 8) 16 0 32 < 65536) := by decide +kernel

theorem test_wit_logbookWrite :
  (2 < 64) ∧
  (s_logbookWrite.boot.running = true) ∧
  (s_logbookWrite.Ready 2 200 (dLb 65536 8)) ∧
  (s_logbookWrite.Room (s_logbookWrite.rd Reg.SQ_CFG_EQ 2)) ∧
  (dget (dLb 65536 8) 16 0 32 % 8 = 0) ∧
  (dget (dLb 65536 8) 20 0 32 % 8 = 0) ∧
  (dget (dLb 65536 8) 20 0 32 ≤ 65536) ∧
  (dget (dLb 65536 8) 24 0 3 = 0) ∧
  (dCrx (dLb 65536 8) = 0) ∧
  (dZero (dLb 65536 8) 32 64 = true) ∧
  (65536 ≤ dget (dLb 65536 8) 16 0 32) ∧
  (dget (dLb 65536 8) 16 0 32 + dget (dLb 65536 8) 20 0 32 ≤ 524288) ∧
  (s_logbookWrite.Calm) ∧
  ((s_logbookWrite.pf (s_logbookWrite.ownSq 2)).flr = false) ∧
  ((s_logbookWrite.pf (s_logbookWrite.ownSq 2)).bme = true) := by decide +kernel

theorem test_wit_crossingCounterWrite :
  (s_crossingCounterWrite.boot.running = true) ∧
  ((s_crossingCounterWrite.lbCount 0 64).fst + s_crossingCounterWrite.rd Reg.GEN_LB_STAT_PENDING < 2 ^ 48) := by decide +kernel

theorem test_wit_journalEntryWrite :
  (s_journalEntryWrite.boot.running = true) ∧
  (0 < 2) ∧
  (2 ≤ 6) ∧
  (s_journalEntryWrite.lbDue = []) := by decide +kernel

theorem test_wit_lbAddrWrite :
  (s_lbAddrWrite.Granted Port.pf0 2048) ∧
  (tget none s_lbAddrWrite.post 0 = none) := by decide +kernel

end W24

/-! States that meet the hypotheses of the statements about rules. -/

namespace W25

def s_illegal : State := { dev with live := [(Reg.ENC_CFG_MODE.key 23 0, 1)] }.wr Reg.ENC_STAT_SIG_OK 1 23

theorem test_wit_undefined_reg :
  (dev.boot.rstLow = false) ∧
  (8 = 4 ∨ 8 = 8) ∧
  (98344 % 8 = 0) ∧
  (98344 < 1048576) ∧
  (dev.Granted Port.pf0 98344) ∧
  (hitsAt 98344 = []) ∧
  (98344 < 335872 ∨ 344064 ≤ 98344) ∧
  (8 = 8 → hitsAt (98344 + 4) = []) := by decide +kernel

theorem test_wit_illegal :
  (23 < 24) ∧
  (s_illegal.lv Reg.ENC_CFG_MODE 23 = 1) ∧
  (s_illegal.encLive 23 = true) ∧
  (s_illegal.rd Reg.ENC_ERR1_ILLEGAL 23 < 2 ^ 16) := by decide +kernel

theorem test_wit_positions :
  (5 < 2 ^ 40) ∧
  (2 ^ 40 - 1 < 2 ^ 40) := by decide +kernel

end W25

end Sys2Proof.Tests
end

section
/-! Register accesses that are granted (R29, R30, R311, R353), and what they answer at an offset at which no field stands (R60). -/

namespace Sys2Proof.Machine

variable {s : State} {src : Port} {off : Nat}

/-! ### Granted accesses of BAR0 -/

/-- A read through BAR0 out of reset, as a command. -/
theorem exec_bar0Read (h : s.boot.rstLow = false) (src : Port) (off size v : Nat) :
    exec (.registerWrite src 0 false off size v) s = .next ((s.barRead src off size).2.emit (.readDone (s.barRead src off size).1)) := by
  have hexec : exec (.registerWrite src 0 false off size v) s = .next (registerWriteEff src 0 false off size v s) := rfl
  simp [hexec, registerWriteEff, h]

/-- A write through BAR0 out of reset, as a command. -/
theorem exec_bar0Write (h : s.boot.rstLow = false) (src : Port) (off size v : Nat) :
    exec (.registerWrite src 0 true off size v) s = .next (s.bar0Write src off size v) := by
  have hexec : exec (.registerWrite src 0 true off size v) s = .next (registerWriteEff src 0 true off size v s) := rfl
  simp [hexec, registerWriteEff, h]

/-- The words that a granted read of `size` bytes answers, the lower one read first. -/
def State.readAccess (s : State) (off size : Nat) : Nat × State :=
  if size = 4 then s.readWord off
  else ((s.readWord off).1 + 2 ^ 32 * ((s.readWord off).2.readWord (off + 4)).1, ((s.readWord off).2.readWord (off + 4)).2)

/-- A granted read of a permitted size answers the words at its offset. -/
theorem State.barRead_granted {size : Nat} (hs : size = 4 ∨ size = 8) (ha : off % size = 0) (hb : off < 0x100000) (hg : s.Granted src off) :
    s.barRead src off size = (some (s.readAccess off size).1, (s.readAccess off size).2) := by
  obtain ⟨hopen, hown⟩ := hg
  have hsize : ¬((size ≠ 4 ∧ size ≠ 8) ∨ off % size ≠ 0 ∨ 0x100000 ≤ off) := by omega
  unfold State.barRead State.readAccess
  rw [if_neg hsize]
  rcases hp : portPf src with _ | p
  · by_cases h4 : size = 4 <;> simp [hopen, h4]
  · obtain ⟨ho, hw⟩ : (s.ownerOf off = none ∨ s.ownerOf off = some p) ∧ s.asleep off = false := by simpa [hp] using hown
    have hmine : (s.ownerOf off).any (· != p) = false := by rcases ho with ho | ho <;> simp [ho]
    by_cases h4 : size = 4 <;> simp [hopen, hmine, hw, h4]

/-- A granted write of a permitted size writes the words at its offset, the lower one first. -/
theorem State.bar0Write_granted {size : Nat} (hs : size = 4 ∨ size = 8) (ha : off % size = 0) (hb : off < 0x100000) (hg : s.Granted src off)
    (v : Nat) :
    s.bar0Write src off size v =
      if size = 8 then (s.writeWord src off (v % 2 ^ 32)).writeWord src (off + 4) (v / 2 ^ 32 % 2 ^ 32)
      else s.writeWord src off (v % 2 ^ 32) := by
  have hsize : ¬((size ≠ 4 ∧ size ≠ 8) ∨ off % size ≠ 0 ∨ 0x100000 ≤ off) := by omega
  unfold State.bar0Write
  rw [if_neg hsize, State.access_granted hg]

/-! ### Words that have a meaning of their own hold a field

A word in which no field stands is none of those that a read or a write treats apart from its fields. -/

/-- The bases of the posting stages (R62). -/
theorem postBase_mem {b : Nat} (h : postBase off = some b) : b ∈ [0, 0x78000, 0x7C000, 0x88000, 0x90000] := by
  unfold postBase at h
  split at h
  · simp_all
  · split at h
    · have : b = 0x78000 ∨ b = 0x7C000 := by simp only [Option.some.injEq] at h; omega
      rcases this with rfl | rfl <;> simp
    · split at h
      · have : b = 0x88000 ∨ b = 0x90000 := by simp only [Option.some.injEq] at h; omega
        rcases this with rfl | rfl <;> simp
      · simp at h

/-- BUSY and DROP stand in every POST status word (R63). -/
theorem hitsAt_postStatus : ∀ b ∈ [0, 0x78000, 0x7C000, 0x88000, 0x90000], hitsAt (b + 0xFFC) ≠ [] := by decide +kernel

theorem hitsAt_seqStat : hitsAt Reg.SEQ_STAT_BELL.base ≠ [] := by decide +kernel

theorem hitsAt_gangway : hitsAt 0x10 ≠ [] := by decide +kernel

theorem hitsAt_emuCfg : ∀ e < 8, hitsAt (0x61000 + 0x20 * e) ≠ [] := by decide +kernel

/-! ### Reads and writes of a word without a field -/

/-- Outside the microstep windows a word without a field shows zero. -/
theorem State.wordAt_of_noHits (h : hitsAt off = []) (hw : off < 0x52000 ∨ 0x54000 ≤ off) : s.wordAt off = 0 := by
  simp [State.wordAt, State.ustepWindow, h, hw]

/-- A read of an offset without a field flushes no posting stage. -/
theorem State.flushRead_of_noHits (h : hitsAt off = []) : s.flushRead off = s := by
  unfold State.flushRead
  split
  · rfl
  · split
    · rfl
    · simp [h]

/-- A word without a field reads zero and leaves the state as it is. -/
theorem State.readWord_of_noHits (h : hitsAt off = []) (hw : off < 0x52000 ∨ 0x54000 ≤ off) : s.readWord off = (0, s) := by
  have hbell : off ≠ Reg.SEQ_STAT_BELL.base := fun e => hitsAt_seqStat (e ▸ h)
  unfold State.readWord
  rcases hb : postBase off with _ | b
  · simp [State.flushRead_of_noHits h, State.wordAt_of_noHits h hw, hbell]
  · have hstat : off ≠ b + 0xFFC := fun e => hitsAt_postStatus b (postBase_mem hb) (e ▸ h)
    simp [State.flushRead_of_noHits h, State.wordAt_of_noHits h hw, hbell, hstat]

/-- A history lane whose selection stays keeps its samples. -/
@[simp] theorem State.laneHook_self (l : Nat) : s.laneHook s l = s := by simp [State.laneHook]

/-- Nothing follows from a write that left the state as it was, at an offset without a field. -/
theorem State.writeHook_of_noHits (h : hitsAt off = []) : s.writeHook s off = s := by
  unfold State.writeHook
  split
  · simp
  · split
    next hemu =>
      obtain ⟨hlo, hhi, ha⟩ := hemu
      have he : 0x61000 + 0x20 * ((off - 0x61000) / 0x20) = off := by omega
      exact absurd h (he ▸ hitsAt_emuCfg ((off - 0x61000) / 0x20) (by omega))
    next =>
      have hlanes : (List.range 4).foldl (fun t k => t.laneHook s (off - 0x19000 + k)) s = s := by
        rw [List.foldl_fixed']
        exact fun k => State.laneHook_self _
      simp [hlanes]

/-- A write of a word without a field is ignored. -/
theorem State.writeWord_of_noHits (h : hitsAt off = []) (v : Nat) : s.writeWord src off v = s := by
  have hprot : protWord off = false := by simp [protWord, h]
  have hwl : wlWord off = false := by simp [wlWord, h]
  have hgangway : off ≠ 0x10 := fun e => hitsAt_gangway (e ▸ h)
  simp [State.writeWord, hprot, hwl, hgangway, h, State.writeHook_of_noHits h]

/-- A granted read answers zero where none of its words holds a field. -/
theorem State.readAccess_of_noHits {size : Nat} (hs : size = 4 ∨ size = 8) (ha : off % size = 0) (h : hitsAt off = [])
    (hw : off < 0x52000 ∨ 0x54000 ≤ off) (h8 : size = 8 → hitsAt (off + 4) = []) : s.readAccess off size = (0, s) := by
  rcases hs with rfl | rfl
  · simp [State.readAccess, State.readWord_of_noHits h hw]
  · have hw4 : off + 4 < 0x52000 ∨ 0x54000 ≤ off + 4 := by omega
    simp [State.readAccess, State.readWord_of_noHits h hw, State.readWord_of_noHits (h8 rfl) hw4]

/-- Settles O58: no word with a meaning apart from its fields is without a field, so reads show an empty word and writes reach nothing. -/
theorem undefinedOffsetsAnswerZero : Obligations.UndefinedOffsetsAnswerZero := by
  intro src off size v s hrst hs ha hb hg h hw h8
  constructor
  · refine ⟨_, exec_bar0Read hrst src off size v, ?_⟩
    rw [State.barRead_granted hs ha hb hg, State.readAccess_of_noHits hs ha h hw h8]
    rfl
  · rw [exec_bar0Write hrst, State.bar0Write_granted hs ha hb hg, State.writeWord_of_noHits h]
    split
    next h8' => rw [State.writeWord_of_noHits (h8 h8')]
    next => rfl

end Sys2Proof.Machine
end

section
/-! PROOF. Positions of 40 bits compared modulo their wrap (R77): the distance is the difference modulo 2^40, and the comparisons are read off it. -/

namespace Sys2Proof.Machine

/-- R77's d: the distance counted in naturals is the integer difference modulo 2^40, of any two counts. -/
theorem posDist_eq_emod (a b : Nat) : (posDist a b : Int) = ((a : Int) - b) % 2 ^ 40 := by
  unfold posDist pos40
  omega

/-- Ahead is a distance of 1 or more that stays below half the wrap. -/
theorem posAhead_iff {a b : Nat} : posAhead a b = true ↔ 1 ≤ posDist a b ∧ posDist a b < 2 ^ 39 := by
  simp [posAhead, posDist]

/-- At or ahead is a distance below half the wrap. -/
theorem posReached_iff {a b : Nat} : posReached a b = true ↔ posDist a b < 2 ^ 39 := by
  simp [posReached]

/-- Behind is a distance of half the wrap or more. -/
theorem posReached_eq_false_iff {a b : Nat} : posReached a b = false ↔ 2 ^ 39 ≤ posDist a b := by
  simp [posReached]

/-- Positions that fit 40 bits are equal where their distance is 0: no whole wrap lies between two such positions. -/
theorem posDist_eq_zero_iff {a b : Nat} (ha : a < 2 ^ 40) (hb : b < 2 ^ 40) : posDist a b = 0 ↔ a = b := by
  have hd := posDist_eq_emod a b
  omega

/-- Settles O60: each comparison is a bound on the natural distance, and that distance is R77's d. -/
theorem positionsCompareModuloTheirWrap : Obligations.PositionsCompareModuloTheirWrap := by
  intro a b ha hb
  have hd := posDist_eq_emod a b
  refine ⟨?ahead, ?behind, ?reached, ?atIt, hd⟩ <;> rw [← hd]
  case ahead => rw [posAhead_iff]; omega
  case behind => rw [posReached_eq_false_iff]; omega
  case reached => rw [posReached_iff]; omega
  case atIt => rw [← posDist_eq_zero_iff ha hb]; omega

end Sys2Proof.Machine
end

section
/-! PROOF. An illegal transition of a quadrature port (R250): the levels that its filter accepts, the effect of a sample in which both
change, and what a counter that counts leaves unchanged. -/

namespace Sys2Proof.Machine

variable (s : State)

/-! ### Counters -/

/-- A count leaves alone what any other key reads. -/
theorem State.rd_cnt_other (f g : Fld) (i j k l n : Nat) (h : f.key i j ≠ g.key k l) : (s.cnt g k l n).rd f i j = s.rd f i j :=
  State.rd_wr_other s f g _ i j k l h

/-- A count changes the key of its counter alone. -/
theorem State.regsBut_cnt (f : Fld) (i j n : Nat) : s.RegsBut (s.cnt f i j n) [f.key i j] := by
  intro d k hk
  exact tget_tput_default _ _ _ _ (by simpa using hk)

/-! ### The filter and the illegal transition -/

/-- A level held for the whole filter length is accepted, whatever the level before it (R247). -/
theorem settled_replicate (n : Nat) (old v : Bool) : settled n old (List.replicate (n + 1) v) = v := by
  cases old <;> cases v <;> simp [settled]

/-- ILLEGAL of a port is never its count. -/
theorem encCnt_key_ne_encIllegal (p q : Nat) : Reg.ENC_CNT.key p 0 ≠ Reg.ENC_ERR1_ILLEGAL.key q 0 :=
  Fld.key_ne_addr _ _ _ _ (by decide) (by decide) (by simp [Fld.addr, Reg.ENC_CNT, Reg.ENC_ERR1_ILLEGAL]; omega)

/-- The state that an illegal transition of port `p` leaves before the reaction to its fault: both levels turned, one more in ILLEGAL. -/
def State.illegalTransition (s : State) (p : Nat) : State :=
  (s.setEnc p { s.encs p with a := !(s.encs p).a, b := !(s.encs p).b }).cnt Reg.ENC_ERR1_ILLEGAL p

variable {s}

/-- Samples by which a quadrature port in service accepts a change of A and of B together are an illegal transition (R250). -/
theorem exec_encoderCount_illegal {p : Nat} {sa sb : List Bool} (hp : p < 24) (hmode : s.lv Reg.ENC_CFG_MODE p = 1)
    (hlive : s.encLive p = true) (ha : settled (s.lv Reg.ENC_CFG_FILT p) (s.encs p).a sa = !(s.encs p).a)
    (hb : settled (s.lv Reg.ENC_CFG_FILT p) (s.encs p).b sb = !(s.encs p).b) :
    exec (.encoderCount p sa sb) s = .next ((s.illegalTransition p).raise Src.encIllegal (38 + p)) := by
  have hexec : exec (.encoderCount p sa sb) s = .next (encoderCountEff p sa sb s) := rfl
  have hlive' (x : Enc) : (s.setEnc p x).encLive p = true := hlive
  rw [hexec, encoderCountEff]
  simp [ha, hb, hmode, hlive', hp, State.illegalTransition]

/-- Settles O59: the held samples are accepted as a change of both levels, and the counter that counts it is not the count. -/
theorem illegalTransitionsCountNothing : Obligations.IllegalTransitionsCountNothing := by
  intro p s hp hmode hlive _
  refine ⟨_, s.illegalTransition p,
    exec_encoderCount_illegal hp hmode hlive (settled_replicate _ _ _) (settled_replicate _ _ _), rfl, ?count, ?illegal, ?levels, rfl, ?regs⟩
  case count => exact State.rd_cnt_other _ _ _ _ _ _ _ _ (encCnt_key_ne_encIllegal p p)
  case illegal => exact State.rd_cnt_self _ _ _ _ _
  case levels => simp [State.illegalTransition, State.cnt]
  case regs => exact State.regsBut_cnt _ _ _ _ _

end Sys2Proof.Machine
end
